-- ==== Sys2Proof/Word.lean ====
section
/-! DEFINITION. The word types of the model and the two containers it is built from: a sparse map
and a group of four, one for each channel. -/
namespace Sys2Proof

abbrev Byte := BitVec 8
abbrev W16 := BitVec 16
abbrev W32 := BitVec 32
abbrev W64 := BitVec 64
abbrev W128 := BitVec 128

/-- A sparse map from numbers: pairs of key and value, keys strictly rising. -/
abbrev Smap (α : Type) := List (Nat × α)

/-- A channel number, 0 to 3 (R11). -/
abbrev Chn := Fin 4

/-- Logical coordinates of a cell, written chC:yY:xX (R11). -/
structure CellId where
  ch : Chn
  y : Fin 32
  x : Fin 80
  deriving DecidableEq, Repr

/-- The cell's number 80 × y + x inside its channel, as fault details and restore maps write it
(R240, R374). -/
def CellId.num (k : CellId) : Nat := 80 * k.y.val + k.x.val

/-- One value for each channel. -/
structure Quad (α : Type) where
  c0 : α
  c1 : α
  c2 : α
  c3 : α
  deriving DecidableEq, Repr

def Quad.get {α : Type} (q : Quad α) : Chn → α
  | 0 => q.c0
  | 1 => q.c1
  | 2 => q.c2
  | 3 => q.c3

def Quad.set {α : Type} (q : Quad α) (c : Chn) (v : α) : Quad α :=
  match c with
  | 0 => { q with c0 := v }
  | 1 => { q with c1 := v }
  | 2 => { q with c2 := v }
  | 3 => { q with c3 := v }

def Quad.all {α : Type} (v : α) : Quad α := ⟨v, v, v, v⟩

end Sys2Proof
end

