-- ==== Sys2Proof/Syntax.lean ====
section
/-! DEFINITION. The commands the block takes and the data they carry. What one command carries stands
for what only the outside can settle: a tick slot on the line, sensor readings, a host's data, the
structured form of an image (R230) whose container format the spec leaves to the toolchain. -/
namespace Sys2Proof

/-- A tick slot as received on TIDE_IN (R46, R47): the marker's offset from the expected boundary in
nanoseconds, and the 32-bit tick word. -/
structure TickSlot where
  offset : Int
  word : W32
  deriving DecidableEq, Repr

/-- A code set (R211, R328): for each channel, the bundles of each cell's page by cell number and
address, and the edge plan's runs of 16 bytes. -/
structure CodeSet where
  cells : Quad (Smap (Smap (BitVec 256)))
  edge : Quad (List W128)
  deriving DecidableEq, Repr

/-- A channel program (R542): entry address, instruction words from address 0, initial data memory. -/
structure ChanProgram where
  entry : Nat
  text : List W32
  data : List Byte
  deriving DecidableEq, Repr

/-- The tables of the main image or of one fallback variant (R230), entries as their bytes lie. -/
structure ImagePart where
  chset : BitVec 4
  codeSets : List CodeSet
  programs : Quad (Option ChanProgram)
  blocks : List (BitVec 512)
  gateLists : List W64
  totals : List (BitVec 512)
  tallyPlan : List W128
  digestPlan : List W128
  streamDescs : Quad (List (BitVec 256))
  tensorDescs : Smap (BitVec 512)
  sqCaps : Quad (List Nat)
  dqCaps : Quad (List Nat)
  barriers : Quad (Smap (List Nat))
  trees : Quad (Smap (List Nat))
  saveSet : List Nat
  resume : Smap Nat
  ledgerStart : Quad (Smap (List W64))
  restoreMap : List W128
  deriving DecidableEq, Repr

/-- An image (R230): the revisions and grade it was made for, the main tables and the fallback
variants 1 to 4. -/
structure Image where
  bundleRev : Byte
  latRev : Byte
  ccoreRev : Byte
  grade : Nat
  main : ImagePart
  variants : List ImagePart
  deriving DecidableEq, Repr

/-- The tasks of a slack window (R505). -/
inductive SlackTask where
  | firmware
  | retrain (n : Fin 8)
  | calibrate (r : Fin 37)
  | substitute (c : Chn) (p : Nat)
  deriving DecidableEq, Repr

/-- Which part of a 64-bit entry a write carries (R310). -/
inductive WordPart where
  | whole
  | low
  | high
  deriving DecidableEq, Repr

/-- The algorithms an SPDM requester offers (R495). -/
structure SpdmAlgs where
  ecdsaP521 : Bool
  sha512 : Bool
  secp521r1 : Bool
  aes256gcm : Bool
  deriving DecidableEq, Repr

/-- What the surroundings settle when a bring-up phase ends (R500): the attempts training took, and
the crossing margins that calibration left. -/
structure BringupEnv where
  tries : BitVec 2
  margins : List Byte
  deriving DecidableEq, Repr

/-- The instructions of the debug TAP (R530). -/
inductive TapOp where
  | bypass
  | idcode
  | samplePreload
  | extest
  | stackWrapper (word : W16)
  | other (word : W16)
  deriving DecidableEq, Repr

/-- The reasons for which the input controller turns off (R522). -/
inductive InputTrip where
  | under
  | over
  | current
  deriving DecidableEq, Repr

/-- The commands: one constructor for each row of the table of operations and events, in its order. -/
inductive Instr where
  | tideTick (slot : Option TickSlot) -- R35
  | tideFrame -- R48
  | tideLoss -- R57
  | tideHoldRelease -- R59
  | tidePromoteJump -- R61
  | haltAtMark (n : Fin 4) -- R39
  | freqStepAtMark (n : Fin 4) -- R40
  | slackWindowOpen (n : Fin 4) -- R504
  | handoverAtMark (n : Fin 4) -- R62
  | bundleIssue (k : CellId) -- R170
  | mxnop (k : CellId) -- R186
  | mxcfg (k : CellId) -- R186
  | mma (k : CellId) -- R187
  | close (k : CellId) -- R132
  | vnop (k : CellId) -- R191
  | vmov (k : CellId) -- R191
  | vsel (k : CellId) -- R191
  | vcvt (k : CellId) -- R192
  | vand (k : CellId) -- R191
  | vor (k : CellId) -- R191
  | vxor (k : CellId) -- R191
  | vandn (k : CellId) -- R191
  | vshl (k : CellId) -- R191
  | vshr (k : CellId) -- R191
  | vsar (k : CellId) -- R191
  | viadd (k : CellId) -- R191
  | visub (k : CellId) -- R191
  | vimul (k : CellId) -- R191
  | vmax (k : CellId) -- R191
  | vmin (k : CellId) -- R191
  | vadd (k : CellId) -- R191
  | vsub (k : CellId) -- R191
  | vmul (k : CellId) -- R191
  | vfma (k : CellId) -- R191
  | vabs (k : CellId) -- R191
  | vneg (k : CellId) -- R191
  | vdiv (k : CellId) -- R155
  | vsqrt (k : CellId) -- R155
  | vrcp (k : CellId) -- R155
  | vrsq (k : CellId) -- R155
  | vexp2 (k : CellId) -- R155
  | vlog2 (k : CellId) -- R155
  | vcmp (k : CellId) -- R157
  | vmaskn (k : CellId) -- R191
  | vmaskb (k : CellId) -- R191
  | vmlog (k : CellId) -- R192
  | vlsum (k : CellId) -- R158
  | vlprod (k : CellId) -- R158
  | vlmax (k : CellId) -- R158
  | vlmin (k : CellId) -- R158
  | vland (k : CellId) -- R158
  | vlor (k : CellId) -- R158
  | vlargmax (k : CellId) -- R161
  | vlargmin (k : CellId) -- R161
  | vrsum (k : CellId) -- R159
  | vrprod (k : CellId) -- R159
  | vrmax (k : CellId) -- R159
  | vrmin (k : CellId) -- R159
  | vrand (k : CellId) -- R159
  | vror (k : CellId) -- R159
  | vrargmax (k : CellId) -- R161
  | vrargmin (k : CellId) -- R161
  | vflg (k : CellId) -- R163
  | lsnop (k : CellId) -- R194
  | lpush (k : CellId) -- R194
  | spop (k : CellId) -- R194
  | lcopy (k : CellId) -- R194
  | shld (k : CellId) -- R114
  | shlds (k : CellId) -- R115
  | ixset (k : CellId) -- R176
  | ltide (k : CellId) -- R195
  | lrand (k : CellId) -- R488
  | lcyc (k : CellId) -- R195
  | route (k : CellId) -- R198
  | cnop (k : CellId) -- R199
  | loop (k : CellId) -- R180
  | idle (k : CellId) -- R182
  | idleEnd (k : CellId) -- R182
  | bend (k : CellId) -- R184
  | shsw (k : CellId) -- R117
  | tchk (k : CellId) -- R199
  | barr (k : CellId) -- R92
  | barrierRelease (c : Chn) (g : Nat) -- R92
  | bwait (k : CellId) -- R183
  | fset (k : CellId) -- R94
  | fclr (k : CellId) -- R94
  | frdo (k : CellId) -- R200
  | frda (k : CellId) -- R200
  | sgnl (k : CellId) -- R199
  | take (k : CellId) -- R199
  | edgePlanRun (c : Chn) (n : Nat) -- R329
  | blockEnd (c : Chn) -- R213
  | gateClose (c : Chn) -- R218
  | savePointWrite (c : Chn) -- R362
  | saveComplete -- R363
  | saveDue -- R361
  | gateCheckPass (c : Chn) -- R219
  | jointReady (c : Chn) -- R221
  | blockRelease (c : Chn) -- R220
  | gateWaitLong (c : Chn) -- R228
  | counterOpArrive (n : Nat) -- R283
  | ccoreWaitLong (c : Chn) -- R288
  | alu (c : Chn) -- R207
  | iaddk (c : Chn) -- R207
  | bandk (c : Chn) -- R207
  | bork (c : Chn) -- R207
  | bxork (c : Chn) -- R207
  | shiftk (c : Chn) -- R207
  | cltsk (c : Chn) -- R207
  | cltuk (c : Chn) -- R207
  | ldk (c : Chn) -- R207
  | shins (c : Chn) -- R207
  | load (c : Chn) -- R207
  | store (c : Chn) -- R207
  | branch (c : Chn) -- R207
  | call (c : Chn) -- R207
  | jreg (c : Chn) -- R542
  | ssig (c : Chn) -- R279
  | swait (c : Chn) -- R285
  | stake (c : Chn) -- R279
  | sset (c : Chn) -- R279
  | srd (c : Chn) -- R282
  | msend (c : Chn) -- R290
  | msendComplete (c : Chn) -- R290
  | mrecv (c : Chn) -- R292
  | mrecvComplete (c : Chn) -- R292
  | mpoll (c : Chn) -- R292
  | messageDeliver (src dst : Byte) -- R291
  | sendStall (port : Fin 8) -- R294
  | gate (c : Chn) -- R222
  | bcast (c : Chn) -- R150
  | sopen (c : Chn) -- R324
  | scancel (c : Chn) -- R330
  | sdepth (c : Chn) -- R326
  | wkrd (c : Chn) -- R338
  | wkwr (c : Chn) -- R338
  | wicketComplete (c : Chn) -- R339
  | csrr (c : Chn) -- R543
  | csrw (c : Chn) -- R543
  | rdtide (c : Chn) -- R207
  | rdfwait (c : Chn) -- R207
  | rdrand (c : Chn) -- R488
  | rdcyc (c : Chn) -- R207
  | flgclr (c : Chn) -- R164
  | evsig (c : Chn) -- R421
  | fetchRequest (c : Chn) (q : Nat) -- R325
  | readReturn (c : Chn) (q pos : Nat) -- R326
  | drainWrite (c : Chn) (q : Nat) -- R327
  | hbmRefresh (n : Fin 8) -- R307
  | hbmRetry (n : Fin 8) (wdata exhausted : Bool) -- R307
  | patrolScrub (n : Fin 8) (granule : Nat) -- R356
  | ceWindowExpiry -- R370
  | cxlMemRead (off : Nat) (cacheable : Bool) -- R443
  | cxlMemWrite (off : Nat) (data : BitVec 512) (enables : W64) (reqId : W16) (poison : Bool) -- R445
  | commandSlotExamine -- R382
  | commandComplete (seq : W64) -- R396
  | identify (seq : W64) -- R398
  | queryFeatures (seq : W64) -- R401
  | loadImage (seq : W64) (img : Image) -- R402
  | verifyImage (seq : W64) (img : Image) -- R231
  | bindChannels (seq : W64) -- R517
  | attest (seq : W64) -- R494
  | sealReceipt (seq : W64) -- R265
  | eventConfig (seq : W64) -- R423
  | clearFaults (seq : W64) -- R358
  | dumpState (seq : W64) -- R241
  | start (seq : W64) -- R403
  | stop (seq : W64) -- R404
  | stopAfterBlock (seq : W64) -- R405
  | save (seq : W64) -- R365
  | resume (seq : W64) -- R365
  | resumeStream (seq : W64) -- R335
  | retireChannel (seq : W64) -- R372
  | adoptFallback (seq : W64) -- R373
  | resetChannel (seq : W64) -- R515
  | pairMode (seq : W64) -- R409
  | setFreqPlan (seq : W64) -- R406
  | scheduleSlack (seq : W64) -- R406
  | setTideRole (seq : W64) -- R407
  | substituteColumn (seq : W64) -- R408
  | fwStage (seq : W64) -- R483
  | fwActivate (seq : W64) -- R483
  | calibrate (seq : W64) -- R460
  | hbmRetrain (seq : W64) -- R511
  | recoveryDecision (c : Chn) -- R359
  | rollback -- R367
  | columnSubstitution (c : Chn) (p : Nat) -- R103
  | phaseCalibration (r : Fin 37) (margin : Byte) -- R460
  | hbmRetrainTask (n : Fin 8) (ok : Bool) -- R511
  | mgmtFwSwitch -- R512
  | slackTaskEnd (t : SlackTask) -- R506
  | slackSpanEnd -- R506
  | pairCompare (slot : Fin 8) (c : Chn) -- R272
  | pairStall (slot : Fin 8) -- R273
  | eventOccurrence -- R423
  | eventTimeout (e : Nat) -- R423
  | eventClaim (v : Fin 64) (wide : Bool) -- R427
  | evcPendSet (k : Fin 32) (w : W32) -- R428
  | evcPendClr (k : Fin 32) (w : W32) -- R430
  | evcMaskSet (k : Fin 32) (w : W32) -- R430
  | evcMaskClr (k : Fin 32) (w : W32) -- R430
  | evcPendWindowWrite (k : Fin 32) (w : W32) -- R430
  | evcMaskWindowWrite (k : Fin 32) (w : W32) -- R430
  | evcCfgWrite (e : Nat) (w : W64) -- R433
  | mgmtWake (core : Fin 4) -- R431
  | windowTableWrite (n : Nat) (part : WordPart) (w : W64) -- R310
  | wtabFlush -- R311
  | clearNext (c : Chn) -- R164
  | breakwaterEnable (n : Fin 8) (on : Bool) -- R337
  | breakwaterInvalidate (n : Fin 8) -- R346
  | channelPowerOff (mask : BitVec 4) -- R472
  | quiesce -- R452
  | retrainFull -- R438
  | peerSend (mask : W16) -- R449
  | replyRingEnable (w : W32) -- R418
  | replyConsWrite (w : W64) -- R391
  | fltConsWrite (w : W64) -- R358
  | readClear (off size : Nat) -- R12
  | latchedLowRead (off : Nat) -- R536
  | registerWrite (off size : Nat) (val : W64) -- R12
  | configRequest (write : Bool) (off : Nat) (val : W32) -- R447
  | doeCdat (entry : W16) -- R446
  | doeCompliance (request : List Byte) -- R446
  | doeAbort (m : Fin 3) -- R446
  | getVersion -- R495
  | getCapabilities -- R495
  | negotiateAlgorithms (algs : SpdmAlgs) -- R495
  | getDigests -- R495
  | getCertificate (slot : Byte) (off len : W16) -- R495
  | challenge (slot : Byte) (nonce : BitVec 256) -- R495
  | getMeasurements (index : Byte) (sign : Bool) (nonce : BitVec 256) -- R495
  | keyExchange (slot : Byte) (exchange : List Byte) -- R495
  | finish (session : W32) (verified : Bool) -- R495
  | endSession (session : W32) -- R495
  | sidebandRecoveryWrite (off : W32) (data : List Byte) -- R496
  | linkUp (laneBad : W16) (slow : Bool) -- R437
  | linkRecovery -- R438
  | linkLoss -- R439
  | linkDownLimit -- R439
  | surpriseRemoval -- R454
  | moduleInsert (ample : Bool) -- R450
  | pwrEnAssert -- R522
  | pwrEnDeassert -- R524
  | inputFault (trip : InputTrip) -- R522
  | deviceReset -- R503
  | thermtrip (sensor : Fin 54) -- R470
  | bringupPhaseEnd (env : BringupEnv) -- R500
  | bringupFailed (die : BitVec 4) -- R500
  | noiseHealthFail -- R488
  | droopStretch (firing : BitVec 37) -- R463
  | sensorRead (temps : List W16) -- R468
  | ceilingEvaluate (mean : W32) -- R469
  | clockDrift (r : Fin 37) (margin : Byte) -- R461
  | railArrive -- R466
  | perstNDeassert -- R503
  | inputReaches46v -- R522
  | sopenComplete (c : Chn) -- R324
  | scancelComplete (c : Chn) -- R330
  | bisnpResponse (off : Nat) (dirty : Option (BitVec 512)) -- R444
  | peerReplyWrite (reqId : W16) (off : Nat) (data : List Byte) -- R448
  | doeDiscovery (m : Fin 3) (index : Byte) -- R446
  | doeObjectDiscarded (m : Fin 3) (protocol : Byte) (len : Nat) -- R446
  | tapInstruction (op : TapOp) -- R530
  | ccoreInstructionFault (c : Chn) -- R205
  | pairRingPoll (c : Chn) -- R271
  | retirementWindowExpiry (c : Chn) -- R371
  deriving DecidableEq, Repr

end Sys2Proof
end

