-- ==== Sys2Proof/Machine/Code.lean ====
section
/-! DEFINITION. Bit fields, byte order and the codes of the part: little-endian bytes (R7), CRC-32C
(R385), SHA-512, arithmetic in GF(2^128) (R260), residues modulo 2^61 - 1 (R248), and the data code
of 144-bit codewords (R347 to R350). -/
namespace Sys2Proof

variable {w : Nat}

/-- Bits [lo + n - 1 : lo] as a number (R7). -/
def fldN (x : BitVec w) (lo n : Nat) : Nat := (x.toNat >>> lo) % 2 ^ n

/-- Bits [lo + n - 1 : lo] of a word. -/
def fld (x : BitVec w) (lo n : Nat) : BitVec n := x.extractLsb' lo n

/-- One bit of a word. -/
def bitAt (x : BitVec w) (i : Nat) : Bool := x.getLsbD i

/-- The word with bits [lo + n - 1 : lo] replaced. -/
def setFld (x : BitVec w) (lo n : Nat) (v : BitVec n) : BitVec w :=
  (x &&& ~~~((BitVec.allOnes n).setWidth w <<< lo)) ||| (v.setWidth w <<< lo)

/-- The word with one bit replaced. -/
def setBit (x : BitVec w) (i : Nat) (b : Bool) : BitVec w := setFld x i 1 (BitVec.ofBool b)

/-- A field read as a signed number. -/
def fldI (x : BitVec w) (lo n : Nat) : Int := (x.extractLsb' lo n).toInt

def boolBit (b : Bool) : Nat := if b then 1 else 0

/-- A number as a 64-bit word. -/
def w64 (n : Nat) : W64 := BitVec.ofNat 64 n

def w32 (n : Nat) : W32 := BitVec.ofNat 32 n

/-- A counter that stops at all ones. -/
def satInc (x : BitVec w) : BitVec w := if x = BitVec.allOnes w then x else x + 1

def satAdd (x : BitVec w) (n : Nat) : BitVec w :=
  if x.toNat + n < 2 ^ w then x + BitVec.ofNat w n else BitVec.allOnes w

/-! ### Bytes -/

/-- The `n` low bytes of a number, lowest first (R7). -/
def bytesLE : Nat → Nat → List Byte
  | 0, _ => []
  | n + 1, x => BitVec.ofNat 8 x :: bytesLE n (x >>> 8)

/-- The number that bytes spell, lowest first (R7). -/
def ofBytesLE : List Byte → Nat
  | [] => 0
  | b :: bs => b.toNat + 256 * ofBytesLE bs

/-- The `n` low bytes of a number, highest first, as SHA-512 orders them. -/
def bytesBE (n x : Nat) : List Byte := (bytesLE n x).reverse

def ofBytesBE (bs : List Byte) : Nat := ofBytesLE bs.reverse

def asciiBytes (s : String) : List Byte := s.toList.map fun ch => BitVec.ofNat 8 ch.toNat

/-! ### CRC-32C (R385) -/

def crcBit (c : W32) : W32 :=
  if c.getLsbD 0 then (c >>> 1) ^^^ 0x82F63B78#32 else c >>> 1

def crcByte (c : W32) (b : Byte) : W32 :=
  let x := c ^^^ b.setWidth 32
  crcBit (crcBit (crcBit (crcBit (crcBit (crcBit (crcBit (crcBit x)))))))

/-- CRC-32C: Castagnoli, reflected, initial value and final XOR of all ones. -/
def crc32c (bs : List Byte) : W32 := (bs.foldl crcByte 0xFFFFFFFF#32) ^^^ 0xFFFFFFFF#32

/-- A record of `n` bytes whose last four hold the CRC-32C over the bytes before them. -/
def crcGood (n : Nat) (x : Nat) : Bool :=
  decide ((crc32c (bytesLE (n - 4) x)).toNat = x >>> (8 * (n - 4)) % 2 ^ 32)

/-- A record of `n` bytes with its closing CRC-32C filled in. -/
def withCrc (n : Nat) (x : Nat) : Nat :=
  x % 2 ^ (8 * (n - 4)) + (crc32c (bytesLE (n - 4) x)).toNat * 2 ^ (8 * (n - 4))

/-! ### SHA-512 (R260, FIPS 180-4) -/

/-- The largest number whose `k`-th power is at most `n`, found bit by bit below 2^bits. -/
def rootBelow (k n : Nat) : Nat → Nat → Nat
  | 0, r => r
  | bits + 1, r => rootBelow k n bits (if (r + 2 ^ bits) ^ k ≤ n then r + 2 ^ bits else r)

/-- The first 80 primes. -/
def shaPrimes : List Nat :=
  (List.range 410).filter fun n => decide (2 ≤ n) && (List.range 21).all fun d => d < 2 || n ≤ d || n % d ≠ 0

/-- The first 64 bits behind the point of the `k`-th root of a prime. -/
def rootBits (k p : Nat) : W64 := w64 (rootBelow k (p * 2 ^ (64 * k)) 68 0)

/-- The round constants come from cube roots, the first chaining value from square roots. -/
def shaRounds : List W64 := shaPrimes.map (rootBits 3)
def shaStart : List W64 := (shaPrimes.take 8).map (rootBits 2)

/-- The XOR of a word rotated by each amount of a list. -/
def rotated (x : W64) (l : List Nat) : W64 := l.foldl (fun acc i => acc ^^^ x.rotateRight i) 0

/-- One round. The eight working words stand in a list, newest first; the message window holds the 16
words that the schedule still needs. -/
def shaStep (p : List W64 × List W64) (k : W64) : List W64 × List W64 :=
  let v := fun i => p.1.getD i 0
  let m := fun i => p.2.getD i 0
  let choose := (v 4 &&& v 5) ^^^ (~~~(v 4) &&& v 6)
  let majority := (v 0 &&& v 1) ^^^ (v 0 &&& v 2) ^^^ (v 1 &&& v 2)
  let up := v 7 + rotated (v 4) [14, 18, 41] + choose + k + m 0
  let next := m 0 + (rotated (m 1) [1, 8] ^^^ (m 1 >>> 7)) + m 9 + (rotated (m 14) [19, 61] ^^^ (m 14 >>> 6))
  ([up + rotated (v 0) [28, 34, 39] + majority, v 0, v 1, v 2, v 3 + up, v 4, v 5, v 6], p.2.drop 1 ++ [next])

def shaWords : Nat → List Byte → List W64
  | 0, _ => []
  | n + 1, bs => w64 (ofBytesBE (bs.take 8)) :: shaWords n (bs.drop 8)

/-- A block of 128 bytes enters the chaining value. -/
def shaAbsorb (ks : List W64) : Nat → List W64 → List Byte → List W64
  | 0, h, _ => h
  | n + 1, h, bs =>
    let r := (ks.foldl shaStep (h, shaWords 16 (bs.take 128))).1
    shaAbsorb ks n (List.zipWith (· + ·) h r) (bs.drop 128)

/-- The message with its one bit, its zeros up to 16 bytes below a block's end, and its length in bits. -/
def shaPadded (bs : List Byte) : List Byte :=
  let zeros := (111 + 128 - bs.length % 128) % 128
  bs ++ 0x80 :: List.replicate zeros 0 ++ bytesBE 16 (8 * bs.length)

/-- The 64 digest bytes in order. -/
def sha512Bytes (bs : List Byte) : List Byte :=
  let p := shaPadded bs
  (shaAbsorb shaRounds (p.length / 128) shaStart p).flatMap fun x => bytesBE 8 x.toNat

/-- The digest as stored in a little-endian field: byte i of the field is digest byte i. -/
def sha512 (bs : List Byte) : BitVec 512 := BitVec.ofNat 512 (ofBytesLE (sha512Bytes bs))

/-- HMAC-SHA-512 (R484, FIPS 198-1). -/
def hmacSha512 (key msg : List Byte) : List Byte :=
  let short := if 128 < key.length then sha512Bytes key else key
  let pad := fun (x : Byte) => (List.range 128).map fun i => short.getD i 0 ^^^ x
  sha512Bytes (pad 0x5C ++ sha512Bytes (pad 0x36 ++ msg))

/-! ### GF(2^128) of the digests (R260) -/

/-- Times x, modulo x^128 + x^7 + x^2 + x + 1. -/
def gfDouble (a : W128) : W128 :=
  if a.getLsbD 127 then (a <<< 1) ^^^ 0x87#128 else a <<< 1

def gfMulAux : Nat → W128 → W128 → W128
  | 0, _, _ => 0
  | n + 1, a, b =>
    let r := gfMulAux n (gfDouble a) (b >>> 1)
    if b.getLsbD 0 then a ^^^ r else r

def gfMul (a b : W128) : W128 := gfMulAux 128 a b

/-- `a` to the power `n`, for `n` below 2^fuel. -/
def gfPowAux : Nat → W128 → Nat → W128
  | 0, _, _ => 1
  | f + 1, a, n =>
    let r := gfPowAux f (gfMul a a) (n / 2)
    if n % 2 = 1 then gfMul a r else r

def gfPow (a : W128) (n : Nat) : W128 := gfPowAux 64 a n

/-! ### Residues modulo 2^61 - 1 (R248) -/

def tallyP : Nat := 2 ^ 61 - 1

/-- The residue of N × 2^e. -/
def residue (n e : Int) : Nat :=
  (n.emod tallyP).toNat * 2 ^ (e.emod 61).toNat % tallyP

/-! ### The data code (R347 to R350) -/

abbrev Sym := BitVec 4

def symDouble (a : Sym) : Sym := if a.getLsbD 3 then (a <<< 1) ^^^ 3#4 else a <<< 1

/-- Product in GF(16) = GF(2)[ω]/(ω^4 + ω + 1). -/
def symMul (a b : Sym) : Sym :=
  let a1 := symDouble a
  let a2 := symDouble a1
  let a3 := symDouble a2
  (if b.getLsbD 0 then a else 0) ^^^ (if b.getLsbD 1 then a1 else 0) ^^^
  (if b.getLsbD 2 then a2 else 0) ^^^ (if b.getLsbD 3 then a3 else 0)

/-- ω^3. -/
def symW3 : Sym := 8#4

def symN (a b : Sym) : Sym := symMul a a ^^^ symMul a b ^^^ symMul symW3 (symMul b b)

structure Syndrome where
  s0 : Sym
  s1 : Sym
  s2 : Sym
  s3 : Sym
  deriving DecidableEq, Repr

/-- The column H_j of R347. -/
def symCol (j : Nat) : Syndrome :=
  if j < 32 then
    let a := BitVec.ofNat 4 j
    let b := BitVec.ofNat 4 (2 + j / 16)
    ⟨1, a, b, symN a b⟩
  else if j = 32 then ⟨1, 0, 0, 0⟩
  else if j = 33 then ⟨0, 0, 0, 1⟩
  else if j = 34 then ⟨1, 1, 0, 1⟩
  else ⟨1, 0, 1, symW3⟩

def Syndrome.scale (e : Sym) (h : Syndrome) : Syndrome :=
  ⟨symMul e h.s0, symMul e h.s1, symMul e h.s2, symMul e h.s3⟩

def Syndrome.add (x y : Syndrome) : Syndrome :=
  ⟨x.s0 ^^^ y.s0, x.s1 ^^^ y.s1, x.s2 ^^^ y.s2, x.s3 ^^^ y.s3⟩

/-- S as the 16-bit detail of a fault record, S_0 in the low symbol. -/
def Syndrome.word (x : Syndrome) : Nat :=
  x.s0.toNat + 16 * x.s1.toNat + 256 * x.s2.toNat + 4096 * x.s3.toNat

/-- The sum of the data symbols' columns, T of R348. -/
def symT : Nat → BitVec 128 → Syndrome
  | 0, _ => ⟨0, 0, 0, 0⟩
  | j + 1, d => (symT j d).add ((symCol j).scale (fld d (4 * j) 4))

/-- The 16 check bits of 128 data bits, c_32 lowest (R348). -/
def checkBits (d : BitVec 128) : BitVec 16 :=
  let t := symT 32 d
  ((t.s3 ^^^ t.s1 ^^^ symMul symW3 t.s2) ++ (t.s0 ^^^ t.s1 ^^^ t.s2) : BitVec 8).setWidth 16 |||
    ((t.s2 ++ t.s1 : BitVec 8).setWidth 16 <<< 8)

/-- The syndrome of a codeword whose check bits differ from the proper ones by `r`; the data part
cancels, since the code is linear. -/
def syndromeOf (r : BitVec 16) : Syndrome :=
  let c32 := fld r 0 4
  let c33 := fld r 4 4
  let c34 := fld r 8 4
  let c35 := fld r 12 4
  ⟨c32 ^^^ c34 ^^^ c35, c34, c35, c33 ^^^ c34 ^^^ symMul symW3 c35⟩

/-- The symbol and the error of a single-symbol syndrome, searched among the first `n` columns. -/
def symbolError (s : Syndrome) : Nat → Option (Nat × Sym)
  | 0 => none
  | j + 1 =>
    match symbolError s j with
    | some r => some r
    | none =>
      let e := if j = 33 then s.s3 else s.s0
      if e ≠ 0 && (symCol j).scale e = s then some (j, e) else none

/-- `k` codewords side by side: their data bits, the difference of their stored check bits from the
proper ones (all zero when each word is a codeword), and their poison bits (R350). -/
structure Coded (k : Nat) where
  data : BitVec (128 * k)
  resid : BitVec (16 * k)
  poison : BitVec k
  deriving DecidableEq, Repr

/-- Freshly encoded data (R348). -/
def Coded.ofData {k : Nat} (d : BitVec (128 * k)) : Coded k := ⟨d, 0, 0⟩

def Coded.zero {k : Nat} : Coded k := ⟨0, 0, 0⟩

/-- Data with every codeword poisoned. -/
def Coded.poisonAll {k : Nat} (c : Coded k) : Coded k := { c with poison := BitVec.allOnes k }

def Coded.clean {k : Nat} (c : Coded k) : Bool := decide (c.resid = 0) && decide (c.poison = 0)

/-- What a check found: codewords corrected, codewords newly found uncorrectable, the lowest word
that carries poison after the check, whether that word was uncorrectable just now, and its
syndrome. -/
structure Checked where
  ce : Nat
  ue : Nat
  bad : Option (Nat × Bool × Nat)
  deriving DecidableEq, Repr

def checkWord {k : Nat} (c : Coded k) (i : Nat) : Coded k × Checked :=
  let r := fld c.resid (16 * i) 16
  let s := syndromeOf r
  if bitAt c.poison i then (c, ⟨0, 0, some (i, false, s.word)⟩)
  else if r = 0 then (c, ⟨0, 0, none⟩)
  else
    match symbolError s 36 with
    | some (j, e) =>
      let d := if j < 32 then c.data ^^^ (e.setWidth (128 * k) <<< (128 * i + 4 * j)) else c.data
      (⟨d, setFld c.resid (16 * i) 16 0, c.poison⟩, ⟨1, 0, none⟩)
    | none => ({ c with poison := setBit c.poison i true }, ⟨0, 1, some (i, true, s.word)⟩)

def checkWords {k : Nat} : Nat → Coded k → Coded k × Checked
  | 0, c => (c, ⟨0, 0, none⟩)
  | n + 1, c =>
    let p := checkWords n c
    let q := checkWord p.1 n
    (q.1, ⟨p.2.ce + q.2.ce, p.2.ue + q.2.ue, match p.2.bad with | some b => some b | none => q.2.bad⟩)

/-- A checking unit's decoding of R349: single-symbol errors corrected, uncorrectable codewords
poisoned and left as found, poisoned ones left alone. -/
def Coded.check {k : Nat} (c : Coded k) : Coded k × Checked :=
  if c.clean then (c, ⟨0, 0, none⟩) else checkWords k c

/-- Codewords `i` to `i + n - 1` of a group. -/
def Coded.part {k : Nat} (c : Coded k) (i n : Nat) : Coded n :=
  ⟨fld c.data (128 * i) (128 * n), fld c.resid (16 * i) (16 * n), fld c.poison i n⟩

/-- The group with codewords `i` to `i + n - 1` replaced. -/
def Coded.setPart {k n : Nat} (c : Coded k) (i : Nat) (p : Coded n) : Coded k :=
  ⟨setFld c.data (128 * i) (128 * n) p.data, setFld c.resid (16 * i) (16 * n) p.resid,
   setFld c.poison i n p.poison⟩

/-- A scratchpad line: 1,024 bits, eight codewords. -/
abbrev Line := Coded 8
/-- A queue or link beat: 512 bits, four codewords. -/
abbrev Beat := Coded 4
/-- A bundle: 256 bits, two codewords. -/
abbrev Bundle := Coded 2

end Sys2Proof
end

