-- ==== Sys2Proof/Machine/Ecdsa.lean ====
section
/-! DEFINITION. Deterministic ECDSA on P-521 over SHA-512 (R268, R479, R484, R486): the curve of SP 800-186, the
nonce of FIPS 186-5 appendix A.3.3 from HMAC_DRBG, private keys from seeds and public keys. -/
namespace Sys2Proof

/-! ### The curve -/

def ecP : Nat := 2 ^ 521 - 1

/-- The order of the group. -/
def ecN : Nat :=
  2 ^ 521 - 2 ^ 260 + 0xA51868783BF2F966B7FCC0148F709A5D03BB5C9B8899C47AEBB6FB71E91386409

/-- The base point. -/
def ecGx : Nat :=
  0xC6858E06B70404E9CD9E3ECB662395B4429C648139053FB521F828AF606B4D3D * 2 ^ 264 +
    0xBAA14B5E77EFE75928FE1DC127A2FFA8DE3348B3C1856A429BF97E7E31C2E5BD66
def ecGy : Nat :=
  0x11839296A789A3BC0045C8A5FB42C7D1BD998F54449579B446817AFBD17273E66 * 2 ^ 264 +
    0x2C97EE72995EF42640C550B9013FAD0761353C7086A272C24088BE94769FD16650

def ecAdd (a b : Nat) : Nat := (a + b) % ecP
def ecSub (a b : Nat) : Nat := (a + ecP - b % ecP) % ecP
def ecMul (a b : Nat) : Nat := a * b % ecP

/-- `a` to the power `e` modulo `m`, for `e` below 2^fuel. -/
def powMod (m : Nat) : Nat → Nat → Nat → Nat
  | 0, _, _ => 1 % m
  | fuel + 1, a, e =>
    let r := powMod m fuel (a * a % m) (e / 2)
    if e % 2 = 1 then a * r % m else r

/-- The inverse modulo a prime below 2^521. -/
def invMod (m a : Nat) : Nat := powMod m 521 (a % m) (m - 2)

/-- A point (X / Z^2, Y / Z^3); Z = 0 is the point at infinity. -/
structure EcPoint where
  x : Nat
  y : Nat
  z : Nat
  deriving DecidableEq, Repr

def ecZero : EcPoint := ⟨1, 1, 0⟩
def ecBase : EcPoint := ⟨ecGx, ecGy, 1⟩

/-- Twice a point; the curve is y^2 = x^3 - 3 x + b. -/
def EcPoint.double (p : EcPoint) : EcPoint :=
  if p.z = 0 || p.y = 0 then ecZero
  else
    let yy := ecMul p.y p.y
    let s := ecMul 4 (ecMul p.x yy)
    let zz := ecMul p.z p.z
    let m := ecMul 3 (ecMul (ecSub p.x zz) (ecAdd p.x zz))
    let x := ecSub (ecMul m m) (2 * s)
    ⟨x, ecSub (ecMul m (ecSub s x)) (8 * ecMul yy yy), ecMul 2 (ecMul p.y p.z)⟩

def EcPoint.add (p q : EcPoint) : EcPoint :=
  if p.z = 0 then q
  else if q.z = 0 then p
  else
    let pp := ecMul p.z p.z
    let qq := ecMul q.z q.z
    let u := ecMul p.x qq
    let s := ecMul p.y (ecMul q.z qq)
    let h := ecSub (ecMul q.x pp) u
    let r := ecSub (ecMul q.y (ecMul p.z pp)) s
    if h = 0 then if r = 0 then p.double else ecZero
    else
      let hh := ecMul h h
      let hhh := ecMul h hh
      let v := ecMul u hh
      let x := ecSub (ecSub (ecMul r r) hhh) (2 * v)
      ⟨x, ecSub (ecMul r (ecSub v x)) (ecMul s hhh), ecMul h (ecMul p.z q.z)⟩

/-- `k` times a point, by the low `bits` bits of `k`, the highest first. -/
def EcPoint.times (p : EcPoint) (k : Nat) : Nat → EcPoint → EcPoint
  | 0, acc => acc
  | bits + 1, acc =>
    let acc := acc.double
    EcPoint.times p k bits (if k.testBit bits then acc.add p else acc)

/-- The affine coordinates. -/
def EcPoint.affine (p : EcPoint) : Nat × Nat :=
  let i := invMod ecP p.z
  let ii := ecMul i i
  (ecMul p.x ii, ecMul p.y (ecMul i ii))

/-- `k` times the base point. -/
def ecPoint (k : Nat) : Nat × Nat := (EcPoint.times ecBase k 521 ecZero).affine

/-! ### Keys (R484, R497) -/

/-- The private key of a 1,024-bit seed, from its first 640 bits. -/
def ecKey (seed : List Byte) : Nat := ofBytesBE (seed.take 80) % (ecN - 1) + 1

/-- The public key as an uncompressed point. -/
def ecPublic (seed : List Byte) : List Byte :=
  let q := ecPoint (ecKey seed)
  0x04 :: bytesBE 66 q.1 ++ bytesBE 66 q.2

/-! ### Signing (FIPS 186-5) -/

/-- HMAC_DRBG's state. -/
structure HmacDrbg where
  key : List Byte
  v : List Byte
  deriving DecidableEq, Repr

def HmacDrbg.update (g : HmacDrbg) (data : List Byte) : HmacDrbg :=
  let step := fun (g : HmacDrbg) (b : Byte) =>
    let k := hmacSha512 g.key (g.v ++ b :: data)
    (⟨k, hmacSha512 k g.v⟩ : HmacDrbg)
  step (step g 0) 1

/-- The next 521 bits and the state after them. -/
def HmacDrbg.next (g : HmacDrbg) : Nat × HmacDrbg :=
  let v1 := hmacSha512 g.key g.v
  let v2 := hmacSha512 g.key v1
  (ofBytesBE ((v1 ++ v2).take 66) / 2 ^ 7, ⟨g.key, v2⟩)

/-- A signature with the first nonce that gives one; a nonce outside the group is passed over. -/
def ecTry (d z : Nat) : Nat → HmacDrbg → Nat × Nat
  | 0, _ => (0, 0)
  | fuel + 1, g =>
    let n := g.next
    let k := n.1
    let again := let k' := hmacSha512 n.2.key (n.2.v ++ [0]); (⟨k', hmacSha512 k' n.2.v⟩ : HmacDrbg)
    if k = 0 || ecN ≤ k then ecTry d z fuel again
    else
      let r := (ecPoint k).1 % ecN
      let s := invMod ecN k * (z + r * d) % ecN
      if r = 0 || s = 0 then ecTry d z fuel again else (r, s)

/-- r and s of a message under the key of a seed. -/
def ecdsaSign (seed msg : List Byte) : Nat × Nat :=
  let d := ecKey seed
  let h := sha512Bytes msg
  let z := ofBytesBE h
  let g : HmacDrbg := ⟨List.replicate 64 0, List.replicate 64 1⟩
  ecTry d z 64 (g.update (bytesBE 66 d ++ bytesBE 66 z))

/-! ### Verifying (FIPS 186-5) -/

/-- Whether r and s sign a hash under the public key `q` (R479). -/
def ecdsaVerify (q : Nat × Nat) (hash : List Byte) (r s : Nat) : Bool :=
  if r = 0 || s = 0 || ecN ≤ r || ecN ≤ s then false
  else
    let w := invMod ecN s
    let p := (EcPoint.times ecBase (ofBytesBE hash * w % ecN) 521 ecZero).add
      (EcPoint.times ⟨q.1, q.2, 1⟩ (r * w % ecN) 521 ecZero)
    p.z ≠ 0 && p.affine.1 % ecN = r

end Sys2Proof
end

