-- ==== Sys2Proof/Config.lean ====
section
/-! DEFINITION. What the spec leaves open: values of the part's secrets, of its entropy and of the
signature scheme it names but does not define, and the values that stay unstated. None has a body, so
no proof can use a value of it. -/
namespace Sys2Proof

/-- The DRBG output of draw `n` (R487, R488). -/
opaque Config.entropy : Nat → BitVec 256

/-- A value that the spec leaves unstated, draw `n`. -/
opaque Config.freeValue : Nat → BitVec 64

/-- Whether 0 × ∞ + quiet NaN sets invalid, which IEEE 754 leaves to the implementation (R152). -/
opaque Config.fmaZeroInf : Bool

/-- The unique device secret (R484). -/
opaque Config.uds : BitVec 512

/-- The public key of firmware signing key `k`, as affine coordinates (R479). -/
opaque Config.fwKey : Nat → Nat × Nat

/-- The alias certificate in DER for an alias seed, signed by a device seed, with M_1 to M_17 (R485). -/
opaque Config.aliasCert : List (BitVec 8) → List (BitVec 8) → List (BitVec 8) → List (BitVec 8)

/-- The intermediate and DeviceID certificates in DER (R485). -/
opaque Config.deviceCerts : List (BitVec 8)

/-- Whether the flash copies of the DeviceID certificate are intact (R485). -/
opaque Config.certIntact : Bool

/-- SHA-512 of the boot ROM, measurement 1 (R492). -/
opaque Config.romMeasure : BitVec 512

/-- The Vendor ID that Gethaga holds (R436). -/
opaque Config.vendorId : BitVec 16

/-- The answer of the configuration space at an offset that the spec does not lay out, from the value
last written there (R436, R447). -/
opaque Config.configSpace : Nat → BitVec 32 → BitVec 32

/-- The configuration-space offset of the MSI-X capability (R425, R447). -/
opaque Config.msixCap : Nat

/-- The configuration-space offset of the PCI Express capability, and of the CXL device DVSEC (R436). -/
opaque Config.pcieCap : Nat
opaque Config.cxlDvsec : Nat

/-- The CDAT entry of a given handle, by the grade, but for the ranges of the stacks (R440, R446). -/
opaque Config.cdatEntry : Bool → Nat → List (BitVec 8)

/-- The CXL Compliance response to a request (R446). -/
opaque Config.complianceReply : List (BitVec 8) → List (BitVec 8)

/-- The key share and keys of an SPDM key exchange, from a draw and the requester's share (R495). -/
opaque Config.ecdheReply : Nat → List (BitVec 8) → List (BitVec 8)

/-- What the checks of R231 that need the data of scratchpad lines (index tables and strand
configurations) find in a block of a variant: nothing, or the cell, bundle and reason of the first
failure. -/
opaque Config.verifierData : Image → Nat → Nat → Option (CellId × Nat × Nat)

/-- Whether a block overwrites none of the lines and none of the memory that it reads before (R257),
where only running it shows that. -/
opaque Config.replayable : Image → Nat → Nat → Bool

/-- The ticks after which a management core's MSEND raises SEND_STALL: R294 names only `CHn_MSGCTL`, which is a
channel's. -/
opaque Config.mgmtStallLimit : Nat

/-- The bytes that a channel's own state takes in a save slot, which the spec gives only about (R362). -/
opaque Config.channelPart : Nat

/-- The check-column entry of a weight row that holds a NaN, an infinity or an invalid scale, which
R246 does not state, from the row's weights and scales. -/
opaque Config.badRowCheck : Nat → Nat → Nat × Nat

end Sys2Proof
end

