-- ==== Sys2Proof/Machine/Smap.lean ====
section
/-! DEFINITION. The operations of the sparse map: reading a key, and writing one. `Smap.put`
keeps the canonical form in which no entry equals what an unlisted key reads as; `Smap.upsert`
keeps the order of the keys only. -/
namespace Sys2Proof

variable {α : Type}

def Smap.find? : Smap α → Nat → Option α
  | [], _ => none
  | (k, v) :: m, a => if a = k then some v else if a < k then none else Smap.find? m a

/-- What the key reads as: its entry, or the default. -/
def Smap.get (d : α) (m : Smap α) (a : Nat) : α :=
  match Smap.find? m a with
  | some v => v
  | none => d

def Smap.erase : Smap α → Nat → Smap α
  | [], _ => []
  | (k, v) :: m, a => if a = k then m else if a < k then (k, v) :: m else (k, v) :: Smap.erase m a

def Smap.upsert : Smap α → Nat → α → Smap α
  | [], a, w => [(a, w)]
  | (k, v) :: m, a, w =>
    if a = k then (a, w) :: m
    else if a < k then (a, w) :: (k, v) :: m
    else (k, v) :: Smap.upsert m a w

/-- Write a key, dropping the entry when the value is what an unlisted key reads as. -/
def Smap.put [DecidableEq α] (d : α) (m : Smap α) (a : Nat) (w : α) : Smap α :=
  if w = d then Smap.erase m a else Smap.upsert m a w

/-- The keys rise strictly from above `lo` on. -/
def Smap.risingFrom : Nat → Smap α → Bool
  | _, [] => true
  | lo, (k, _) :: m => decide (lo ≤ k) && Smap.risingFrom (k + 1) m

/-- The canonical form: keys strictly rising, no entry equal to the default. -/
def Smap.wf [DecidableEq α] (d : α) (m : Smap α) : Bool :=
  Smap.risingFrom 0 m && m.all (fun e => decide (e.2 ≠ d))

/-- A set of numbers, strictly rising. -/
def insertNat : List Nat → Nat → List Nat
  | [], a => [a]
  | k :: m, a => if a = k then k :: m else if a < k then a :: k :: m else k :: insertNat m a

end Sys2Proof
end

