-- ==== Sys2Proof/Machine/State.lean ====
section
/-! DEFINITION. The state of the part: plain data that holds every register, queue, buffer, mode and
pin the spec names, grouped by the chapter that names it, and the queue of waiting commands. Times of
the compute side are counts of compute cycles (`cy`, R10); times of the part are tick boundaries. -/
namespace Sys2Proof.Machine

/-- Reasons the machine stops. -/
inductive Fault where
  /-- Raised by no meaning: what names a unit that the grade lacks does nothing (R3). Safe. -/
  | unitAbsent
  deriving DecidableEq, Repr

/-- Reasons a command has no meaning. -/
inductive Refusal where
  /-- Raised by no meaning: the name of a row not modelled. Safe. -/
  | notModelled (mnemonic : String)
  deriving DecidableEq, Repr

/-! ### Memories -/

/-- A byte memory guarded by the data code (R306, R350): bytes, and for each 16-byte codeword the
difference of its check bytes from the proper ones, and the poisoned codewords. All unlisted bytes,
differences and marks are 0. -/
structure Mem where
  bytes : Smap Byte
  resid : Smap W16
  poison : List Nat
  deriving DecidableEq, Repr

def Mem.empty : Mem := ⟨[], [], []⟩

/-- Host memory as DMA reaches it (R34), with the 4 KiB pages whose DMA fails (R393), and the posted writes
that the I/O die keeps while the link is down (R439). -/
structure HostMem where
  bytes : Smap Byte
  bad : List Nat
  posted : List (Nat × Byte)
  deriving DecidableEq, Repr

/-! ### Cells (03, 04, 05, 06) -/

/-- A queue entry: a beat and its 3-bit tag (R67). -/
structure QEntry where
  beat : Beat
  tag : BitVec 3
  deriving DecidableEq, Repr

/-- 32 lanes of 32 bits. -/
abbrev Row := Vector W32 32

/-- A shutter bank (R114 to R119, R246): row pairs, scale row, written mask with the scale bit at 8,
recorded weight format, the cycle from which it is complete, and the check column's entries: a
residue, or two binary64 words, for each weight row. -/
structure Bank where
  rows : Vector Beat 8
  scale : Bundle
  written : BitVec 9
  wfmt : Option (BitVec 4)
  readyAt : Nat
  checks : Vector (Nat × Nat) 32
  deriving DecidableEq, Repr

/-- An open counted loop (R180): first and last bundle of its body, iterations left after this one,
and its index. -/
structure Loop where
  first : Nat
  last : Nat
  left : Nat
  index : Nat
  deriving DecidableEq, Repr

/-- The bundle a sequencer issued last: its words, where it lay, the loop indices in force, the cycle
of issue, and the slots that have acted (MX, VX, LS, RT, CT from bit 0). -/
structure Latched where
  word : BitVec 256
  addr : Nat
  page : Bool
  i0 : Nat
  i1 : Nat
  i2 : Nat
  at_ : Nat
  done : BitVec 5
  deriving DecidableEq, Repr

/-- A cell sequencer (R170, R180 to R185): whether it runs, whether a fault stopped it, whether IDLE
holds it, page and next address, open loops from the innermost, the cycle in which it may issue next,
the barrier it waits for, and the bundle issued last. -/
structure Seq where
  running : Bool
  stopped : Bool
  idle : Bool
  page : Bool
  addr : Nat
  loops : List Loop
  nextAt : Nat
  waitGroup : Option Nat
  cur : Option Latched
  deriving DecidableEq, Repr

structure Cell where
  pad : Smap Line
  qin : Vector (List QEntry) 8
  qout : Vector (List QEntry) 8
  qinPop : BitVec 8
  qoutPop : BitVec 8
  pushCtr : Vector (BitVec 3) 8
  page0 : Smap Bundle
  page1 : Smap Bundle
  bankA : Bank
  bankB : Bank
  activeB : Bool
  cfg : W64
  index : BitVec 1024
  actBuf : Option Line
  scaleBuf : Option Line
  halfAt : Option Nat
  tiles : Smap Row
  masks : Vector W32 8
  bc : Vector W32 8
  flags : BitVec 8
  seq : Seq
  deriving DecidableEq, Repr

/-- What a sum-lane beat carries (R128, R247, R350): 32 sums, the check differences and poison bits of the 24
codewords that hold them (sum n in bits [96n + 95:96n]), the LOSS, OVER and INVALID bits, bank parity,
class, window and scale offset of the open cell, the check lane (residue, or the binary64 words E and
A), and the number of multiplying cells so far. -/
structure SumBeat where
  sums : List Int
  resid : BitVec 384
  poison : BitVec 24
  loss : W32
  overs : W32
  invalid : W32
  parity : Bool
  cls : Nat
  win : BitVec 7
  soff : BitVec 9
  check : Nat
  checkA : Nat
  cells : Nat
  deriving DecidableEq, Repr

/-- Where an arriving beat enters a router (R85), and an edge drain port (R89). -/
inductive Port where
  | north
  | east
  | south
  | west
  | lend (lane : Bool)
  | drain
  deriving DecidableEq, Repr

/-- A beat on a link: the cycle of its arrival, the cell (or, for a lend lane, any cell of row 0; for
a drain, the column), and the port. -/
structure LinkBeat where
  at_ : Nat
  cell : Nat
  port : Port
  entry : QEntry
  deriving DecidableEq, Repr

structure SumOnLane where
  at_ : Nat
  cell : Nat
  beat : SumBeat
  taken : Bool
  deriving DecidableEq, Repr

/-- A change that a cell operation brings about at the end of a later cycle (R145, R194). -/
inductive CellEffect where
  | line (addr : Nat) (v : Line)
  | half (addr : Nat) (hi : Bool) (v : Beat)
  | tile (row : Nat) (v : Row)
  | mask (n : Nat) (v : W32)
  | push (q : Nat) (v : Beat)
  | arrive (q : Nat) (v : QEntry)
  | flags (v : BitVec 8)
  | index (v : BitVec 1024)
  | config (v : W64)
  | swap
  deriving DecidableEq, Repr

structure Due where
  at_ : Nat
  cell : Nat
  unit_ : Nat
  srctag : Nat
  addr : Nat
  page : Nat
  idx : W64
  effect : CellEffect
  deriving DecidableEq, Repr

/-! ### Barriers, flags, sync counters and messages (03, 09) -/

/-- A barrier group (R90 to R93): members (2,560 is the control core), set latches, and the release
cycle once complete. -/
structure Barrier where
  members : List Nat
  latched : List Nat
  releaseAt : Option Nat
  deriving DecidableEq, Repr

/-- A flag tree (R94): members, members whose contribution is set, and the past values of the
contributions' OR and AND by the cycle at whose end they stood, newest first. -/
structure FlagTree where
  members : List Nat
  set_ : List Nat
  history : List (Nat × Bool × Bool)
  deriving DecidableEq, Repr

inductive SyncKind where
  | set (v : W32)
  | signal
  | take
  | read (d : BitVec 5)
  | wait
  deriving DecidableEq, Repr

/-- The issuer of a counter operation (R283): an endpoint, or a cell of a channel. -/
inductive SyncSrc where
  | endpoint (e : Nat)
  | cell (c : Nat) (k : Nat)
  deriving DecidableEq, Repr

/-- A counter operation under way (R282): arrival cycle, counter, kind, count, issuer, and for its
faults the issue's block cycle and bundle. -/
structure SyncOp where
  at_ : Nat
  counter : Nat
  kind : SyncKind
  n : Nat
  src : SyncSrc
  cycleOff : Nat
  bundle : Nat
  srctag : Nat
  deriving DecidableEq, Repr

structure SyncWait where
  endpoint : Nat
  counter : Nat
  n : Nat
  latency : Nat
  deriving DecidableEq, Repr

/-- A message (R289). -/
structure Msg where
  src : Byte
  dst : Byte
  tag : W16
  payload : Bundle
  deriving DecidableEq, Repr

/-- What the sync fabric and the message network know of a management core (R279, R282, R285, R294): the address of
the instruction that waits, a message that waits for room with the ticks it has waited, whether its stall is
recorded, whether a SWAIT waits, the cycle in which it goes on, and what its last SRD gives and when. -/
structure MgmtCore where
  pc : Nat
  sending : Option Msg
  sendTicks : Nat
  stallRaised : Bool
  waiting : Bool
  readyAt : Nat
  readBack : Option (W64 × Nat)
  deriving DecidableEq, Repr

/-- The sync fabric: the counters' counts (R278), operations under way, pending waits (R286), and the management
cores. -/
structure SyncFab where
  counts : Smap W32
  ops : List SyncOp
  waits : List SyncWait
  mgmt : Vector MgmtCore 4
  deriving DecidableEq, Repr

/-- An endpoint's outbound port, the input of its inbox, its inbox, and whether the port is open
(R290, R291, R295); DISC counts for a management core (R304). -/
structure MsgPort where
  out : List Msg
  input : Option Msg
  inbox : List Msg
  isOpen : Bool
  disc : W64
  deriving DecidableEq, Repr

/-! ### Streams (10) -/

/-- A stream (R324): descriptor index and need sequence, the next beat to request, the next to
deliver (or to write), whether a descriptor fault has ended its requests, and the beats it has left when
a replayed block is to cancel it after them (R258). -/
structure Strm where
  desc : Nat
  need : W64
  next : Nat
  delivered : Nat
  dead : Bool
  upTo : Option Nat
  deriving DecidableEq, Repr

/-- Where an element lies: its bytes in order, each in host memory or in HDM, the nibble for a half-byte
format, and whether the index value that led there was poisoned. -/
structure Loc where
  bytes : List (Bool × Nat)
  nibble : Option Bool
  poison : Bool
  deriving DecidableEq, Repr

/-- A read under way: its stream's position, the places of its elements, or a read dropped by a
cancel. -/
structure ReadOp where
  pos : Nat
  width : Nat
  locs : List Loc
  dropped : Bool
  shared : Bool
  deriving DecidableEq, Repr

/-- A beat in a stream queue, with the stream and the position it came from (R343). -/
structure SBeat where
  entry : QEntry
  desc : Nat
  need : W64
  pos : Nat
  upTo : Option Nat
  deriving DecidableEq, Repr

structure StreamQ where
  beats : List SBeat
  arrived : Smap Beat
  cur : Option Strm
  pend : List Strm
  reads : List ReadOp
  cap : Nat
  halted : Bool
  cause : BitVec 3
  haltVA : Nat
  deriving DecidableEq, Repr

/-- A beat waiting in a drain queue, with its tag (R321) and the block that pushed it. -/
structure DBeat where
  beat : Beat
  tag : BitVec 3
  block : W64
  deriving DecidableEq, Repr

structure DrainQ where
  beats : List DBeat
  cur : Option Strm
  pend : List Strm
  cap : Nat
  halted : Bool
  cause : BitVec 3
  haltVA : Nat
  deriving DecidableEq, Repr

/-! ### Control core (06) -/

/-- What a control core waits for. -/
inductive CoreWait where
  | none
  | counter (latency : Nat)
  | send (m : Msg)
  | recv (addr : Nat) (filter : W64) (d : BitVec 5)
  | gate (index : Nat) (d : BitVec 5)
  | sopen (desc : Nat) (need : W64)
  | scancel (q : Nat)
  | wicket (write : Bool) (addr len : Nat) (va : Nat) (d : BitVec 5)
  deriving DecidableEq, Repr

structure Core where
  regs : Vector W64 32
  pc : Nat
  imem : Mem
  dmem : Mem
  started : Bool
  returned : Bool
  dead : Bool
  wait : CoreWait
  readyAt : Nat
  readBack : Option (BitVec 5 × W64 × Nat)
  waitTicks : Nat
  sendTicks : Nat
  waitLong : Bool
  stallRaised : Bool
  evin : Byte
  bcasts : List (Nat × Byte × W32)
  landAt : Nat
  deriving DecidableEq, Repr

/-! ### Blocks and gates (07, 08) -/

/-- The channel's state in `CHn_GATESTAT` (R244). -/
inductive ChState where
  | noImage
  | loaded
  | running
  | gate
  | stopped
  | held
  | retired
  deriving DecidableEq, Repr

/-- The place inside a gate (R218): steps 1 to 7, step 8, step 9, waiting for GATE, the gate check,
the release delay up to a cycle. -/
inductive GatePhase where
  | none
  | closing
  | saving
  | slack
  | waitGate
  | opening
  | delay (release : Nat)
  deriving DecidableEq, Repr

/-- The pending part of the next block record (R262, R264). -/
structure Pending where
  folded : Nat
  digest : W128
  checked : W64
  unchecked : W64
  deriving DecidableEq, Repr

/-- What a replay restores (R258), taken in the opening phase. -/
structure CellSnap where
  pushCtr : Vector (BitVec 3) 8
  activeB : Bool
  writtenA : BitVec 9
  writtenB : BitVec 9
  index : BitVec 1024
  bc : Vector W32 8
  flags : BitVec 8
  deriving DecidableEq, Repr

structure StreamSnap where
  streams : List (Nat × List Strm)
  drains : List (Nat × List Strm)
  deriving DecidableEq, Repr

structure Replay where
  cells : Smap CellSnap
  streams : StreamSnap
  deriving DecidableEq, Repr

structure Gate where
  st : ChState
  phase : GatePhase
  seq : W64
  lastSeq : W64
  highest : Option W64
  rerunTo : Option W64
  floor : Nat
  attempt : Nat
  attemptMax : Nat
  attemptPrev : Nat
  block : Option (BitVec 512)
  blockIdx : Nat
  next : Option (BitVec 512)
  nextIdx : Nat
  releaseCy : Nat
  ready : Bool
  stopCause : BitVec 3
  stopNow : Bool
  halted : Bool
  faulted : Bool
  saved : Bool
  saveMissed : Bool
  restarted : Bool
  slackPassed : Bool
  resetDue : Bool
  inReset : Option Nat
  openTicks : Nat
  longSaid : Bool
  logFrom : W64
  ledgerBase : Vector W64 18
  interval : Option (Vector W64 18 × BitVec 512)
  firsts : List (Nat × Nat × Nat)
  faults : List (Nat × Nat × Nat × W64)
  parts : Smap W128
  checkedLanes : W64
  uncheckedLanes : W64
  replay : Option Replay
  deriving DecidableEq, Repr

/-- The registers of a CHn_ block that are counters or controls (R105, R166, R244, R275, R303, R344,
R378, R519). -/
structure ChRegs where
  out0 : BitVec 7
  out0Failed : Bool
  out1 : BitVec 7
  out1Failed : Bool
  substCount : BitVec 4
  seamDrop : W16
  midDrop : W16
  tagFaults : W16
  queueFaults : W16
  gateOr : Byte
  runOr : Byte
  clearNext : Bool
  clearEvery : Bool
  cycles : W64
  stopAfter : W64
  gateMark : W64
  gwStream : W64
  gwDrain : W64
  gwCode : W64
  gwMark : W64
  gwHold : W64
  gwOther : W64
  gwCy : W64
  gwLim : W32
  deriving DecidableEq, Repr

structure ChRegs2 where
  tallyChk : W64
  tallyUnchk : W64
  replays : W16
  replayFails : W16
  pairMember : Bool
  pairRing : W64
  pairProduced : W64
  pairConsumed : W64
  ringFull : Bool
  digRecs : W64
  rollDisc : W64
  stallLimit : W32
  waitLong : Bool
  waitLim : W32
  ahead : BitVec 4
  rollbacks : W16
  newestB : Bool
  aValid : Bool
  bValid : Bool
  reproduced : Bool
  saveSeq : W64
  ce : W64
  ue : W64
  ceCol : Smap W32
  slackEntered : Bool
  slackWaiting : Bool
  fwDue : Bool
  slackWindows : W16
  deriving DecidableEq, Repr

/-- The digest chain and ring of a channel (R264): the hashed parts of the segment's records in
order, the ring of 65,536 records and its position, and counts of the segment. -/
structure Chain where
  parts : List (BitVec 384)
  ring : Smap (BitVec 512)
  ringPos : Nat
  pend : Pending
  segChecked : W64
  segUnchecked : W64
  segRecords : W64
  deriving DecidableEq, Repr

/-- A channel: its cells by number 80 × y + x, links, edge-plan runs that acted in this cycle, trees,
queues, core, gate and registers. -/
structure Chan where
  cells : Smap Cell
  links : List LinkBeat
  sums : List SumOnLane
  dues : List Due
  drainOut : List (Nat × Nat × QEntry)
  lends : List LinkBeat
  edgeDone : List Nat
  barriers : Smap Barrier
  trees : Smap FlagTree
  core : Core
  gate : Gate
  sq : Vector StreamQ 64
  dq : Vector DrainQ 32
  ledger : Vector W64 18
  resident : Smap Nat
  chain : Chain
  regs : ChRegs
  regs2 : ChRegs2
  deriving DecidableEq, Repr

/-! ### Save points (11) -/

/-- One byte that a unit of the part writes to HDM: the bits it writes, and of the codeword they come from
the poison, its number at the source, the nibble they held in it, and its check difference. -/
structure ByteWrite where
  addr : Nat
  mask : Byte
  val : Byte
  poison : Bool
  word : Nat
  lane : Nat
  resid : W16
  deriving DecidableEq, Repr

/-- A channel's part of a save point (R362, R343, R264): the slot's contents and header; `saveSet` is
the copy of the save set by virtual address. -/
structure Slot where
  complete : Bool
  number : W64
  tick : W64
  seq : W64
  meas : BitVec 512
  cells : Smap Cell
  counts : Smap W32
  ledger : Vector W64 18
  credits : Nat
  inbox : List Msg
  sq : List (List Strm)
  dq : List (List Strm)
  chain : Chain
  accum : Smap W128
  seals : Nat
  tallyChk : W64
  tallyUnchk : W64
  digRecs : W64
  regs : Vector W64 32
  pc : Nat
  dmem : Mem
  waiting : CoreWait
  started : Bool
  saveSet : List ByteWrite
  poisoned : Bool
  deriving DecidableEq, Repr

/-! ### The part -/

/-- A memory-side die: the registers of R346 and R378, the Breakwater lines it holds and the lines its
snoop filter lists (both by set, most recently used first), and the pages and entries that each engine's
translation cache holds, most recently used first; engine 16 is the wicket far end. -/
structure MsdRegs where
  trained : Bool
  retraining : Bool
  ringOk : Bool
  retrainDue : Bool
  bwEnable : Bool
  bwHit : W64
  bwMiss : W64
  bwAlloc : W64
  bwInval : W64
  refresh : W64
  relay : W64
  wicket : W64
  retryCa : W32
  retryWdata : W32
  ce : W64
  ue : W64
  ceWindow : W32
  scrubPeriod : Byte
  bwLines : Smap (List Nat)
  tcache : Smap (List (Nat × W64))
  snoop : Smap (List Nat)
  deriving DecidableEq, Repr

/-- A write of one of the part's units that waits for back-invalidates (R444): its owner (7 a save set
copied back, 8 firmware, 9 the journal), the 64-byte lines awaited, and what it writes. -/
structure HeldWrite where
  owner : Nat
  lines : List Nat
  writes : List ByteWrite
  deriving DecidableEq, Repr

/-- The memory side (10): HDM by HDM offset (R440), window table (R309) with held low words (R310),
tensor descriptors (R314), the memory-side dies, and writes held for a snoop. -/
structure MemSide where
  hdm : Mem
  wtab : Smap W64
  wtabLow : Smap W32
  flushing : Bool
  tdt : Smap (BitVec 512)
  msd : Vector MsdRegs 8
  heldWrites : List HeldWrite
  snooping : List Nat
  deriving DecidableEq, Repr

/-- A tide order slot (R51, R64). -/
structure Order where
  typ : Byte
  target : Byte
  id : W32
  mark : W64
  arg : W64
  deriving DecidableEq, Repr

structure Tide where
  count : W64
  role : BitVec 2
  eligible : Bool
  addr : Byte
  locked : Bool
  loss : Bool
  hold : Bool
  ahead : Bool
  driving : Bool
  handoverFail : Bool
  lateOrder : Bool
  lineDelay : BitVec 10
  alignTarget : BitVec 10
  advance : W32
  missing : W16
  frameBad : W16
  ordBad : W16
  ordLate : W16
  lossAt : W64
  lockAt : W64
  orders : Vector (Option Order) 4
  deriving DecidableEq, Repr

/-- The tide unit's receiver and the manager's sender (R47, R50, R56 to R63): `sendFrom` is the first
tick whose word the part sends, `driveDue` an old manager that drives again from the next tick, and `halts`
the targets of HALT orders for which the frame has had no room (R50, R272). -/
structure TideLine where
  missRun : Nat
  sinceGood : Nat
  lastIndex : Option Nat
  prevMissing : Bool
  frame : List Byte
  frameGood : Bool
  frameCount : Option W64
  sinceFirst : Nat
  frameReady : Bool
  neverLocked : Bool
  releaseAt : Option W64
  resume : Option W64
  sending : Vector (Option Order) 4
  placed : Vector Nat 4
  nextId : W32
  firstFrame : Bool
  pendingFail : Bool
  sendFrom : W64
  driveDue : Bool
  halts : List Byte
  deriving DecidableEq, Repr

/-- The FLT_ block (R377), and the corrections and poisonings that the I/O die counts (R355). -/
structure FltRegs where
  ring : Smap (BitVec 512)
  prod : W64
  cons : W64
  lost : W64
  lostBit : Bool
  recovering : Bool
  cadence : W32
  autoRollback : Bool
  autoSubst : Bool
  autoRetire : Bool
  retireLimit : BitVec 4
  retWin : W64
  ceWin : W64
  colLimit : W16
  stackLimit : W16
  saveAt : W64
  iodCe : W64
  iodUe : W64
  deriving DecidableEq, Repr

/-- A rollback or resume under way (R360, R367). -/
inductive RollKind where
  | none
  | rollback (older : Bool) (retire : Option Nat)
  deriving DecidableEq, Repr

/-- What recovery keeps beside the log (R359 to R361, R371); `own` is the accept tick of a retirement that
firmware has issued on its own account (R412). -/
structure Recov where
  saveDue : Bool
  saveStop : Bool
  saveTicks : Nat
  saveActive : Bool
  saveFailed : Bool
  written : List Nat
  nextNumber : W64
  slots : Vector (Option Slot) 8
  lastFaults : List (Nat × Nat × Nat × W64)
  lastSlotB : Bool
  lastNumber : W64
  fellBack : List W64
  rolling : RollKind
  ceTicks : Nat
  rollTicks : List (Nat × Nat)
  subDue : List (Nat × Nat)
  own : Option W64
  deriving DecidableEq, Repr

/-- A record of a fault raised in this cycle, before it enters the log (R236, R237). -/
structure FaultRec where
  cycleOff : Nat
  cls : Nat
  cause : Nat
  die : Nat
  chan : Nat
  y : Nat
  x : Nat
  p : Nat
  unit_ : Nat
  bundle : Nat
  page : Nat
  srctag : Nat
  d0 : W64
  d1 : W64
  gate : Bool
  deriving DecidableEq, Repr

/-- A compare slot (R270 to R273, R276): state, tide addresses, divergence, counts, rings, the last
sequence compared in each channel, and for each side the PRODUCED last seen and the ticks since it
advanced. -/
structure PairSlot where
  state : BitVec 2
  addrA : Byte
  addrB : Byte
  divCause : BitVec 2
  divChannel : BitVec 2
  timeout : W32
  divSeq : W64
  compared : W64
  skipped : W64
  ringA : W64
  ringB : W64
  lastSeq : Quad (Option W64)
  prodA : Quad W64
  prodB : Quad W64
  sinceA : Quad Nat
  sinceB : Quad Nat
  deriving DecidableEq, Repr

/-- Jobs, digests and receipts (08): flags of R276, keys, tensor accumulators, loaded image's
measurement, previous receipt, seals so far. -/
structure Job where
  active : Bool
  retired : Bool
  rollback : Bool
  fwChanged : Bool
  imageChanged : Bool
  coverage : Bool
  pair : Bool
  start : W64
  rcptSeq : W64
  key : BitVec 256
  h : W128
  g : W128
  accum : Smap W128
  meas : BitVec 512
  prev : Option (BitVec 512)
  seals : Nat
  pairs : Vector PairSlot 8
  deriving DecidableEq, Repr

/-- An accepted command (R382, R396): its packet, accept tick, clamp mask, origin, whether it has
begun, and when it has finished its status, reason, result and done tick. -/
structure Cmd where
  seq : W64
  packet : BitVec 2048
  origin : Byte
  accept : W64
  clamp : W32
  begun : Bool
  finished : Bool
  status : W16
  reason : W16
  result : BitVec 192
  memo : W64
  deriving DecidableEq, Repr

structure CmdRegs where
  next : W64
  ringBase : W64
  ringLog2 : BitVec 5
  enable : Bool
  prod : W64
  cons : W64
  ready : Bool
  crcBad : W32
  peerId : W16
  peerEn : Bool
  bootId : W64
  winBase : W64
  accepted : List Cmd
  held : List (BitVec 512)
  seenCrc : List W32
  fromPeer : List Nat
  examine : Bool
  jHead : W64
  jHbmHead : W64
  jBase : W64
  jInternal : Bool
  jTail : Smap (BitVec 512)
  deriving DecidableEq, Repr

structure Ev where
  count : W16
  timeout : W32
  vector : BitVec 6
  enable : Bool
  occ : W16
  pend : Bool
  masked : Bool
  first : W64
  seen : Bool
  ticks : Nat
  deriving DecidableEq, Repr

/-- Management-path state of an event (R422). -/
structure MgmtEv where
  occ : W64
  pend : Bool
  deriving DecidableEq, Repr

/-- The event controller (13): events and vectors, MSI-X table (R425), messages sent, events raised
and not yet counted, those that EVSIG raises in the next cycle (R421), management cores asleep, their
interrupt masks and the interrupts they have taken (R431), and the routing to control cores (R432). -/
structure Events where
  evs : Smap Ev
  spur : W32
  raised : List Nat
  signals : List Nat
  msixTable : Smap W32
  msixPba : W64
  msixEnable : Bool
  msixMask : Bool
  sent : List Nat
  full : BitVec 64
  mgmt : Smap MgmtEv
  asleep : BitVec 4
  mgmtMask : BitVec 4
  mgmtIrq : BitVec 4
  routes : Smap (BitVec 5)
  deriving DecidableEq, Repr

structure Peer where
  win : W64
  reqId : W16
  taddr : Byte
  valid : Bool
  deriving DecidableEq, Repr

structure Mailbox where
  object : List Byte
  error : Bool
  deriving DecidableEq, Repr

/-- The CXL port (14): `narrow` says that the link was narrowed since PERST_N or a full retrain (R438), and
`linked` that it has trained since PERST_N (R439). -/
structure Cxl where
  width : BitVec 5
  speed : BitVec 3
  up : Bool
  half : Bool
  narrow : Bool
  linked : Bool
  laneBad : W16
  degLimit : Byte
  retrainFull : Bool
  downLimit : W32
  recoveries : W32
  replays : W32
  recovTicks : List Nat
  downTicks : Nat
  quiescing : Bool
  quiesced : Bool
  linkLost : Bool
  hdmErr : W64
  hdmErrAt : W64
  bisnp : W64
  p2p : Bool
  carvePeer : W64
  carveImage : W64
  carveSave : W64
  peers : Vector Peer 16
  peerMask : W16
  peerBusy : Bool
  peerSkipped : W16
  peerPkt : BitVec 2048
  memActive : Bool
  mailboxes : Vector Mailbox 3
  cfgSpace : Smap W32
  latched : Smap W32
  readData : W64
  lineData : BitVec 513
  deriving DecidableEq, Repr

structure Region where
  margin : Byte
  drift : Bool
  calibrating : Bool
  cals : W16
  deriving DecidableEq, Repr

/-- Clocks, power and temperature (15). `hotC` and `hotS` are the hottest compute reading and the hottest
stack or memory-side reading of the running interval, `coolRun` and `capRun` the intervals in a row of
R469, `railUv` the compute rail in microvolts, `stepDue` a rise that waits for it (R466),
`evalAt` the count of the last evaluation. -/
structure Power where
  thresh : Byte
  kmax : BitVec 4
  k : Nat
  stretch : W64
  stretchPs : W64
  droopSrc : BitVec 37
  stepLate : W32
  warn : Byte
  holdMargin : Byte
  regions : Vector Region 37
  domains : BitVec 80
  chOff : BitVec 4
  chOffDue : BitVec 4
  step : BitVec 5
  planned : BitVec 5
  tceil : BitVec 5
  pceil : BitVec 5
  cap : W16
  headroom : W16
  avg : W32
  peak : W32
  tstep : Byte
  sstep : Byte
  hyst : Byte
  tdown : W32
  pdown : W32
  temps : Vector W16 54
  hotC : W16
  hotS : W16
  coolRun : Nat
  capRun : Nat
  evalAt : Option W64
  railUv : Nat
  stepDue : Bool
  deriving DecidableEq, Repr

/-- Firmware as a slot holds it (R478): its bytes, and whether it verified. -/
structure FwSlot where
  bytes : List Byte
  valid : Bool
  deriving DecidableEq, Repr

/-- A DRBG instance (R487): requests since its last reseed, and whether it is unhealthy. -/
structure Drbg where
  used : Nat
  unhealthy : Bool
  deriving DecidableEq, Repr

/-- An SPDM connection (R495): the requests gone through, whether the algorithms of sessions are agreed
too, open sessions with whether each is finished, and sessions that FW_ACTIVATE ended. -/
structure Spdm where
  versioned : Bool
  capable : Bool
  negotiated : Bool
  keyAgreed : Bool
  sessions : List (W32 × Bool)
  resynch : List W32
  deriving DecidableEq, Repr

structure Sec where
  slotB : Bool
  fallback : Bool
  failA : BitVec 3
  failB : BitVec 3
  recovery : Bool
  fuseBad : BitVec 10
  udsLocked : Bool
  certMissing : Bool
  staged : Bool
  activating : Bool
  fwVer : W64
  fwStaged : W64
  healthy : Bool
  rngFail : Bool
  rngCnt : W64
  drbgs : Vector Drbg 5
  flashA : FwSlot
  flashB : FwSlot
  records : List (W64 × Bool)
  spareMaps : Quad (BitVec 20)
  fuseRecs : Vector (BitVec 256) 10
  serial : W128
  svnBits : W64
  revoked : BitVec 4
  cdi0 : List Byte
  aliasSeed : List Byte
  mSec : BitVec 512
  mMgmt : BitVec 512
  mChan : Vector (BitVec 512) 4
  mMsd : Vector (BitVec 512) 8
  mCfg : BitVec 512
  advance : Bool
  svn : Nat
  transfer : List Byte
  spdm : Spdm
  deriving DecidableEq, Repr

/-- A task with the mark of the window it is attached to, whether it has started, the commands it
completes (0 for firmware's own), the tick of the request, and once its work is done the status,
reason and result. -/
structure Task where
  task : SlackTask
  mark : W64
  started : Bool
  cmds : List W64
  accept : W64
  outcome : Option (Nat × Nat × BitVec 192)
  deriving DecidableEq, Repr

/-- Bring-up and slack windows (17). -/
structure Service where
  phase : BitVec 4
  failPhase : BitVec 4
  failUnit : BitVec 4
  trainTries : BitVec 2
  phaseAt : Vector W64 8
  defLen : W16
  openMark : Option W64
  openEnd : W64
  spanOver : Bool
  mgmtSwitch : Bool
  tasks : List Task
  listed : List Task
  deferred : W16
  deriving DecidableEq, Repr

/-- Connector and input controller (14 R455, 18 R522, R530). -/
structure Module where
  inserted : Bool
  ample : Bool
  pwrEn : Bool
  perstN : Bool
  controllerOn : Bool
  latchedOff : Bool
  rtr : Bool
  thermtrip : Bool
  tap : TapOp
  regulators : Bool
  deriving DecidableEq, Repr

/-- An item of the verification summary: a V operation of a cell (variant, code set, channel, cell, address), or
a V or T instruction of a channel program (variant, channel, address) (R173, R208). -/
inductive Varying where
  | cell (variant codeset : Nat) (ch : Chn) (cell addr : Nat)
  | core (variant : Nat) (ch : Chn) (addr : Nat)
  deriving DecidableEq, Repr

/-- The image in force (R230): the whole image, the variant bound, the channels retired, and the verification
summary of the image verified last (R173, R208). -/
structure Bound where
  image : Option Image
  variant : Nat
  retiredSet : BitVec 4
  summary : List Varying
  deriving DecidableEq, Repr

structure State where
  four : Bool
  cy : Nat
  draw : Nat
  pending : List Instr
  chans : Quad Chan
  sync : SyncFab
  ports : Vector MsgPort 8
  mem : MemSide
  host : HostMem
  tide : Tide
  line : TideLine
  flt : FltRegs
  newFaults : List FaultRec
  recov : Recov
  job : Job
  cmd : CmdRegs
  ev : Events
  cxl : Cxl
  pwr : Power
  sec : Sec
  svc : Service
  mdl : Module
  img : Bound
  deriving DecidableEq, Repr

/-! ### Reset -/

def MgmtCore.reset : MgmtCore := ⟨0, none, 0, false, false, 0, none⟩

def Bank.reset : Bank :=
  ⟨Vector.replicate 8 Coded.zero, Coded.zero, 0, none, 0, Vector.replicate 32 (0, 0)⟩

def Seq.reset : Seq := ⟨false, false, false, false, 0, [], 0, none, none⟩

/-- A cell as at image load (R541). -/
def Cell.reset : Cell where
  pad := []
  qin := Vector.replicate 8 []
  qout := Vector.replicate 8 []
  qinPop := 0
  qoutPop := 0
  pushCtr := Vector.replicate 8 0
  page0 := []
  page1 := []
  bankA := Bank.reset
  bankB := Bank.reset
  activeB := false
  cfg := 0
  index := 0
  actBuf := none
  scaleBuf := none
  halfAt := none
  tiles := []
  masks := Vector.replicate 8 (BitVec.allOnes 32)
  bc := Vector.replicate 8 0
  flags := 0
  seq := Seq.reset

/-- The control core before a program starts (R542): the registers are 0 (R205, log 1). -/
def Core.reset : Core where
  regs := Vector.replicate 32 0
  pc := 0
  imem := Mem.empty
  dmem := Mem.empty
  started := false
  returned := false
  dead := false
  wait := .none
  readyAt := 0
  readBack := none
  waitTicks := 0
  sendTicks := 0
  waitLong := false
  stallRaised := false
  evin := 0
  bcasts := []
  landAt := 0

def Pending.reset : Pending := ⟨0, 0, 0, 0⟩

def Gate.reset : Gate where
  st := .noImage
  phase := .none
  seq := 0
  lastSeq := 0
  highest := none
  rerunTo := none
  floor := 0
  attempt := 0
  attemptMax := 0
  attemptPrev := 0
  block := none
  blockIdx := 0
  next := none
  nextIdx := 0
  releaseCy := 0
  ready := false
  stopCause := 0
  stopNow := false
  halted := false
  faulted := false
  saved := false
  saveMissed := false
  restarted := false
  slackPassed := true
  resetDue := false
  inReset := none
  openTicks := 0
  longSaid := false
  logFrom := 0
  ledgerBase := Vector.replicate 18 0
  interval := none
  firsts := []
  faults := []
  parts := []
  checkedLanes := 0
  uncheckedLanes := 0
  replay := none

/-- The registers of R105, R166 and R244 at their reset values. -/
def ChRegs.reset : ChRegs where
  out0 := 80
  out0Failed := false
  out1 := 81
  out1Failed := false
  substCount := 0
  seamDrop := 0
  midDrop := 0
  tagFaults := 0
  queueFaults := 0
  gateOr := 0
  runOr := 0
  clearNext := false
  clearEvery := false
  cycles := 0
  stopAfter := BitVec.allOnes 64
  gateMark := 0
  gwStream := 0
  gwDrain := 0
  gwCode := 0
  gwMark := 0
  gwHold := 0
  gwOther := 0
  gwCy := 0
  gwLim := 1000

/-- The registers of R275, R303, R344, R378 and R519 at their reset values. -/
def ChRegs2.reset : ChRegs2 where
  tallyChk := 0
  tallyUnchk := 0
  replays := 0
  replayFails := 0
  pairMember := false
  pairRing := 0
  pairProduced := 0
  pairConsumed := 0
  ringFull := false
  digRecs := 0
  rollDisc := 0
  stallLimit := 1000
  waitLong := false
  waitLim := 10000
  ahead := 4
  rollbacks := 0
  newestB := false
  aValid := false
  bValid := false
  reproduced := false
  saveSeq := 0
  ce := 0
  ue := 0
  ceCol := []
  slackEntered := false
  slackWaiting := false
  fwDue := false
  slackWindows := 0

def StreamQ.reset : StreamQ := ⟨[], [], none, [], [], 0, false, 0, 0⟩
def DrainQ.reset : DrainQ := ⟨[], none, [], 0, false, 0, 0⟩
def Chain.reset : Chain := ⟨[], [], 0, Pending.reset, 0, 0, 0⟩

def Chan.reset : Chan where
  cells := []
  links := []
  sums := []
  dues := []
  drainOut := []
  lends := []
  edgeDone := []
  barriers := []
  trees := []
  core := Core.reset
  gate := Gate.reset
  sq := Vector.replicate 64 StreamQ.reset
  dq := Vector.replicate 32 DrainQ.reset
  ledger := Vector.replicate 18 0
  resident := []
  chain := Chain.reset
  regs := ChRegs.reset
  regs2 := ChRegs2.reset

def MsdRegs.reset : MsdRegs where
  trained := false
  retraining := false
  ringOk := false
  retrainDue := false
  bwEnable := true
  bwHit := 0
  bwMiss := 0
  bwAlloc := 0
  bwInval := 0
  refresh := 0
  relay := 0
  wicket := 0
  retryCa := 0
  retryWdata := 0
  ce := 0
  ue := 0
  ceWindow := 0
  scrubPeriod := 24
  bwLines := []
  tcache := []
  snoop := []

def MemSide.reset : MemSide :=
  ⟨Mem.empty, [], [], false, [], Vector.replicate 8 MsdRegs.reset, [], []⟩

/-- The TIDE_ registers at reset (R64): SELF, count 0. -/
def Tide.reset : Tide where
  count := 0
  role := 0
  eligible := false
  addr := 0
  locked := false
  loss := false
  hold := false
  ahead := false
  driving := false
  handoverFail := false
  lateOrder := false
  lineDelay := 0
  alignTarget := 0
  advance := 0x00010000
  missing := 0
  frameBad := 0
  ordBad := 0
  ordLate := 0
  lossAt := 0
  lockAt := 0
  orders := Vector.replicate 4 none

def TideLine.reset : TideLine where
  missRun := 0
  sinceGood := 16
  lastIndex := none
  prevMissing := true
  frame := []
  frameGood := false
  frameCount := none
  sinceFirst := 0
  frameReady := false
  neverLocked := true
  releaseAt := none
  resume := none
  sending := Vector.replicate 4 none
  placed := Vector.replicate 4 0
  nextId := 1
  firstFrame := false
  pendingFail := false
  sendFrom := 0
  driveDue := false
  halts := []

/-- The FLT_ registers at reset (R377). -/
def FltRegs.reset : FltRegs where
  ring := []
  prod := 0
  cons := 0
  lost := 0
  lostBit := false
  recovering := false
  cadence := 100000
  autoRollback := true
  autoSubst := true
  autoRetire := true
  retireLimit := 3
  retWin := 600000000
  ceWin := 60000000
  colLimit := 16
  stackLimit := 4096
  saveAt := 0
  iodCe := 0
  iodUe := 0

def Recov.reset : Recov where
  saveDue := false
  saveStop := false
  saveTicks := 0
  saveActive := false
  saveFailed := false
  written := []
  nextNumber := 1
  slots := Vector.replicate 8 none
  lastFaults := []
  lastSlotB := false
  lastNumber := 0
  fellBack := []
  rolling := .none
  ceTicks := 0
  rollTicks := []
  subDue := []
  own := none

/-- A compare slot at reset (R276). -/
def PairSlot.reset : PairSlot :=
  ⟨0, 0, 0, 0, 0, 1000000, 0, 0, 0, 0, 0, Quad.all none, Quad.all 0, Quad.all 0, Quad.all 0, Quad.all 0⟩

def Job.reset : Job where
  active := false
  retired := false
  rollback := false
  fwChanged := false
  imageChanged := false
  coverage := false
  pair := false
  start := 0
  rcptSeq := 0
  key := 0
  h := 0
  g := 0
  accum := []
  meas := 0
  prev := none
  seals := 0
  pairs := Vector.replicate 8 PairSlot.reset

/-- The CMDW_ and JRNL_ registers at reset (R418, R419); BOOTID, WINBASE and the journal's base have
no reset value (log 1). -/
def CmdRegs.reset : CmdRegs where
  next := 1
  ringBase := 0
  ringLog2 := 6
  enable := false
  prod := 0
  cons := 0
  ready := false
  crcBad := 0
  peerId := 0
  peerEn := false
  bootId := 0
  winBase := 0
  accepted := []
  held := []
  seenCrc := []
  fromPeer := []
  examine := false
  jHead := 0
  jHbmHead := 0
  jBase := 0
  jInternal := true
  jTail := []

/-- An event at reset (R424). -/
def Ev.reset : Ev := ⟨1, 0, 0, false, 0, false, true, 0, false, 0⟩

def Events.reset : Events where
  evs := []
  spur := 0
  raised := []
  signals := []
  msixTable := []
  msixPba := 0
  msixEnable := false
  msixMask := false
  sent := []
  full := 0
  mgmt := []
  asleep := 0
  mgmtMask := 0xF
  mgmtIrq := 0
  routes := []

/-- The CXLP_ registers at reset (R456); the carve-out bases have no reset value (log 1). -/
def Cxl.reset : Cxl where
  width := 0
  speed := 0
  up := false
  half := false
  narrow := false
  linked := false
  laneBad := 0
  degLimit := 16
  retrainFull := false
  downLimit := 1000000
  recoveries := 0
  replays := 0
  recovTicks := []
  downTicks := 0
  quiescing := false
  quiesced := false
  linkLost := false
  hdmErr := 0
  hdmErrAt := 0
  bisnp := 0
  p2p := false
  carvePeer := 0
  carveImage := 0
  carveSave := 0
  peers := Vector.replicate 16 ⟨0, 0, 0, false⟩
  peerMask := 0
  peerBusy := false
  peerSkipped := 0
  peerPkt := 0
  memActive := false
  mailboxes := Vector.replicate 3 ⟨[], false⟩
  cfgSpace := []
  latched := []
  readData := 0
  lineData := 0

/-- The CLK_ and PWR_ registers at reset (R476, R477); the rail stands at step 16 (R465). -/
def Power.reset : Power where
  thresh := 30
  kmax := 8
  k := 0
  stretch := 0
  stretchPs := 0
  droopSrc := 0
  stepLate := 0
  warn := 15
  holdMargin := 5
  regions := Vector.replicate 37 ⟨0, false, false, 0⟩
  domains := 0
  chOff := 0
  chOffDue := 0
  step := 16
  planned := 16
  tceil := 16
  pceil := 16
  cap := 1850
  headroom := 80
  avg := 0
  peak := 0
  tstep := 95
  sstep := 95
  hyst := 5
  tdown := 0
  pdown := 0
  temps := Vector.replicate 54 0
  hotC := 0x8000
  hotS := 0x8000
  coolRun := 0
  capRun := 0
  evalAt := none
  railUv := 800000
  stepDue := false

/-- The fuse record of a die: NODE, TYPE and INDEX as its place in the package says, other fields 0, and its CRC
(R16, R490, log 2). -/
def fuseRecordReset (d : Nat) : BitVec 256 :=
  let kind := if d = 0 then (0x20, 0) else if d = 9 then (0x60, 2) else (0x30, 1)
  BitVec.ofNat 256 (withCrc 32 (2 ^ 88 * kind.1 + 2 ^ 104 * kind.2 + 2 ^ 112 * d))

/-- The security core and flash before power (R498); flash slots are empty and fused values those of
log 2. -/
def Sec.reset : Sec where
  slotB := false
  fallback := false
  failA := 0
  failB := 0
  recovery := false
  fuseBad := 0
  udsLocked := false
  certMissing := false
  staged := false
  activating := false
  fwVer := 0
  fwStaged := 0
  healthy := false
  rngFail := false
  rngCnt := 0
  drbgs := Vector.replicate 5 ⟨0, false⟩
  flashA := ⟨[], false⟩
  flashB := ⟨[], false⟩
  records := []
  spareMaps := Quad.all 0x5150#20
  fuseRecs := Vector.ofFn fun d => fuseRecordReset d.val
  serial := 0x20202020202020202020202020202020#128
  svnBits := 0
  revoked := 0
  cdi0 := []
  aliasSeed := []
  mSec := 0
  mMgmt := 0
  mChan := Vector.replicate 4 0
  mMsd := Vector.replicate 8 0
  mCfg := 0
  advance := false
  svn := 0
  transfer := []
  spdm := ⟨false, false, false, false, [], []⟩

/-- Bring-up and slack registers at reset (R518). -/
def Service.reset : Service where
  phase := 0
  failPhase := 0
  failUnit := 0
  trainTries := 0
  phaseAt := Vector.replicate 8 0
  defLen := 5000
  openMark := none
  openEnd := 0
  spanOver := false
  mgmtSwitch := false
  tasks := []
  listed := []
  deferred := 0

/-- The module before it is inserted (R450, R455). -/
def Module.reset : Module := ⟨false, false, false, false, false, false, false, false, .idcode, false⟩

def MsgPort.reset : MsgPort := ⟨[], none, [], false, 0⟩

/-- The machine right after reset: a VT8-4 module not yet powered (log 3), every register at its
reset value, no command waiting. -/
def State.reset : State where
  four := true
  cy := 0
  draw := 0
  pending := []
  chans := Quad.all Chan.reset
  sync := ⟨[], [], [], Vector.replicate 4 .reset⟩
  ports := Vector.replicate 8 MsgPort.reset
  mem := MemSide.reset
  host := ⟨[], [], []⟩
  tide := Tide.reset
  line := TideLine.reset
  flt := FltRegs.reset
  newFaults := []
  recov := Recov.reset
  job := Job.reset
  cmd := CmdRegs.reset
  ev := Events.reset
  cxl := Cxl.reset
  pwr := Power.reset
  sec := Sec.reset
  svc := Service.reset
  mdl := Module.reset
  img := ⟨none, 0, 0, []⟩

end Sys2Proof.Machine
end

