-- ==== Sys2Proof/Machine/Ops.lean ====
section
/-! DEFINITION. The named operations over the state that every family uses: reaching a channel and a
cell, raising an event, recording a fault, and the outcome of a cell operation with the one function
that applies it. -/
namespace Sys2Proof.Machine

/-! ### Reaching parts of the state -/

def State.chan (s : State) (c : Chn) : Chan := s.chans.get c

def State.setChan (s : State) (c : Chn) (v : Chan) : State := { s with chans := s.chans.set c v }

def State.modChan (s : State) (c : Chn) (f : Chan → Chan) : State := s.setChan c (f (s.chan c))

/-- Whether the grade has the channel (R3, R16): VT8-3 lacks channel 3. -/
def State.hasChan (s : State) (c : Chn) : Bool := s.four || decide (c ≠ 3)

/-- Whether the grade has a memory-side die: VT8-3 lacks MSD6 and MSD7 (R16). -/
def State.hasMsd (s : State) (n : Fin 8) : Bool := s.four || decide (n.val < 6)

/-- The channels of the grade. -/
def State.channels (s : State) : List Chn := if s.four then [0, 1, 2, 3] else [0, 1, 2]

/-- What names a channel that the grade lacks does nothing (R3). -/
def State.onChan (s : State) (c : Chn) (f : State → State) : Host.Outcome State Fault Refusal :=
  .next (if s.hasChan c then f s else s)

/-- What names a memory-side die that the grade lacks does nothing (R3). -/
def State.onMsd (s : State) (n : Fin 8) (f : State → State) : Host.Outcome State Fault Refusal :=
  .next (if s.hasMsd n then f s else s)

def Chan.cell (ch : Chan) (n : Nat) : Cell := Smap.get Cell.reset ch.cells n

def Chan.setCell (ch : Chan) (n : Nat) (v : Cell) : Chan :=
  { ch with cells := Smap.upsert ch.cells n v }

def State.cell (s : State) (k : CellId) : Cell := (s.chan k.ch).cell k.num

def State.setCell (s : State) (k : CellId) (v : Cell) : State :=
  s.modChan k.ch fun ch => ch.setCell k.num v

/-- Every cell number of a channel. -/
def cellNums : List Nat := List.range 2560

/-- The channel number that a natural names. -/
def chnOf (n : Nat) : Chn := Fin.ofNat 4 n

/-! ### Physical columns (R99) -/

/-- The physical column of a logical column: the (x + 1)-th in-service one. -/
def Chan.pcol (ch : Chan) (x : Nat) : Nat :=
  let p := if ch.regs.out0.toNat ≤ x then x + 1 else x
  if ch.regs.out1.toNat ≤ p then p + 1 else p

/-! ### Crossings (R95 to R97) -/

/-- A channel is in service for a crossing while it is bound to the image in force, not retired and not
held in reset; NO_IMAGE is the state in which no image binds it. -/
def State.inService (s : State) (c : Chn) : Bool :=
  s.hasChan c && (s.chan c).gate.inReset.isNone &&
    match (s.chan c).gate.st with
    | .noImage => false
    | .retired => false
    | _ => true

/-- The channel across the middle of the same half. -/
def midPeer : Chn → Chn
  | 0 => 1
  | 1 => 0
  | 2 => 3
  | 3 => 2

/-- The channel across the seam. -/
def seamPeer : Chn → Chn
  | 0 => 2
  | 1 => 3
  | 2 => 0
  | 3 => 1

def State.midOpen (s : State) (c : Chn) : Bool := s.inService c && s.inService (midPeer c)
def State.seamOpen (s : State) (c : Chn) : Bool := s.inService c && s.inService (seamPeer c)

/-! ### Events and faults -/

/-- Raise an event: its occurrence is counted by the event controller (R422). -/
def State.raise (s : State) (e : Nat) : State :=
  { s with ev := { s.ev with raised := s.ev.raised ++ [e] } }

def evFaultLogged : Nat := 0x000
def evRecoveryFailed : Nat := 0x001
def evRecoveryWait : Nat := 0x002
def evFaultReproduced : Nat := 0x003
def evRollback : Nat := 0x004
def evSaveFailed : Nat := 0x005
def evDataPoisoned : Nat := 0x006
def evCeStackHigh : Nat := 0x007
def evTideLoss : Nat := 0x008
def evTideAhead : Nat := 0x009
def evTideRelock : Nat := 0x00A
def evHandoverFail : Nat := 0x00B
def evOrderLate : Nat := 0x00C
def evTallyCoverage : Nat := 0x00D
def evCmdReply : Nat := 0x00E
/-- Event `j` of channel `c`'s group of 16 (R420): 0 CH_HELD, 1 CHANNEL_RETIRED,
2 COLUMN_SUBSTITUTED, 3 STREAM_PAGE, 4 GATE_WAIT_LONG, 5 CCORE_WAIT_LONG, 6 TALLY_REPLAY,
7 CH_STOPPED. -/
def evChan (c : Chn) (j : Nat) : Nat := 0x010 + 0x10 * c.val + j
def evHbmLinkError (n : Nat) : Nat := 0x050 + 4 * n
def evPairDiverged (n : Nat) : Nat := 0x070 + n
def evPairStall (n : Nat) : Nat := 0x078 + n
def evSoftware (c : Chn) (k : Nat) : Nat := 0x100 + 0x40 * c.val + k

/-- Classes of R238. -/
def clTag : Nat := 1
def clQueue : Nat := 2
def clShutter : Nat := 3
def clLedger : Nat := 4
def clSync : Nat := 5
def clTally : Nat := 6
def clCode : Nat := 7
def clSeam : Nat := 8
def clSendStall : Nat := 9
def clDescriptor : Nat := 10

/-- Units of R239. -/
def unMX : Nat := 1
def unVX : Nat := 2
def unLS : Nat := 3
def unRT : Nat := 4
def unCT : Nat := 5
def unSeq : Nat := 6
def unSumLane : Nat := 7
def unSteward : Nat := 8
def unCcore : Nat := 9
def unFetch : Nat := 10
def unTree : Nat := 11
def unSyncFab : Nat := 12
def unTally : Nat := 13
def unStream : Nat := 14
def unDigest : Nat := 15
def unMemCtl : Nat := 16
def unMgmt : Nat := 17

def ones64 : W64 := BitVec.allOnes 64

/-- A fault record of which only class, cause, unit and details apply; every other location field
holds all ones (R237). -/
def FaultRec.bare (cls cause die unit_ : Nat) (d0 d1 : W64) : FaultRec where
  cycleOff := 0xFFFFFFFF
  cls := cls
  cause := cause
  die := die
  chan := 0xFF
  y := 0xFF
  x := 0xFF
  p := 0xFF
  unit_ := unit_
  bundle := 0x1FF
  page := 1
  srctag := 0xFFF
  d0 := d0
  d1 := d1
  gate := false

/-- Record a fault: the records of one step enter the log together, in the order of R236. -/
def State.fault (s : State) (r : FaultRec) : State := { s with newFaults := s.newFaults ++ [r] }

/-- A fault of channel `c` raised outside its cells. -/
def FaultRec.ofChan (c : Chn) (cls cause unit_ : Nat) (d0 d1 : W64) : FaultRec :=
  { FaultRec.bare cls cause 0 unit_ d0 d1 with chan := c.val }

/-! ### Cell operations: environment and outcome -/

/-- The bits of a latched bundle's slots (R168). -/
def Latched.mx (l : Latched) : BitVec 40 := fld l.word 0 40
def Latched.vx (l : Latched) : BitVec 56 := fld l.word 40 56
def Latched.ls (l : Latched) : BitVec 48 := fld l.word 96 48
def Latched.rt (l : Latched) : BitVec 64 := fld l.word 144 64
def Latched.ct (l : Latched) : BitVec 32 := fld l.word 208 32
def Latched.srctag (l : Latched) : Nat := fldN l.word 240 12

/-- The loop indices as DETAIL1 of a TAG, QUEUE or SHUTTER record gives them (R240). -/
def Latched.idx (l : Latched) : W64 := w64 (l.i0 + 2 ^ 12 * l.i1 + 2 ^ 24 * l.i2)

/-- What a cell operation sees besides its own cell: the cycle, the block cycle, the tick, the block
sequence number, the beats that arrive at the router, and the sum-lane beat that arrives. -/
structure Env where
  cy : Nat
  off : Nat
  tick : W64
  seqNo : W64
  row0 : Bool
  north : Option QEntry
  east : Option QEntry
  south : Option QEntry
  west : Option QEntry
  lend0 : Option QEntry
  lend1 : Option QEntry
  sum : Option SumBeat
  deriving DecidableEq, Repr

/-- A fault that a cell operation raises, without its location. -/
structure Flt where
  cls : Nat
  cause : Nat
  unit_ : Nat
  d0 : W64
  d1 : W64
  deriving DecidableEq, Repr

/-- What a cell operation does: the changed cell, effects that fall due at the end of a later cycle
(counted from the cycle of issue), faults, pops counted by the ledger, corrections and poisonings
counted, tally lanes checked and unchecked, sum-lane and link traffic. -/
structure Out where
  cell : Cell
  dues : List (Nat × CellEffect)
  faults : List Flt
  popped : Nat
  ce : Nat
  ue : Nat
  checked : Nat
  unchecked : Nat
  sumTaken : Bool
  sumOut : Option SumBeat
  sends : List (Nat × QEntry)
  deriving DecidableEq, Repr

def Out.none_ (cell : Cell) : Out := ⟨cell, [], [], 0, 0, 0, 0, 0, false, none, []⟩

def Out.fault (o : Out) (cls cause unit_ : Nat) (d0 d1 : W64) : Out :=
  { o with faults := o.faults ++ [⟨cls, cause, unit_, d0, d1⟩] }

def Out.due (o : Out) (after : Nat) (e : CellEffect) : Out := { o with dues := o.dues ++ [(after, e)] }

def Out.count (o : Out) (k : Checked) : Out := { o with ce := o.ce + k.ce, ue := o.ue + k.ue }

/-! ### Applying an outcome -/

/-- Add to a ledger counter by its code of R296, from 1; those of a retired channel stand still (R301). -/
def Chan.ledgerAdd (ch : Chan) (code : Nat) (n : Nat) : Chan :=
  { ch with ledger := if ch.gate.st = .retired then ch.ledger else ch.ledger.set! (code - 1) (ch.ledger.getD (code - 1) 0 + w64 n) }

def ldPushed : Nat := 0x01
def ldPopped : Nat := 0x02
def ldEdgeIn : Nat := 0x03
def ldEdgeOut : Nat := 0x04
def ldTokSig : Nat := 0x05
def ldTokTake : Nat := 0x06
def ldCcSig : Nat := 0x07
def ldCcTake : Nat := 0x08
def ldHomeSig : Nat := 0x09
def ldHomeTake : Nat := 0x0A
def ldHomeSet : Nat := 0x0B
def ldCrIssued : Nat := 0x0C
def ldCrReturned : Nat := 0x0D
def ldMsgSent : Nat := 0x0E
def ldMsgRecv : Nat := 0x0F
def ldMsgArrived : Nat := 0x10
def ldMsgDisc : Nat := 0x11
def ldMsgNodest : Nat := 0x12

/-- Count corrections and poisonings of channel `c`, in a cell of physical column `p` when one is
given (R355). -/
def Chan.countCodes (ch : Chan) (p : Option Nat) (ce ue : Nat) : Chan :=
  { ch with regs2 := { ch.regs2 with
      ce := ch.regs2.ce + w64 ce
      ue := ch.regs2.ue + w64 ue
      ceCol := match p with
        | some p => if ce = 0 then ch.regs2.ceCol
            else Smap.put 0 ch.regs2.ceCol p (Smap.get 0 ch.regs2.ceCol p + w32 ce)
        | none => ch.regs2.ceCol } }

/-- The event of each poisoning (R350). -/
def State.raiseN (s : State) (e n : Nat) : State :=
  { s with ev := { s.ev with raised := s.ev.raised ++ List.replicate n e } }

/-- Count what cell `k`'s checks found; a poisoning first found in a cell makes a substitution of its
column due (R370). -/
def State.countCell (s : State) (k : CellId) (ce ue : Nat) : State :=
  if ce = 0 && ue = 0 then s
  else
    let p := (s.chan k.ch).pcol k.x.val
    let s := s.modChan k.ch fun ch => ch.countCodes (some p) ce ue
    let s := s.raiseN evDataPoisoned ue
    if ue = 0 || s.recov.subDue.contains (k.ch.val, p) then s
    else { s with recov := { s.recov with subDue := s.recov.subDue ++ [(k.ch.val, p)] } }

/-- Count what a check outside the cells of channel `c` found. -/
def State.countChan (s : State) (c : Chn) (ce ue : Nat) : State :=
  if ce = 0 && ue = 0 then s
  else (s.modChan c fun ch => ch.countCodes none ce ue).raiseN evDataPoisoned ue

/-- The record of a fault in a cell (R237). -/
def State.cellRec (s : State) (k : CellId) (off : Nat) (l : Latched) (f : Flt) : FaultRec where
  cycleOff := off
  cls := f.cls
  cause := f.cause
  die := 0
  chan := k.ch.val
  y := k.y.val
  x := k.x.val
  p := (s.chan k.ch).pcol k.x.val
  unit_ := f.unit_
  bundle := l.addr
  page := boolBit l.page
  srctag := l.srctag
  d0 := f.d0
  d1 := f.d1
  gate := false

/-- The cell one step away on link 1 N, 2 E, 3 S, 4 W, with the port at which a beat enters it and the
link's latency (R66, R81); `none` on a link that is tied off (R82). A drain is port `drain`. -/
def linkTarget (k : CellId) : Nat → Option (Chn × Nat × Port × Nat)
  | 1 => if k.y.val = 0 then some (k.ch, k.x.val, .drain, 1)
         else some (k.ch, k.num - 80, .south, 1)
  | 2 => if k.x.val < 79 then some (k.ch, k.num + 1, .west, 1)
         else if k.ch.val < 2 then some (seamPeer k.ch, k.num - 79, .west, 3) else none
  | 3 => if k.y.val < 31 then some (k.ch, k.num + 80, .north, 1)
         else some (midPeer k.ch, k.num, .south, 2)
  | 4 => if 0 < k.x.val then some (k.ch, k.num - 1, .east, 1)
         else if 2 ≤ k.ch.val then some (seamPeer k.ch, k.num + 79, .east, 3) else none
  | _ => none

/-- Whether the link crosses the seam or the middle, and whether that crossing is open. -/
def State.crossing (s : State) (c d : Chn) : Bool × Bool :=
  if d = seamPeer c then (true, s.seamOpen c) else (false, s.midOpen c)

/-- A beat driven into a closed crossing: dropped, counted and a SEAM fault (R97, R105). -/
def State.seamDrop (s : State) (k : CellId) (d : Chn) (off : Nat) (l : Latched) (link unit_ : Nat)
    (seam : Bool) : State :=
  let s := s.modChan k.ch fun ch => { ch with regs :=
    if seam then { ch.regs with seamDrop := satInc ch.regs.seamDrop }
    else { ch.regs with midDrop := satInc ch.regs.midDrop } }
  s.fault (s.cellRec k off l ⟨clSeam, if seam then 1 else 2, unit_, w64 link, w64 d.val⟩)

/-- Send a beat on a link of cell `k` in cycle `cy` (R81, R97). -/
def State.send (s : State) (k : CellId) (cy off : Nat) (l : Latched) (link : Nat) (e : QEntry) :
    State :=
  match linkTarget k link with
  | none => s
  | some (d, n, port, lat) =>
    if port = .drain then
      s.modChan d fun ch => { ch with drainOut := ch.drainOut ++ [(cy + 1, n, e)] }
    else if d = k.ch || (s.crossing k.ch d).2 then
      s.modChan d fun ch => { ch with links := ch.links ++ [⟨cy + lat, n, port, e⟩] }
    else s.seamDrop k d off l link unRT (s.crossing k.ch d).1

/-- Drive sums east: they leave in cycle + 4 and arrive one hop later (R110). At a tied-off end the
beat is dropped (R82). -/
def State.driveSum (s : State) (k : CellId) (cy off : Nat) (l : Latched) (b : SumBeat) : State :=
  if k.x.val < 79 then
    s.modChan k.ch fun ch => { ch with sums := ch.sums ++ [⟨cy + 5, k.num + 1, b, false⟩] }
  else if k.ch.val < 2 then
    if s.seamOpen k.ch then
      s.modChan (seamPeer k.ch) fun ch =>
        { ch with sums := ch.sums ++ [⟨cy + 7, k.num - 79, b, false⟩] }
    else s.seamDrop k (seamPeer k.ch) off l 5 unSumLane true
  else s

/-- Mark the sum-lane beat taken that arrives at a cell in this cycle. -/
def takeSums (sums : List SumOnLane) (cy n : Nat) : List SumOnLane :=
  sums.map fun b => if b.at_ = cy && b.cell = n then { b with taken := true } else b

/-- Apply what an operation of cell `k`'s bundle `l` did. -/
def State.applyOut (s : State) (k : CellId) (l : Latched) (off unit_ : Nat) (o : Out) : State :=
  let cy := s.cy
  let s := s.modChan k.ch fun ch =>
    let ch := ch.setCell k.num o.cell
    let ch : Chan := { ch with
      dues := ch.dues ++ o.dues.map fun d =>
        ⟨cy + d.1, k.num, unit_, l.srctag, l.addr, boolBit l.page, l.idx, d.2⟩
      sums := if o.sumTaken then takeSums ch.sums cy k.num else ch.sums
      gate := { ch.gate with
        checkedLanes := ch.gate.checkedLanes + w64 o.checked
        uncheckedLanes := ch.gate.uncheckedLanes + w64 o.unchecked }
      regs2 := { ch.regs2 with
        tallyChk := ch.regs2.tallyChk + w64 o.checked
        tallyUnchk := ch.regs2.tallyUnchk + w64 o.unchecked } }
    ch.ledgerAdd ldPopped o.popped
  let s := s.countCell k o.ce o.ue
  let s := o.faults.foldl (fun s f => s.fault (s.cellRec k off l f)) s
  let s := o.sends.foldl (fun s e => s.send k cy off l e.1 e.2) s
  match o.sumOut with
  | some b => s.driveSum k cy off l b
  | none => s

/-! ### Entropy (R487, R488) -/

/-- One request to DRBG instance `i`: 0 to 3 the channels', 4 the security core's own. An instance
that needs a reseed while the noise source has failed becomes unhealthy. -/
def State.drbgDraw (s : State) (i : Nat) : State × Option (BitVec 256) :=
  let d := s.sec.drbgs.getD i ⟨0, false⟩
  let d : Drbg := if d.unhealthy || d.used < 65536 then d
    else if s.sec.healthy then ⟨0, false⟩ else { d with unhealthy := true }
  let put := fun (s : State) (d : Drbg) => { s with sec := { s.sec with drbgs := s.sec.drbgs.set! i d } }
  if d.unhealthy then (put s d, none)
  else
    let s := put s { d with used := d.used + 1 }
    ({ s with draw := s.draw + 1, sec := { s.sec with rngCnt := s.sec.rngCnt + 1 } }, some (Config.entropy s.draw))

/-! ### The environment of a cell in this cycle -/

def Chan.arriving (ch : Chan) (cy n : Nat) (p : Port) : Option QEntry :=
  (ch.links.find? fun b => b.at_ = cy && b.cell = n && b.port = p).map (·.entry)

def Chan.lendArriving (ch : Chan) (cy : Nat) (lane : Bool) : Option QEntry :=
  (ch.lends.find? fun b => b.at_ = cy && b.port = .lend lane).map (·.entry)

def Chan.sumArriving (ch : Chan) (cy n : Nat) : Option SumBeat :=
  (ch.sums.find? fun b => b.at_ = cy && b.cell = n).map (·.beat)

def State.envOf (s : State) (k : CellId) : Env :=
  let ch := s.chan k.ch
  let row0 := decide (k.y.val = 0)
  { cy := s.cy
    off := s.cy - ch.gate.releaseCy
    tick := s.tide.count
    seqNo := ch.gate.seq
    row0 := row0
    north := ch.arriving s.cy k.num .north
    east := ch.arriving s.cy k.num .east
    south := ch.arriving s.cy k.num .south
    west := ch.arriving s.cy k.num .west
    lend0 := if row0 then ch.lendArriving s.cy false else none
    lend1 := if row0 then ch.lendArriving s.cy true else none
    sum := ch.sumArriving s.cy k.num }

end Sys2Proof.Machine
end

