-- ==== Sys2Proof/Machine/Memory.lean ====
section
/-! DEFINITION. Byte memories in codewords of 16 bytes (R306, R347 to R352): raw bytes, codewords with
their check differences and poison, and writes that merge, re-encode and overwrite. -/
namespace Sys2Proof.Machine

def Mem.byte (m : Mem) (a : Nat) : Byte := Smap.get 0 m.bytes a

def Mem.read (m : Mem) : Nat → Nat → List Byte
  | _, 0 => []
  | a, n + 1 => m.byte a :: m.read (a + 1) n

/-- Codeword `i`: bytes 16 i to 16 i + 15. -/
def Mem.cw (m : Mem) (i : Nat) : Coded 1 :=
  ⟨BitVec.ofNat _ (ofBytesLE (m.read (16 * i) 16)), (Smap.get 0 m.resid i).setWidth 16,
   BitVec.ofNat 1 (if m.poison.contains i then 1 else 0)⟩

def Mem.setPoison (m : Mem) (i : Nat) (b : Bool) : Mem :=
  { m with poison := if b then insertNat m.poison i else m.poison.filter fun x => decide (x ≠ i) }

def Mem.putByte (m : Mem) (a : Nat) (b : Byte) : Mem := { m with bytes := Smap.put 0 m.bytes a b }

def Mem.putBytes (m : Mem) : Nat → List Byte → Mem
  | _, [] => m
  | a, b :: bs => (m.putByte a b).putBytes (a + 1) bs

/-- Store a codeword as it travels: data, check difference and poison. -/
def Mem.putCw (m : Mem) (i : Nat) (c : Coded 1) : Mem :=
  let m := m.putBytes (16 * i) (bytesLE 16 c.data.toNat)
  let m := { m with resid := Smap.put 0 m.resid i (c.resid.setWidth 16) }
  m.setPoison i (bitAt c.poison 0)

/-- A codeword as a checking unit stores it: corrected, or poisoned when it cannot be (R349). -/
def Mem.settle (m : Mem) (i : Nat) : Mem :=
  let c := m.cw i
  if c.clean then m else m.putCw i c.check.1

/-- Write one byte: the codeword is settled, merged and encoded anew. -/
def Mem.writeByte (m : Mem) (a : Nat) (b : Byte) : Mem :=
  let m := m.settle (a / 16)
  { m with bytes := Smap.put 0 m.bytes a b, resid := Smap.put 0 m.resid (a / 16) 0 }

def Mem.writeEach (m : Mem) : Nat → List Byte → Mem
  | _, [] => m
  | a, b :: bs => (m.writeByte a b).writeEach (a + 1) bs

/-- The codewords that `n` bytes from `a` cover whole. -/
def wholeCws (a n : Nat) : List Nat :=
  let first := (a + 15) / 16
  (List.range ((a + n) / 16 - first)).map (first + ·)

/-- Write bytes: every codeword covered whole is clean afterwards (R350). -/
def Mem.write (m : Mem) (a : Nat) (bs : List Byte) : Mem :=
  (wholeCws a bs.length).foldl (fun m i => m.setPoison i false) (m.writeEach a bs)

/-- The codewords that `n` bytes from `a` touch. -/
def touchedCws (a n : Nat) : List Nat :=
  if n = 0 then [] else (List.range ((a + n - 1) / 16 - a / 16 + 1)).map (a / 16 + ·)

/-- What checking the codewords under `n` bytes finds: corrections, poisonings, and the first bad
one. -/
def Mem.checkSpan (m : Mem) (a n : Nat) : Checked :=
  (touchedCws a n).foldl (fun acc i =>
    let r := (m.cw i).check.2
    ⟨acc.ce + r.ce, acc.ue + r.ue, match acc.bad with
      | some b => some b
      | none => r.bad.map fun b => (i, b.2)⟩) ⟨0, 0, none⟩

/-- Bytes read through the checks: corrected copies. -/
def Mem.readChecked (m : Mem) (a n : Nat) : List Byte × Checked :=
  ((touchedCws a n).foldl (fun m i => m.settle i) m |>.read a n, m.checkSpan a n)

/-- Read whole codewords as they travel, corrected, with their poison. -/
def Mem.readCws (m : Mem) (i n : Nat) : List (Coded 1) :=
  (List.range n).map fun j => (m.cw (i + j)).check.1

def Mem.writeCws (m : Mem) : Nat → List (Coded 1) → Mem
  | _, [] => m
  | i, c :: cs => (m.putCw i c).writeCws (i + 1) cs

/-- Codewords side by side. -/
def joinCws {k : Nat} (cs : List (Coded 1)) : Coded k :=
  cs.zipIdx.foldl (fun acc c => if c.2 < k then acc.setPart c.2 c.1 else acc) Coded.zero

/-- The codewords of a group. -/
def splitCws {k : Nat} (c : Coded k) : List (Coded 1) := (List.range k).map fun i => c.part i 1

/-- The canonical form of a memory. -/
def Mem.wf (m : Mem) : Bool :=
  Smap.wf 0 m.bytes && Smap.wf 0 m.resid && Smap.risingFrom 0 (m.poison.map fun i => (i, ()))

end Sys2Proof.Machine
end

