-- ==== Sys2Proof/Machine/Float.lean ====
section
/-! DEFINITION. Arithmetic of the vector lanes, the strands and the tally: IEEE 754 values as exact
dyadic numbers, rounded once to nearest even (R130, R134, R152 to R155, R253). -/
namespace Sys2Proof

/-- A binary format: precision, least and greatest exponent. -/
structure Fmt where
  p : Nat
  emin : Int
  emax : Int
  deriving DecidableEq, Repr

def fmtF32 : Fmt := ⟨24, -126, 127⟩
def fmtBF16 : Fmt := ⟨8, -126, 127⟩
def fmtFP16 : Fmt := ⟨11, -14, 15⟩
def fmtF64 : Fmt := ⟨53, -1022, 1023⟩

/-- Bits of the exponent field. -/
def Fmt.ebits (f : Fmt) : Nat := Nat.log2 (f.emax.toNat + 1) + 1
/-- The exponent field of infinities and NaNs. -/
def Fmt.etop (f : Fmt) : Nat := 2 * f.emax.toNat + 1
/-- The word of positive infinity. -/
def Fmt.infWord (f : Fmt) : Nat := f.etop <<< (f.p - 1)
/-- The default NaN (R130, R152, R153). -/
def Fmt.nanWord (f : Fmt) : Nat := f.infWord + 2 ^ (f.p - 2)
def Fmt.signWord (f : Fmt) : Nat := 2 ^ (f.ebits + f.p - 1)

/-- A floating-point datum: a NaN, signaling or quiet; an infinity; or a signed dyadic
number ±man × 2^exp. -/
inductive FVal where
  | nan (signaling : Bool)
  | inf (neg : Bool)
  | fin (neg : Bool) (man : Nat) (exp : Int)
  deriving DecidableEq, Repr

/-- The flag word of R163. -/
abbrev Flags := BitVec 8
def flInvalid : Flags := 0x01#8
def flDivZero : Flags := 0x02#8
def flOverflow : Flags := 0x04#8
def flUnderflow : Flags := 0x08#8
def flInexact : Flags := 0x10#8
def flLoss : Flags := 0x20#8
def flOver : Flags := 0x40#8
def flEmpty : Flags := 0x80#8

def Fmt.unpack (f : Fmt) (x : Nat) : FVal :=
  let frac := x % 2 ^ (f.p - 1)
  let ex := (x >>> (f.p - 1)) % 2 ^ f.ebits
  let neg := x.testBit (f.ebits + f.p - 1)
  if ex = f.etop then
    if frac = 0 then .inf neg else .nan (!frac.testBit (f.p - 2))
  else if ex = 0 then .fin neg frac (f.emin - ((f.p : Int) - 1))
  else .fin neg (frac + 2 ^ (f.p - 1)) (f.emin - ((f.p : Int) - 1) + (ex - 1))

def Fmt.signed (f : Fmt) (neg : Bool) (x : Nat) : Nat := if neg then x + f.signWord else x

/-- man × 2^exp shifted to a whole number of 2^q, rounded to nearest even; `sticky` says that the
value lies strictly between man and man + 1. -/
def roundAt (man : Nat) (exp q : Int) (sticky : Bool) : Nat × Bool :=
  if q ≤ exp then (man <<< (exp - q).toNat, sticky)
  else
    let sh := (q - exp).toNat
    let m := man >>> sh
    let r := man % 2 ^ sh
    let half := 2 ^ (sh - 1)
    let up := decide (half < r) || (decide (r = half) && (sticky || decide (m % 2 = 1)))
    (if up then m + 1 else m, sticky || decide (r ≠ 0))

/-- One rounding to nearest even, with the flags it raises: tininess is judged after rounding, and
underflow is set only when the result is also inexact (R152). -/
def Fmt.round (f : Fmt) (neg : Bool) (man : Nat) (exp : Int) (sticky : Bool) : Nat × Flags :=
  if man = 0 && !sticky then (f.signed neg 0, 0)
  else
    let e : Int := (Nat.log2 man : Int) + exp
    let qmin : Int := f.emin - ((f.p : Int) - 1)
    let q := max (e - ((f.p : Int) - 1)) qmin
    let r := roundAt man exp q sticky
    let w := (q - qmin).toNat <<< (f.p - 1)
    let w := w + r.1
    let tiny := decide (e < f.emin) &&
      !(decide (e = f.emin - 1) && decide ((roundAt man exp (e - ((f.p : Int) - 1)) sticky).1 = 2 ^ f.p))
    if f.infWord ≤ w then (f.signed neg f.infWord, flOverflow ||| flInexact)
    else
      (f.signed neg w,
        (if r.2 then flInexact else 0) ||| (if tiny && r.2 then flUnderflow else 0))

/-- Round a signed dyadic number N × 2^e; an exact zero gives +0. -/
def Fmt.roundInt (f : Fmt) (n e : Int) : Nat × Flags := f.round (decide (n < 0)) n.natAbs e false

def FVal.isNan : FVal → Bool
  | .nan _ => true
  | _ => false

def FVal.isSnan : FVal → Bool
  | .nan s => s
  | _ => false

/-- The finite value as N for value N × 2^e. -/
def FVal.scaled (v : FVal) (e : Int) : Int :=
  match v with
  | .fin neg m x => let n : Int := (m <<< (x - e).toNat : Nat); if neg then -n else n
  | _ => 0

def FVal.exp : FVal → Int
  | .fin _ _ x => x
  | _ => 0

def FVal.neg : FVal → Bool
  | .fin n _ _ => n
  | .inf n => n
  | _ => false

def FVal.isZero : FVal → Bool
  | .fin _ 0 _ => true
  | _ => false

def FVal.negate : FVal → FVal
  | .fin n m x => .fin (!n) m x
  | .inf n => .inf (!n)
  | v => v

/-- The default NaN, with invalid set when `bad`. -/
def Fmt.nanRes (f : Fmt) (bad : Bool) : Nat × Flags := (f.nanWord, if bad then flInvalid else 0)

/-- Sum of two data, one rounding. -/
def Fmt.addV (f : Fmt) (a b : FVal) : Nat × Flags :=
  match a, b with
  | .nan s, y => f.nanRes (s || y.isSnan)
  | _, .nan s => f.nanRes s
  | .inf n, .inf m => if n = m then (f.signed n f.infWord, 0) else f.nanRes true
  | .inf n, _ => (f.signed n f.infWord, 0)
  | _, .inf m => (f.signed m f.infWord, 0)
  | .fin n m x, .fin n' m' x' =>
    let e := min x x'
    let s := (FVal.fin n m x).scaled e + (FVal.fin n' m' x').scaled e
    if s = 0 then (if m = 0 && m' = 0 && n && n' then f.signWord else 0, 0)
    else f.roundInt s e

/-- The exact product of two data. -/
def FVal.mulV (a b : FVal) : FVal × Flags :=
  match a, b with
  | .nan s, y => (.nan false, if s || y.isSnan then flInvalid else 0)
  | _, .nan s => (.nan false, if s then flInvalid else 0)
  | .inf n, y => if y.isZero then (.nan false, flInvalid) else (.inf (n != y.neg), 0)
  | x, .inf m => if x.isZero then (.nan false, flInvalid) else (.inf (x.neg != m), 0)
  | .fin n m x, .fin n' m' x' => (.fin (n != n') (m * m') (x + x'), 0)

/-- A datum rounded to the format. -/
def Fmt.pack (f : Fmt) : FVal → Nat × Flags
  | .nan s => f.nanRes s
  | .inf n => (f.signed n f.infWord, 0)
  | .fin n m x => f.round n m x false

def Fmt.mulW (f : Fmt) (a b : Nat) : Nat × Flags :=
  let p := (f.unpack a).mulV (f.unpack b)
  let r := f.pack p.1
  (r.1, r.2 ||| p.2)

def Fmt.addW (f : Fmt) (a b : Nat) : Nat × Flags := f.addV (f.unpack a) (f.unpack b)

/-- a × b + c with one rounding; `zinf` says whether 0 × ∞ + quiet NaN sets invalid, which IEEE 754
leaves to the implementation. -/
def Fmt.fmaW (f : Fmt) (zinf : Bool) (a b c : Nat) : Nat × Flags :=
  let va := f.unpack a
  let vb := f.unpack b
  let vc := f.unpack c
  let p := va.mulV vb
  match vc with
  | .nan s =>
    if !va.isNan && !vb.isNan && p.1.isNan then f.nanRes (s || zinf)
    else f.nanRes (s || p.2 ≠ 0)
  | v =>
    let r := f.addV p.1 v
    (r.1, r.2 ||| p.2)

/-! ### Division, roots, powers and logarithms (R155) -/

def Fmt.divW (f : Fmt) (a b : Nat) : Nat × Flags :=
  match f.unpack a, f.unpack b with
  | .nan s, y => f.nanRes (s || y.isSnan)
  | _, .nan s => f.nanRes s
  | .inf _, .inf _ => f.nanRes true
  | .inf n, y => (f.signed (n != y.neg) f.infWord, 0)
  | x, .inf n => (f.signed (x.neg != n) 0, 0)
  | .fin n m x, .fin n' m' x' =>
    let s := n != n'
    if m' = 0 then
      if m = 0 then f.nanRes true else (f.signed s f.infWord, flDivZero)
    else
      let k := Nat.log2 m' + f.p + 4
      let num := m <<< k
      f.round s (num / m') (x - x' - (k : Int)) (decide (num % m' ≠ 0))

/-- The integer square root of `n`, its bits tried from 2^(k-1) down. -/
def isqrtAux (n : Nat) : Nat → Nat → Nat
  | 0, r => r
  | k + 1, r =>
    let r' := r + 2 ^ k
    isqrtAux n k (if r' * r' ≤ n then r' else r)

def isqrt (n : Nat) : Nat := isqrtAux n (Nat.log2 n / 2 + 1) 0

/-- man × 2^exp with an even exponent. -/
def evenExp (m : Nat) (x : Int) : Nat × Int := if x % 2 = 0 then (m, x) else (2 * m, x - 1)

def Fmt.sqrtW (f : Fmt) (a : Nat) : Nat × Flags :=
  match f.unpack a with
  | .nan s => f.nanRes s
  | .inf n => if n then f.nanRes true else (f.infWord, 0)
  | .fin n m x =>
    if m = 0 then (f.signed n 0, 0)
    else if n then f.nanRes true
    else
      let (m, x) := evenExp m x
      let k := f.p + 4
      let num := m <<< (2 * k)
      let r := isqrt num
      f.round false r (x / 2 - (k : Int)) (decide (r * r ≠ num))

def Fmt.rsqW (f : Fmt) (a : Nat) : Nat × Flags :=
  match f.unpack a with
  | .nan s => f.nanRes s
  | .inf n => if n then f.nanRes true else (0, 0)
  | .fin n m x =>
    if m = 0 then (f.signed n f.infWord, flDivZero)
    else if n then f.nanRes true
    else
      let (m, x) := evenExp m x
      let k := Nat.log2 m + f.p + 4
      let r := isqrt (2 ^ (2 * k) / m)
      f.round false r (-(x / 2) - (k : Int)) (decide (r * r * m ≠ 2 ^ (2 * k)))

/-- Bits of the fixed-point product below. -/
def expBits : Nat := 192

/-- The product of 2^(2^-i) over the bits of a fraction, highest first: `c` is 2^(2^-i) and `acc` the
product so far, both with `expBits` fraction bits; `fr` is the fraction's remaining bits of 2^n. -/
def exp2Frac : Nat → Nat → Nat → Nat → Nat
  | 0, _, acc, _ => acc
  | n + 1, c, acc, fr =>
    let acc := if fr.testBit n then (acc * c) >>> expBits else acc
    exp2Frac n (isqrt (c <<< expBits)) acc fr

/-- 2^(N × 2^e) rounded once. The fraction never makes the result exact unless it is zero. -/
def Fmt.exp2Fin (f : Fmt) (n : Int) (e : Int) : Nat × Flags :=
  if n = 0 then f.round false 1 0 false
  else if 0 ≤ e || decide (n.emod (2 ^ (-e).toNat) = 0) then
    let i := if 0 ≤ e then n * 2 ^ e.toNat else n / 2 ^ (-e).toNat
    f.round false 1 (max (-4000) (min 4000 i)) false
  else
    let k := (-e).toNat
    let i := n / 2 ^ k
    let fr := (n - i * 2 ^ k).toNat
    let i := max (-4000) (min 4000 i)
    if fr.log2 + 64 < k then f.round false (2 ^ 100) (i - 100) true
    else if (2 ^ k - fr).log2 + 64 < k then f.round false (2 ^ 101 - 1) (i - 100) true
    else
      let c := isqrt (2 <<< (2 * expBits))
      f.round false (exp2Frac k c (1 <<< expBits) fr) (i - (expBits : Int)) true

def Fmt.exp2W (f : Fmt) (a : Nat) : Nat × Flags :=
  match f.unpack a with
  | .nan s => f.nanRes s
  | .inf n => (if n then 0 else f.infWord, 0)
  | .fin n m x => f.exp2Fin (if n then -(m : Int) else m) x

/-- Fraction digits of the logarithm below, and bits of its running square. -/
def logDigits : Nat := 110
def logBits : Nat := 300

/-- The binary digits of log2 y for y in [1, 2), by repeated squaring. -/
def log2Frac : Nat → Nat → Nat → Nat
  | 0, _, acc => acc
  | n + 1, y, acc =>
    let y := (y * y) >>> logBits
    if y < 2 <<< logBits then log2Frac n y (2 * acc)
    else log2Frac n (y >>> 1) (2 * acc + 1)

def Fmt.log2W (f : Fmt) (a : Nat) : Nat × Flags :=
  match f.unpack a with
  | .nan s => f.nanRes s
  | .inf n => if n then f.nanRes true else (f.infWord, 0)
  | .fin n m x =>
    if m = 0 then (f.signed true f.infWord, flDivZero)
    else if n then f.nanRes true
    else
      let k := Nat.log2 m
      let e : Int := x + (k : Int)
      if m = 2 ^ k then f.roundInt e 0
      else
        let fr := log2Frac logDigits (m <<< (logBits - k)) 0
        let t : Int := e * 2 ^ logDigits + fr
        if 0 ≤ t then f.round false t.toNat (-(logDigits : Int)) true
        else f.round true (-t - 1).toNat (-(logDigits : Int)) true

/-! ### Comparison and conversion (R153, R154, R157, R161) -/

/-- Order of two values that are not NaN. -/
def FVal.lt : FVal → FVal → Bool
  | .inf n, .inf m => n && !m
  | .inf n, _ => n
  | _, .inf m => !m
  | .fin n m x, .fin n' m' x' =>
    let e := min x x'
    decide ((FVal.fin n m x).scaled e < (FVal.fin n' m' x').scaled e)
  | _, _ => false

def FVal.eqv (a b : FVal) : Bool := !a.isNan && !b.isNan && !a.lt b && !b.lt a

/-- F32 to I32: nearest even, NaN and out-of-range values set invalid (R154). -/
def f32ToI32 (a : Nat) : Nat × Flags :=
  match fmtF32.unpack a with
  | .nan _ => (0x80000000, flInvalid)
  | .inf n => (if n then 0x80000000 else 0x7FFFFFFF, flInvalid)
  | .fin n m x =>
    let r := roundAt m x 0 false
    if n then
      if 0x80000000 < r.1 then (0x80000000, flInvalid)
      else ((2 ^ 32 - r.1) % 2 ^ 32, if r.2 then flInexact else 0)
    else
      if 0x7FFFFFFF < r.1 then (0x7FFFFFFF, flInvalid)
      else (r.1, if r.2 then flInexact else 0)

def i32ToF32 (a : W32) : Nat × Flags := fmtF32.roundInt a.toInt 0

/-- F32 to a narrow format (R153). -/
def narrowTo (f : Fmt) (a : Nat) : Nat × Flags := f.pack (fmtF32.unpack a)

/-- A narrow value as F32 (R153). -/
def widenFrom (f : Fmt) (a : Nat) : Nat × Flags := fmtF32.pack (f.unpack a)

/-- Rank of an F32 word among values that are not NaN, with +0 above −0 (R161). -/
def f32Rank (a : Nat) : Int := if a.testBit 31 then -((a % 2 ^ 31 : Nat) : Int) - 1 else (a : Int)

end Sys2Proof
end

