-- ==== Sys2Proof/Machine/Operands.lean ====
section
/-! DEFINITION. The operand forms of a bundle: address generators and the index table (R175, R176),
expected tags (R177), index selects (R179), scratchpad reads, queue pops with their checks (R68, R69,
R73), and the operand specs of the VX slot (R190). -/
namespace Sys2Proof.Machine

/-! ### Indices, lines and tags -/

/-- The index an index select names; 0 when none (R179). -/
def Latched.sel (l : Latched) (sel : Nat) : Nat :=
  match sel with
  | 1 => l.i0
  | 2 => l.i1
  | 3 => l.i2
  | _ => 0

/-- The line a 7-bit generator spec names (R175). -/
def genLine (ix : BitVec 1024) (l : Latched) (spec : Nat) : Nat :=
  let b := 64 * (spec / 16 % 8)
  (fldN ix b 10 + fldN ix (b + 10) 10 * l.i0 + fldN ix (b + 20) 10 * l.i1 +
    fldN ix (b + 30) 10 * l.i2 + spec % 16) % 1024

/-- The tag expected of qinN (R177). -/
def expTag (ix : BitVec 1024) (l : Latched) (q etag : Nat) : Nat :=
  let b := 512 + 16 * q
  (etag + fldN ix b 3 + fldN ix (b + 3) 3 * l.i0 + fldN ix (b + 6) 3 * l.i1 +
    fldN ix (b + 9) 3 * l.i2) % 8

/-! ### Reads -/

/-- A codeword that a check found unusable: its index, whether it was uncorrectable just now, and its
syndrome. -/
abbrev Bad := Option (Nat × Bool × Nat)

/-- Consume codewords: a bad one raises CODE, UNCORRECTABLE when found just now and POISONED when it
was marked before (R353, R354). The answer says whether all were good. -/
def Out.consume (o : Out) (unit_ base : Nat) (b : Bad) : Out × Bool :=
  match b with
  | none => (o, true)
  | some (i, now, syn) =>
    (o.fault clCode (if now then 1 else 4) unit_ (w64 (base + i)) (w64 syn), false)

/-- Read a scratchpad line through its checks (R80, R351): the corrected copy, and what is bad. -/
def Out.readLine (o : Out) (a : Nat) : Out × Line × Bad :=
  let r := Coded.check (Smap.get Coded.zero o.cell.pad a)
  (o.count r.2, r.1, r.2.bad)

/-- Read one half-line (R78). -/
def Out.readHalf (o : Out) (a : Nat) (hi : Bool) : Out × Beat × Bad :=
  let r := Coded.check ((Smap.get Coded.zero o.cell.pad a).part (if hi then 4 else 0) 4 : Beat)
  (o.count r.2, r.1, r.2.bad)

/-- A tag distance of R74 in the nine bits that follow expected and found tag in DETAIL0. -/
def tagDetail (expected found q : Nat) : W64 :=
  w64 (expected + 8 * found + 64 * ((found + 8 - expected) % 8) + 512 * q)

/-- Pop qinN for `unit_`: QUEUE when it is empty, TAG when the head's tag is not the expected one;
the pop itself happens on a tag mismatch (R69, R73). `none` means that the operation writes nothing. -/
def Out.popIn (o : Out) (l : Latched) (q etag unit_ : Nat) : Out × Option (Beat × Bad) :=
  match o.cell.qin.getD q [] with
  | [] => (o.fault clQueue 1 unit_ (w64 q) l.idx, none)
  | e :: _ =>
    let again := bitAt o.cell.qinPop q
    let r := Coded.check e.beat
    let o : Out := { o with
      cell := { o.cell with qinPop := setBit o.cell.qinPop q true }
      popped := if again then o.popped else o.popped + 1 }
    let o := o.count r.2
    let x := expTag o.cell.index l q etag
    if x = e.tag.toNat then (o, some (r.1, r.2.bad))
    else (o.fault clTag 1 unit_ (tagDetail x e.tag.toNat q) l.idx, none)

/-! ### Operand specs (R190) -/

/-- A 9-bit operand spec, decoded. -/
inductive Operand where
  | tile (t r : Nat)
  | line (spec : Nat)
  | queue (q etag : Nat)
  | bcast (n : Nat)
  | mask (n : Nat)
  | imm (v : Nat)
  | reserved
  deriving DecidableEq, Repr

/-- DESIGN CHOICE (log 98): a broadcast or mask operand with bit [3] set is a reserved one. -/
def operandOf (x : Nat) : Operand :=
  let v := x % 128
  match x / 128 with
  | 0 => .tile (v / 16) (v % 16)
  | 1 => .line v
  | 2 =>
    if v < 64 then .queue (v % 8) (v / 8)
    else if v / 8 = 8 then .bcast (v % 8)
    else if v / 8 = 10 then .mask (v % 8)
    else .reserved
  | _ => .imm v

/-- How an operation reads or writes an operand: F32 or I32 words, or a 16-bit format. -/
inductive Form where
  | f32
  | i32
  | narrow
  deriving DecidableEq, Repr

/-- The fields of a VX slot (R189). -/
structure VxWord where
  op : Nat
  ty : Nat
  msk : Nat
  half : Bool
  nf : Bool
  fn : Nat
  rix : Nat
  dst : Operand
  sa : Operand
  sb : Operand
  sc : Operand
  deriving DecidableEq, Repr

def vxWord (v : BitVec 56) : VxWord where
  op := fldN v 0 6
  ty := fldN v 6 2
  msk := fldN v 8 3
  half := bitAt v 11
  nf := bitAt v 12
  fn := fldN v 13 3
  rix := fldN v 16 2
  dst := operandOf (fldN v 18 9)
  sa := operandOf (fldN v 27 9)
  sb := operandOf (fldN v 36 9)
  sc := operandOf (fldN v 45 9)

/-- The narrow format NF of an operation (R189). -/
def VxWord.fmt (v : VxWord) : Fmt := if v.nf then fmtFP16 else fmtBF16

/-- The mask an operation runs under; m0 is all ones (R146). -/
def Cell.mask (c : Cell) (n : Nat) : W32 := if n = 0 then BitVec.allOnes 32 else c.masks.getD n 0

def rowOf (f : Nat → Nat) : Row := Vector.ofFn fun i : Fin 32 => w32 (f i.val)

/-- What reading a source gives: 32 words, the flags that reading lane by lane raises, and whether a
void tile row was read. -/
structure Src where
  row : Row
  flags : Vector Flags 32
  void : Bool
  deriving DecidableEq, Repr

def noFlags : Vector Flags 32 := Vector.replicate 32 0

def Src.plain (r : Row) : Src := ⟨r, noFlags, false⟩

/-- The value every lane of a void row takes (R148). -/
def voidWord (f : Form) : Nat := if f = .i32 then 0x80000000 else 0x7FC00000

/-- A row passed through a 16-bit format (R147): rounded to it, and widened back. -/
def throughNarrow (fmt : Fmt) (r : Row) : Src :=
  let p := fun i : Fin 32 => narrowTo fmt (r[i].toNat)
  ⟨Vector.ofFn fun i => w32 (widenFrom fmt (p i).1).1, Vector.ofFn fun i => (p i).2, false⟩

/-- 32 values of a 16-bit format, widened exactly (R153). -/
def widenRow (fmt : Fmt) (d : BitVec 512) : Src :=
  let p := fun i : Fin 32 => widenFrom fmt (fldN d (16 * i.val) 16)
  ⟨Vector.ofFn fun i => w32 (p i).1, Vector.ofFn fun i => (p i).2, false⟩

/-- Read a source operand in the issue cycle; `none` when the operation is to write nothing. -/
def Out.readSrc (o : Out) (l : Latched) (v : VxWord) (f : Form) (x : Operand) : Out × Option Src :=
  match x with
  | .tile t r =>
    match Smap.find? o.cell.tiles (16 * t + (r + l.sel v.rix) % 16) with
    | some row => (o, some (if f = .narrow then throughNarrow v.fmt row else .plain row))
    | none => (o, some ⟨rowOf fun _ => voidWord f, noFlags, true⟩)
  | .line g =>
    let a := genLine o.cell.index l g
    if f = .narrow then
      let r := o.readHalf a v.half
      let q := r.1.consume unVX (8 * a + (if v.half then 4 else 0)) r.2.2
      (q.1, if q.2 then some (widenRow v.fmt r.2.1.data) else none)
    else
      let r := o.readLine a
      let q := r.1.consume unVX (8 * a) r.2.2
      (q.1, if q.2 then some (.plain (rowOf fun i => fldN r.2.1.data (32 * i) 32)) else none)
  | .queue n etag =>
    match o.popIn l n etag unVX with
    | (o, none) => (o, none)
    | (o, some (b, bad)) =>
      let q := o.consume unVX (4 * n) bad
      (q.1, if q.2 then
        some (if f = .narrow then widenRow v.fmt b.data
          else .plain (rowOf fun i =>
            if v.half then (if 16 ≤ i then fldN b.data (32 * (i - 16)) 32 else 0)
            else if i < 16 then fldN b.data (32 * i) 32 else 0))
        else none)
  | .bcast n =>
    let row := Vector.replicate 32 (o.cell.bc.getD n 0)
    (o, some (if f = .narrow then throughNarrow v.fmt row else .plain row))
  | .mask n => (o, some (.plain (Vector.replicate 32 (o.cell.mask n))))
  | .imm n => (o, some (.plain (Vector.replicate 32 (w32 n))))
  | .reserved => (o, some (.plain (Vector.replicate 32 0)))

/-- Sixteen 32-bit lanes or 32 16-bit lanes as the data of a beat. -/
def packBeat (w n : Nat) (f : Nat → Nat) : BitVec 512 :=
  BitVec.ofNat 512 ((List.range n).foldr (fun i acc => f i % 2 ^ w + acc * 2 ^ w) 0)

def packLine (w n : Nat) (f : Nat → Nat) : BitVec 1024 :=
  BitVec.ofNat 1024 ((List.range n).foldr (fun i acc => f i % 2 ^ w + acc * 2 ^ w) 0)

/-- The effect that writes a row to a destination operand (R142 to R144, R147). -/
def dstEffect (c : Cell) (l : Latched) (v : VxWord) (f : Form) (r : Row) : Option CellEffect :=
  let word := fun i => (r.getD i 0).toNat
  let nar := fun i => (narrowTo v.fmt (word i)).1
  match v.dst with
  | .tile t n => some (.tile (16 * t + (n + l.sel v.rix) % 16) r)
  | .line g =>
    let a := genLine c.index l g
    if f = .narrow then some (.half a v.half (Coded.ofData (packBeat 16 32 nar)))
    else some (.line a (Coded.ofData (packLine 32 32 word)))
  | .queue n _ =>
    if f = .narrow then some (.push n (Coded.ofData (packBeat 16 32 nar)))
    else some (.push n (Coded.ofData (packBeat 32 16 fun i => word (if v.half then i + 16 else i))))
  | _ => none

end Sys2Proof.Machine
end

