-- ==== Sys2Proof/Machine/Flags.lean ====
section
/-! DEFINITION. What one lane computes and the flags it raises: the elementwise functions, comparisons,
maxima, and the reduction trees of the vector lanes (R152 to R161, R163). -/
namespace Sys2Proof.Machine

/-- What a lane does: its number and the words of sources a, b and c give a word and flags. -/
abbrev LaneFn := Nat → Nat → Nat → Nat → Nat × Flags

def orFlags (fs : List Flags) : Flags := fs.foldl (· ||| ·) 0

/-! ### Integer lanes (R154, R156) -/

def intOp (f : W32 → W32 → W32) : LaneFn := fun _ a b _ => ((f (w32 a) (w32 b)).toNat, 0)

def maxI (a b : Nat) : Nat := if (w32 a).toInt < (w32 b).toInt then b else a
def minI (a b : Nat) : Nat := if (w32 b).toInt < (w32 a).toInt then b else a

/-! ### F32 lanes (R152, R157, R161) -/

def isNanF (a : Nat) : Bool := (fmtF32.unpack a).isNan
def isSnanF (a : Nat) : Bool := (fmtF32.unpack a).isSnan

/-- Invalid when one of the words is a signaling NaN. -/
def snanFlag (a b : Nat) : Flags := if isSnanF a || isSnanF b then flInvalid else 0

/-- The larger or smaller of two F32 words: a NaN gives the default NaN, +0 ranks above −0. -/
def pickF (larger : Bool) (a b : Nat) : Nat × Flags :=
  if isNanF a || isNanF b then (fmtF32.nanWord, snanFlag a b)
  else if (f32Rank a < f32Rank b) = larger then (b, 0) else (a, 0)

/-- |a| or −a: the sign bit changed, a NaN kept as the default NaN, no flag. -/
def signF (f : W32 → W32) (a : Nat) : Nat × Flags :=
  if isNanF a then (fmtF32.nanWord, 0) else ((f (w32 a)).toNat, 0)

/-- The predicates of VCMP on F32 words (R157). -/
def cmpF (fn a b : Nat) : Bool :=
  let x := fmtF32.unpack a
  let y := fmtF32.unpack b
  let un := x.isNan || y.isNan
  match fn with
  | 0 => !un && x.eqv y
  | 1 => un || !x.eqv y
  | 2 => !un && x.lt y
  | 3 => !un && !y.lt x
  | 4 => !un && y.lt x
  | 5 => !un && !x.lt y
  | _ => un

def cmpI (fn a b : Nat) : Bool :=
  let x := (w32 a).toInt
  let y := (w32 b).toInt
  match fn with
  | 0 => decide (x = y)
  | 1 => decide (x ≠ y)
  | 2 => decide (x < y)
  | 3 => decide (x ≤ y)
  | 4 => decide (y < x)
  | 5 => decide (y ≤ x)
  | _ => false

/-! ### Reductions (R158 to R161) -/

/-- One level of the tree: neighbours combined, the lower index on the left. -/
def treeLevel (f : Nat → Nat → Nat × Flags) : List Nat → List Nat × Flags
  | a :: b :: rest =>
    let r := f a b
    let t := treeLevel f rest
    (r.1 :: t.1, r.2 ||| t.2)
  | l => (l, 0)

/-- `n` levels of the tree; the word left and the flags raised. -/
def treeReduce (f : Nat → Nat → Nat × Flags) : Nat → List Nat → Nat × Flags
  | 0, l => (l.headD 0, 0)
  | n + 1, l =>
    let t := treeLevel f l
    let r := treeReduce f n t.1
    (r.1, t.2 ||| r.2)

/-- What a reduction is: from elements that are present or not, in index order, its result and
flags. -/
abbrev RedFn := List (Option Nat) → Nat × Flags

/-- A tree reduction with its neutral element and its empty result. -/
def treeRed (levels : Nat) (f : Nat → Nat → Nat × Flags) (neutral empty : Nat) : RedFn := fun xs =>
  if xs.all Option.isNone then (empty, flEmpty)
  else treeReduce f levels (xs.map fun x => x.getD neutral)

/-- The present elements with their indices. -/
def present : Nat → List (Option Nat) → List (Nat × Nat)
  | _, [] => []
  | i, some x :: xs => (i, x) :: present (i + 1) xs
  | i, none :: xs => present (i + 1) xs

/-- Maximum or minimum over F32 elements: a NaN among them gives the default NaN (R161). -/
def extRedF (larger : Bool) (empty : Nat) : RedFn := fun xs =>
  match present 0 xs with
  | [] => (empty, flEmpty)
  | p :: ps =>
    let all := p :: ps
    if all.any fun e => isNanF e.2 then
      (fmtF32.nanWord, if all.any fun e => isSnanF e.2 then flInvalid else 0)
    else ((ps.foldl (fun m e => (pickF larger m e.2).1) p.2), 0)

def extRedI (larger : Bool) (empty : Nat) : RedFn := fun xs =>
  match present 0 xs with
  | [] => (empty, flEmpty)
  | p :: ps => (ps.foldl (fun m e => if larger then maxI m e.2 else minI m e.2) p.2, 0)

/-- The index of the extreme element; the lowest one among equals, and of the lowest NaN when there
is one (R161). -/
def argRedF (larger : Bool) : RedFn := fun xs =>
  match present 0 xs with
  | [] => (0xFFFFFFFF, flEmpty)
  | p :: ps =>
    let all := p :: ps
    match all.find? fun e => isNanF e.2 with
    | some e => (e.1, if all.any fun e => isSnanF e.2 then flInvalid else 0)
    | none =>
      ((ps.foldl (fun (m : Nat × Nat) e =>
        if larger then (if f32Rank m.2 < f32Rank e.2 then e else m)
        else (if f32Rank e.2 < f32Rank m.2 then e else m)) p).1, 0)

def argRedI (larger : Bool) : RedFn := fun xs =>
  match present 0 xs with
  | [] => (0xFFFFFFFF, flEmpty)
  | p :: ps =>
    ((ps.foldl (fun (m : Nat × Nat) e =>
      if larger then (if (w32 m.2).toInt < (w32 e.2).toInt then e else m)
      else (if (w32 e.2).toInt < (w32 m.2).toInt then e else m)) p).1, 0)

def f32NegZero : Nat := 0x80000000
def f32One : Nat := 0x3F800000
def f32Inf : Nat := 0x7F800000
def f32NegInf : Nat := 0xFF800000

def addF (a b : Nat) : Nat × Flags := fmtF32.addW a b
def mulF (a b : Nat) : Nat × Flags := fmtF32.mulW a b
def andI (a b : Nat) : Nat × Flags := ((w32 a &&& w32 b).toNat, 0)
def orI (a b : Nat) : Nat × Flags := ((w32 a ||| w32 b).toNat, 0)

/-- The reductions over `2 ^ levels` places by their function number 0 to 7, for F32 or I32
elements. -/
def redFn (levels : Nat) (i32 : Bool) : Nat → RedFn
  | 0 => treeRed levels addF f32NegZero 0
  | 1 => treeRed levels mulF f32One f32One
  | 2 => if i32 then extRedI true 0x80000000 else extRedF true f32NegInf
  | 3 => if i32 then extRedI false 0x7FFFFFFF else extRedF false f32Inf
  | 4 => treeRed levels andI 0xFFFFFFFF 0xFFFFFFFF
  | 5 => treeRed levels orI 0 0
  | 6 => if i32 then argRedI true else argRedF true
  | _ => if i32 then argRedI false else argRedF false

end Sys2Proof.Machine
end

