-- ==== Sys2Proof/Machine/Vector.lean ====
section
/-! DEFINITION. The VX slot (R140 to R165, R189 to R192): which words are legal, and what each
operation does. -/
namespace Sys2Proof.Machine

/-! ### Slots of the bundle in flight -/

/-- Mark a slot of the latched bundle as having acted. -/
def Cell.markDone (c : Cell) (slot : Nat) : Cell :=
  { c with seq := { c.seq with cur := c.seq.cur.map fun l => { l with done := setBit l.done slot true } } }

/-- The bundle that cell `k` issued in this cycle, when the slot has not acted yet. -/
def State.slotReady (s : State) (k : CellId) (slot : Nat) : Option Latched :=
  match (s.cell k).seq.cur with
  | some l => if l.at_ = s.cy && !bitAt l.done slot then some l else none
  | none => none

/-- Let a slot of the bundle issued in this cycle act, when it holds the operation asked for. -/
def State.runSlot (s : State) (k : CellId) (slot : Nat) (is : Latched → Bool)
    (run : State → Latched → State) : State :=
  match s.slotReady k slot with
  | some l => if is l then run (s.setCell k ((s.cell k).markDone slot)) l else s
  | none => s

/-- A slot operation that acts on its own cell and the links around it. -/
def State.runOut (s : State) (k : CellId) (slot unit_ : Nat) (is : Latched → Bool)
    (f : Env → Latched → Out → Out) : State :=
  s.runSlot k slot is fun s l =>
    let e := s.envOf k
    s.applyOut k l e.off unit_ (f e l (Out.none_ (s.cell k)))

def slMX : Nat := 0
def slVX : Nat := 1
def slLS : Nat := 2
def slRT : Nat := 3
def slCT : Nat := 4

/-! ### Legal words -/

def Operand.isSrc : Operand → Bool
  | .tile _ _ => true
  | .line _ => true
  | .queue _ _ => true
  | .bcast _ => true
  | _ => false

def Operand.isDst : Operand → Bool
  | .tile _ _ => true
  | .line _ => true
  | .queue _ _ => true
  | _ => false

def Operand.isMask : Operand → Bool
  | .mask _ => true
  | _ => false

def Operand.isWrMask : Operand → Bool
  | .mask n => decide (n ≠ 0)
  | _ => false

def Operand.isBcast : Operand → Bool
  | .bcast _ => true
  | _ => false

def Operand.isTile0 : Operand → Bool
  | .tile _ r => decide (r = 0)
  | _ => false

def Operand.isImm (lim : Nat) : Operand → Bool
  | .imm v => decide (v ≤ lim)
  | _ => false

def Operand.isRowDst : Operand → Bool
  | .tile _ _ => true
  | .line _ => true
  | _ => false

/-- Sources of an elementwise operation, by opcode (R191). -/
def vxSources (op : Nat) : Nat :=
  if op = 0x13 || op = 0x02 then 3
  else if (0x04 ≤ op && op ≤ 0x12) || op = 0x16 || op = 0x1C then 2
  else if op = 0x00 || op = 0x30 then 0
  else 1

/-- Types an opcode allows; none is named for the others, and TY is then ignored (R191). -/
def vxTypes (op : Nat) : Option (List Nat) :=
  if op = 0x01 then some [0, 1, 2]
  else if op = 0x02 || op = 0x0E || op = 0x0F || op = 0x1C then some [0, 1]
  else if 0x04 ≤ op && op ≤ 0x0D then some [1]
  else if 0x10 ≤ op && op ≤ 0x1B then some [0]
  else if 0x20 ≤ op && op ≤ 0x2F then
    some (match op % 8 with
      | 0 => [0]
      | 1 => [0]
      | 4 => [1]
      | 5 => [1]
      | _ => [0, 1])
  else none

/-- Whether FN has a listed value, where the operation uses it (R192). -/
def vxFnOk (op fn : Nat) : Bool :=
  if op = 0x03 then decide (fn ≤ 3)
  else if op = 0x1C then decide (fn ≤ 6)
  else if op = 0x1F then decide (fn ≤ 3)
  else true

/-- The operands an opcode allows (R190 to R192). -/
def vxOperandsOk (v : VxWord) : Bool :=
  if v.op = 0x00 then true
  else if v.op = 0x02 then v.dst.isDst && v.sa.isSrc && v.sb.isSrc && v.sc.isMask
  else if v.op = 0x1C then v.dst.isWrMask && v.sa.isSrc && v.sb.isSrc
  else if v.op = 0x1D then v.dst.isWrMask && v.sa.isImm 32
  else if v.op = 0x1E then v.dst.isWrMask && v.sa.isBcast
  else if v.op = 0x1F then v.dst.isWrMask && v.sa.isMask && v.sb.isMask
  else if 0x20 ≤ v.op && v.op ≤ 0x27 then v.dst.isRowDst && v.sa.isSrc
  else if 0x28 ≤ v.op && v.op ≤ 0x2F then v.dst.isDst && v.sa.isTile0 && v.sb.isImm 16
  else if v.op = 0x30 then v.dst.isDst
  else if v.op = 0x03 && 2 ≤ v.fn then v.dst.isDst && v.sa.isSrc && !v.sa.isBcast
  else v.dst.isDst && v.sa.isSrc && (vxSources v.op ≤ 1 || v.sb.isSrc) &&
    (vxSources v.op ≤ 2 || v.sc.isSrc)

/-- Whether a VX word holds no reserved opcode or field value (R174, R189 to R192). -/
def vxLegal (v : VxWord) : Bool :=
  decide (v.op ≤ 0x30) &&
  (match vxTypes v.op with
    | some ts => ts.contains v.ty
    | none => true) &&
  vxFnOk v.op v.fn && vxOperandsOk v

/-! ### Shapes of operations -/

/-- The flags a source adds: those of its unmasked lanes, and invalid for a void row when a lane is
unmasked (R148, R163). -/
def Src.flagsUnder (x : Src) (m : W32) : Flags :=
  orFlags ((List.finRange 32).map fun i => if bitAt m i.val then x.flags[i] else 0) |||
    (if x.void && m ≠ 0 then flInvalid else 0)

/-- Raise flags at the end of the cycle in which the operation's result lands. -/
def Out.raiseFlags (o : Out) (after : Nat) (f : Flags) : Out :=
  if f = 0 then o else o.due after (.flags f)

def zeroSrc : Src := .plain (Vector.replicate 32 0)

/-- Read the first `n` sources; every pop happens, even when another source fails. -/
def Out.readSrcs (o : Out) (l : Latched) (v : VxWord) (f : Form) (n : Nat) :
    Out × Option (Src × Src × Src) :=
  let (o, a) := if 1 ≤ n then o.readSrc l v f v.sa else (o, some zeroSrc)
  let (o, b) := if 2 ≤ n then o.readSrc l v f v.sb else (o, some zeroSrc)
  let (o, c) := if 3 ≤ n then o.readSrc l v f v.sc else (o, some zeroSrc)
  match a, b, c with
  | some a, some b, some c => (o, some (a, b, c))
  | _, _, _ => (o, none)

/-- Lane results and flags under a mask. -/
def lanes (m : W32) (f : Nat → Nat × Flags) : Row × Flags :=
  (Vector.ofFn fun i : Fin 32 => if bitAt m i.val then w32 (f i.val).1 else 0,
   orFlags ((List.range 32).map fun i => if bitAt m i then (f i).2 else 0))

def Out.dst (o : Out) (l : Latched) (v : VxWord) (f : Form) (lat : Nat) (r : Row) : Out :=
  match dstEffect o.cell l v f r with
  | some e => o.due (lat - 1) e
  | none => o

/-- An elementwise operation of `n` sources and latency `lat` (R145, R146). -/
def Out.elem (o : Out) (l : Latched) (v : VxWord) (n : Nat) (fin fout : Form) (lat : Nat)
    (fn : LaneFn) : Out :=
  match o.readSrcs l v fin n with
  | (o, none) => o
  | (o, some (a, b, c)) =>
    let m := o.cell.mask v.msk
    let word := fun (x : Src) i => (x.row.getD i 0).toNat
    let r := lanes m fun i => fn i (word a i) (word b i) (word c i)
    let o := o.dst l v fout lat r.1
    o.raiseFlags (lat - 1) (r.2 ||| a.flagsUnder m ||| b.flagsUnder m ||| c.flagsUnder m)

def Out.dstMask (o : Out) (v : VxWord) (lat : Nat) (m : W32) : Out :=
  match v.dst with
  | .mask n => if n = 0 then o else o.due (lat - 1) (.mask n m)
  | _ => o

/-- A word from 32 bits. -/
def bitsWord (f : Nat → Bool) : W32 :=
  (List.range 32).foldr (fun i acc => if f i then acc ||| (1#32 <<< i) else acc) 0

/-- VCMP: the predicate of each unmasked lane; a masked lane writes 0 (R146, R157). -/
def Out.compare (o : Out) (l : Latched) (v : VxWord) : Out :=
  let f : Form := if v.ty = 1 then .i32 else .f32
  match o.readSrcs l v f 2 with
  | (o, none) => o
  | (o, some (a, b, _)) =>
    let m := o.cell.mask v.msk
    let word := fun (x : Src) i => (x.row.getD i 0).toNat
    let p := fun i => if v.ty = 1 then cmpI v.fn (word a i) (word b i) else cmpF v.fn (word a i) (word b i)
    let fl := fun i => if v.ty = 1 then (0 : Flags) else snanFlag (word a i) (word b i)
    let o := o.dstMask v 2 (bitsWord fun i => bitAt m i && p i)
    o.raiseFlags 1 (orFlags ((List.range 32).map fun i => if bitAt m i then fl i else 0) |||
      a.flagsUnder m ||| b.flagsUnder m)

/-- A lane reduction: one result in all 32 lanes of the destination (R158). DESIGN CHOICE (log 95): of a void
row with every lane masked it sets EMPTY (R160), and nothing for the void row (R148). -/
def Out.laneRed (o : Out) (l : Latched) (v : VxWord) (lat : Nat) : Out :=
  let f : Form := if v.ty = 1 then .i32 else .f32
  match o.readSrc l v f v.sa with
  | (o, none) => o
  | (o, some a) =>
    let m := o.cell.mask v.msk
    let r := redFn 5 (v.ty = 1) (v.op % 8)
      ((List.range 32).map fun i => if bitAt m i then some (a.row.getD i 0).toNat else none)
    let o := o.dst l v (if 6 ≤ v.op % 8 then .i32 else f) lat (Vector.replicate 32 (w32 r.1))
    o.raiseFlags (lat - 1) (r.2 ||| a.flagsUnder m)

/-- A row reduction over rows 0 to k − 1 of one tile, lane by lane (R159). -/
def Out.rowRed (o : Out) (l : Latched) (v : VxWord) (lat : Nat) : Out :=
  let f : Form := if v.ty = 1 then .i32 else .f32
  match v.sa, v.sb with
  | .tile t _, .imm k =>
    let m := o.cell.mask v.msk
    let rows := (List.range 16).map fun r => Smap.find? o.cell.tiles (16 * t + r)
    let void := (rows.take k).any Option.isNone
    let word := fun (r : Option Row) i =>
      match r with
      | some row => (row.getD i 0).toNat
      | none => voidWord f
    let elems := fun i => (List.range 16).map fun r =>
      if r < k then some (word (rows.getD r none) i) else none
    let r := lanes m fun i => redFn 4 (v.ty = 1) (v.op % 8) (elems i)
    let o := o.dst l v (if 6 ≤ v.op % 8 then .i32 else f) lat r.1
    o.raiseFlags (lat - 1) (r.2 ||| (if void && m ≠ 0 then flInvalid else 0))
  | _, _ => o

/-! ### The operations of R191 -/

def vnopRun (_ : Latched) (_ : VxWord) (o : Out) : Out := o

def formOf (ty : Nat) : Form := if ty = 1 then .i32 else if ty = 2 then .narrow else .f32

def vmovRun (l : Latched) (v : VxWord) (o : Out) : Out :=
  o.elem l v 1 (formOf v.ty) (formOf v.ty) 2 fun _ a _ _ => (a, 0)

/-- Lane n takes a where bit n of the mask that SC names is 1, else b. -/
def vselRun (l : Latched) (v : VxWord) (o : Out) : Out :=
  o.elem l v 3 (formOf v.ty) (formOf v.ty) 2 fun i a b c => (if c.testBit i then a else b, 0)

def vcvtRun (l : Latched) (v : VxWord) (o : Out) : Out :=
  match v.fn with
  | 0 => o.elem l v 1 .f32 .i32 3 fun _ a _ _ => f32ToI32 a
  | 1 => o.elem l v 1 .i32 .f32 3 fun _ a _ _ => i32ToF32 (w32 a)
  | 2 => o.elem l v 1 .f32 .narrow 3 fun _ a _ _ =>
      let n := narrowTo v.fmt a
      ((widenFrom v.fmt n.1).1, n.2)
  | _ => o.elem l v 1 .narrow .f32 3 fun _ a _ _ => (a, 0)

def vandRun (l : Latched) (v : VxWord) (o : Out) : Out := o.elem l v 2 .i32 .i32 2 (intOp (· &&& ·))
def vorRun (l : Latched) (v : VxWord) (o : Out) : Out := o.elem l v 2 .i32 .i32 2 (intOp (· ||| ·))
def vxorRun (l : Latched) (v : VxWord) (o : Out) : Out := o.elem l v 2 .i32 .i32 2 (intOp (· ^^^ ·))
def vandnRun (l : Latched) (v : VxWord) (o : Out) : Out :=
  o.elem l v 2 .i32 .i32 2 (intOp fun a b => a &&& ~~~b)
def vshlRun (l : Latched) (v : VxWord) (o : Out) : Out :=
  o.elem l v 2 .i32 .i32 2 (intOp fun a b => a <<< (b.toNat % 32))
def vshrRun (l : Latched) (v : VxWord) (o : Out) : Out :=
  o.elem l v 2 .i32 .i32 2 (intOp fun a b => a >>> (b.toNat % 32))
def vsarRun (l : Latched) (v : VxWord) (o : Out) : Out :=
  o.elem l v 2 .i32 .i32 2 (intOp fun a b => a.sshiftRight (b.toNat % 32))
def viaddRun (l : Latched) (v : VxWord) (o : Out) : Out := o.elem l v 2 .i32 .i32 2 (intOp (· + ·))
def visubRun (l : Latched) (v : VxWord) (o : Out) : Out := o.elem l v 2 .i32 .i32 2 (intOp (· - ·))
def vimulRun (l : Latched) (v : VxWord) (o : Out) : Out := o.elem l v 2 .i32 .i32 3 (intOp (· * ·))

def vmaxRun (l : Latched) (v : VxWord) (o : Out) : Out :=
  o.elem l v 2 (formOf v.ty) (formOf v.ty) 2 fun _ a b _ =>
    if v.ty = 1 then (maxI a b, 0) else pickF true a b

def vminRun (l : Latched) (v : VxWord) (o : Out) : Out :=
  o.elem l v 2 (formOf v.ty) (formOf v.ty) 2 fun _ a b _ =>
    if v.ty = 1 then (minI a b, 0) else pickF false a b

def vaddRun (l : Latched) (v : VxWord) (o : Out) : Out :=
  o.elem l v 2 .f32 .f32 4 fun _ a b _ => addF a b

/-- a − b is a + (−b): the sign of b is changed before the one rounding. -/
def vsubRun (l : Latched) (v : VxWord) (o : Out) : Out :=
  o.elem l v 2 .f32 .f32 4 fun _ a b _ => fmtF32.addV (fmtF32.unpack a) (fmtF32.unpack b).negate

def vmulRun (l : Latched) (v : VxWord) (o : Out) : Out :=
  o.elem l v 2 .f32 .f32 4 fun _ a b _ => mulF a b

def vfmaRun (l : Latched) (v : VxWord) (o : Out) : Out :=
  o.elem l v 3 .f32 .f32 4 fun _ a b c => fmtF32.fmaW Config.fmaZeroInf a b c

def vabsRun (l : Latched) (v : VxWord) (o : Out) : Out :=
  o.elem l v 1 .f32 .f32 2 fun _ a _ _ => signF (· &&& 0x7FFFFFFF) a

def vnegRun (l : Latched) (v : VxWord) (o : Out) : Out :=
  o.elem l v 1 .f32 .f32 2 fun _ a _ _ => signF (· ^^^ 0x80000000) a

def vdivRun (l : Latched) (v : VxWord) (o : Out) : Out :=
  o.elem l v 2 .f32 .f32 12 fun _ a b _ => fmtF32.divW a b

def vsqrtRun (l : Latched) (v : VxWord) (o : Out) : Out :=
  o.elem l v 1 .f32 .f32 12 fun _ a _ _ => fmtF32.sqrtW a

def vrcpRun (l : Latched) (v : VxWord) (o : Out) : Out :=
  o.elem l v 1 .f32 .f32 8 fun _ a _ _ => fmtF32.divW f32One a

def vrsqRun (l : Latched) (v : VxWord) (o : Out) : Out :=
  o.elem l v 1 .f32 .f32 8 fun _ a _ _ => fmtF32.rsqW a

def vexp2Run (l : Latched) (v : VxWord) (o : Out) : Out :=
  o.elem l v 1 .f32 .f32 10 fun _ a _ _ => fmtF32.exp2W a

def vlog2Run (l : Latched) (v : VxWord) (o : Out) : Out :=
  o.elem l v 1 .f32 .f32 10 fun _ a _ _ => fmtF32.log2W a

def vcmpRun (l : Latched) (v : VxWord) (o : Out) : Out := o.compare l v

def vmasknRun (_ : Latched) (v : VxWord) (o : Out) : Out :=
  match v.sa with
  | .imm n => o.dstMask v 2 (bitsWord fun i => decide (i < n))
  | _ => o

def vmaskbRun (_ : Latched) (v : VxWord) (o : Out) : Out :=
  match v.sa with
  | .bcast n => o.dstMask v 2 (o.cell.bc.getD n 0)
  | _ => o

def vmlogRun (_ : Latched) (v : VxWord) (o : Out) : Out :=
  match v.sa, v.sb with
  | .mask a, .mask b =>
    let x := o.cell.mask a
    let y := o.cell.mask b
    o.dstMask v 2 (match v.fn with
      | 0 => x &&& y
      | 1 => x ||| y
      | 2 => x &&& ~~~y
      | _ => x ^^^ y)
  | _, _ => o

def vlsumRun (l : Latched) (v : VxWord) (o : Out) : Out := o.laneRed l v 14
def vlprodRun (l : Latched) (v : VxWord) (o : Out) : Out := o.laneRed l v 14
def vlmaxRun (l : Latched) (v : VxWord) (o : Out) : Out := o.laneRed l v 7
def vlminRun (l : Latched) (v : VxWord) (o : Out) : Out := o.laneRed l v 7
def vlandRun (l : Latched) (v : VxWord) (o : Out) : Out := o.laneRed l v 4
def vlorRun (l : Latched) (v : VxWord) (o : Out) : Out := o.laneRed l v 4
def vlargmaxRun (l : Latched) (v : VxWord) (o : Out) : Out := o.laneRed l v 8
def vlargminRun (l : Latched) (v : VxWord) (o : Out) : Out := o.laneRed l v 8

def vrsumRun (l : Latched) (v : VxWord) (o : Out) : Out := o.rowRed l v 18
def vrprodRun (l : Latched) (v : VxWord) (o : Out) : Out := o.rowRed l v 18
def vrmaxRun (l : Latched) (v : VxWord) (o : Out) : Out := o.rowRed l v 9
def vrminRun (l : Latched) (v : VxWord) (o : Out) : Out := o.rowRed l v 9
def vrandRun (l : Latched) (v : VxWord) (o : Out) : Out := o.rowRed l v 5
def vrorRun (l : Latched) (v : VxWord) (o : Out) : Out := o.rowRed l v 5
def vrargmaxRun (l : Latched) (v : VxWord) (o : Out) : Out := o.rowRed l v 10
def vrargminRun (l : Latched) (v : VxWord) (o : Out) : Out := o.rowRed l v 10

/-- The flag word, as I32, in every unmasked lane (R191). -/
def vflgRun (l : Latched) (v : VxWord) (o : Out) : Out :=
  let r := lanes (o.cell.mask v.msk) fun _ => (o.cell.flags.toNat, 0)
  o.dst l v .i32 2 r.1

/-- The operation of an opcode (R191). -/
def vxRun (op : Nat) : Latched → VxWord → Out → Out :=
  match op with
  | 0x01 => vmovRun
  | 0x02 => vselRun
  | 0x03 => vcvtRun
  | 0x04 => vandRun
  | 0x05 => vorRun
  | 0x06 => vxorRun
  | 0x07 => vandnRun
  | 0x08 => vshlRun
  | 0x09 => vshrRun
  | 0x0A => vsarRun
  | 0x0B => viaddRun
  | 0x0C => visubRun
  | 0x0D => vimulRun
  | 0x0E => vmaxRun
  | 0x0F => vminRun
  | 0x10 => vaddRun
  | 0x11 => vsubRun
  | 0x12 => vmulRun
  | 0x13 => vfmaRun
  | 0x14 => vabsRun
  | 0x15 => vnegRun
  | 0x16 => vdivRun
  | 0x17 => vsqrtRun
  | 0x18 => vrcpRun
  | 0x19 => vrsqRun
  | 0x1A => vexp2Run
  | 0x1B => vlog2Run
  | 0x1C => vcmpRun
  | 0x1D => vmasknRun
  | 0x1E => vmaskbRun
  | 0x1F => vmlogRun
  | 0x20 => vlsumRun
  | 0x21 => vlprodRun
  | 0x22 => vlmaxRun
  | 0x23 => vlminRun
  | 0x24 => vlandRun
  | 0x25 => vlorRun
  | 0x26 => vlargmaxRun
  | 0x27 => vlargminRun
  | 0x28 => vrsumRun
  | 0x29 => vrprodRun
  | 0x2A => vrmaxRun
  | 0x2B => vrminRun
  | 0x2C => vrandRun
  | 0x2D => vrorRun
  | 0x2E => vrargmaxRun
  | 0x2F => vrargminRun
  | 0x30 => vflgRun
  | _ => vnopRun

/-- A row of the VX slot: the operation `op`, when the bundle in flight holds it. -/
def State.vxSlot (s : State) (k : CellId) (op : Nat) (run : Latched → VxWord → Out → Out) : State :=
  s.runOut k slVX unVX (fun l => fldN l.vx 0 6 = op) fun _ l o => run l (vxWord l.vx) o

def execVnop (k : CellId) (s : State) : Host.Outcome State Fault Refusal :=
  s.onChan k.ch fun s => s.vxSlot k 0x00 vnopRun

def execVmov (k : CellId) (s : State) : Host.Outcome State Fault Refusal :=
  s.onChan k.ch fun s => s.vxSlot k 0x01 vmovRun

def execVsel (k : CellId) (s : State) : Host.Outcome State Fault Refusal :=
  s.onChan k.ch fun s => s.vxSlot k 0x02 vselRun

def execVcvt (k : CellId) (s : State) : Host.Outcome State Fault Refusal :=
  s.onChan k.ch fun s => s.vxSlot k 0x03 vcvtRun

def execVand (k : CellId) (s : State) : Host.Outcome State Fault Refusal :=
  s.onChan k.ch fun s => s.vxSlot k 0x04 vandRun

def execVor (k : CellId) (s : State) : Host.Outcome State Fault Refusal :=
  s.onChan k.ch fun s => s.vxSlot k 0x05 vorRun

def execVxor (k : CellId) (s : State) : Host.Outcome State Fault Refusal :=
  s.onChan k.ch fun s => s.vxSlot k 0x06 vxorRun

def execVandn (k : CellId) (s : State) : Host.Outcome State Fault Refusal :=
  s.onChan k.ch fun s => s.vxSlot k 0x07 vandnRun

def execVshl (k : CellId) (s : State) : Host.Outcome State Fault Refusal :=
  s.onChan k.ch fun s => s.vxSlot k 0x08 vshlRun

def execVshr (k : CellId) (s : State) : Host.Outcome State Fault Refusal :=
  s.onChan k.ch fun s => s.vxSlot k 0x09 vshrRun

def execVsar (k : CellId) (s : State) : Host.Outcome State Fault Refusal :=
  s.onChan k.ch fun s => s.vxSlot k 0x0A vsarRun

def execViadd (k : CellId) (s : State) : Host.Outcome State Fault Refusal :=
  s.onChan k.ch fun s => s.vxSlot k 0x0B viaddRun

def execVisub (k : CellId) (s : State) : Host.Outcome State Fault Refusal :=
  s.onChan k.ch fun s => s.vxSlot k 0x0C visubRun

def execVimul (k : CellId) (s : State) : Host.Outcome State Fault Refusal :=
  s.onChan k.ch fun s => s.vxSlot k 0x0D vimulRun

def execVmax (k : CellId) (s : State) : Host.Outcome State Fault Refusal :=
  s.onChan k.ch fun s => s.vxSlot k 0x0E vmaxRun

def execVmin (k : CellId) (s : State) : Host.Outcome State Fault Refusal :=
  s.onChan k.ch fun s => s.vxSlot k 0x0F vminRun

def execVadd (k : CellId) (s : State) : Host.Outcome State Fault Refusal :=
  s.onChan k.ch fun s => s.vxSlot k 0x10 vaddRun

def execVsub (k : CellId) (s : State) : Host.Outcome State Fault Refusal :=
  s.onChan k.ch fun s => s.vxSlot k 0x11 vsubRun

def execVmul (k : CellId) (s : State) : Host.Outcome State Fault Refusal :=
  s.onChan k.ch fun s => s.vxSlot k 0x12 vmulRun

def execVfma (k : CellId) (s : State) : Host.Outcome State Fault Refusal :=
  s.onChan k.ch fun s => s.vxSlot k 0x13 vfmaRun

def execVabs (k : CellId) (s : State) : Host.Outcome State Fault Refusal :=
  s.onChan k.ch fun s => s.vxSlot k 0x14 vabsRun

def execVneg (k : CellId) (s : State) : Host.Outcome State Fault Refusal :=
  s.onChan k.ch fun s => s.vxSlot k 0x15 vnegRun

def execVdiv (k : CellId) (s : State) : Host.Outcome State Fault Refusal :=
  s.onChan k.ch fun s => s.vxSlot k 0x16 vdivRun

def execVsqrt (k : CellId) (s : State) : Host.Outcome State Fault Refusal :=
  s.onChan k.ch fun s => s.vxSlot k 0x17 vsqrtRun

def execVrcp (k : CellId) (s : State) : Host.Outcome State Fault Refusal :=
  s.onChan k.ch fun s => s.vxSlot k 0x18 vrcpRun

def execVrsq (k : CellId) (s : State) : Host.Outcome State Fault Refusal :=
  s.onChan k.ch fun s => s.vxSlot k 0x19 vrsqRun

def execVexp2 (k : CellId) (s : State) : Host.Outcome State Fault Refusal :=
  s.onChan k.ch fun s => s.vxSlot k 0x1A vexp2Run

def execVlog2 (k : CellId) (s : State) : Host.Outcome State Fault Refusal :=
  s.onChan k.ch fun s => s.vxSlot k 0x1B vlog2Run

def execVcmp (k : CellId) (s : State) : Host.Outcome State Fault Refusal :=
  s.onChan k.ch fun s => s.vxSlot k 0x1C vcmpRun

def execVmaskn (k : CellId) (s : State) : Host.Outcome State Fault Refusal :=
  s.onChan k.ch fun s => s.vxSlot k 0x1D vmasknRun

def execVmaskb (k : CellId) (s : State) : Host.Outcome State Fault Refusal :=
  s.onChan k.ch fun s => s.vxSlot k 0x1E vmaskbRun

def execVmlog (k : CellId) (s : State) : Host.Outcome State Fault Refusal :=
  s.onChan k.ch fun s => s.vxSlot k 0x1F vmlogRun

def execVlsum (k : CellId) (s : State) : Host.Outcome State Fault Refusal :=
  s.onChan k.ch fun s => s.vxSlot k 0x20 vlsumRun

def execVlprod (k : CellId) (s : State) : Host.Outcome State Fault Refusal :=
  s.onChan k.ch fun s => s.vxSlot k 0x21 vlprodRun

def execVlmax (k : CellId) (s : State) : Host.Outcome State Fault Refusal :=
  s.onChan k.ch fun s => s.vxSlot k 0x22 vlmaxRun

def execVlmin (k : CellId) (s : State) : Host.Outcome State Fault Refusal :=
  s.onChan k.ch fun s => s.vxSlot k 0x23 vlminRun

def execVland (k : CellId) (s : State) : Host.Outcome State Fault Refusal :=
  s.onChan k.ch fun s => s.vxSlot k 0x24 vlandRun

def execVlor (k : CellId) (s : State) : Host.Outcome State Fault Refusal :=
  s.onChan k.ch fun s => s.vxSlot k 0x25 vlorRun

def execVlargmax (k : CellId) (s : State) : Host.Outcome State Fault Refusal :=
  s.onChan k.ch fun s => s.vxSlot k 0x26 vlargmaxRun

def execVlargmin (k : CellId) (s : State) : Host.Outcome State Fault Refusal :=
  s.onChan k.ch fun s => s.vxSlot k 0x27 vlargminRun

def execVrsum (k : CellId) (s : State) : Host.Outcome State Fault Refusal :=
  s.onChan k.ch fun s => s.vxSlot k 0x28 vrsumRun

def execVrprod (k : CellId) (s : State) : Host.Outcome State Fault Refusal :=
  s.onChan k.ch fun s => s.vxSlot k 0x29 vrprodRun

def execVrmax (k : CellId) (s : State) : Host.Outcome State Fault Refusal :=
  s.onChan k.ch fun s => s.vxSlot k 0x2A vrmaxRun

def execVrmin (k : CellId) (s : State) : Host.Outcome State Fault Refusal :=
  s.onChan k.ch fun s => s.vxSlot k 0x2B vrminRun

def execVrand (k : CellId) (s : State) : Host.Outcome State Fault Refusal :=
  s.onChan k.ch fun s => s.vxSlot k 0x2C vrandRun

def execVror (k : CellId) (s : State) : Host.Outcome State Fault Refusal :=
  s.onChan k.ch fun s => s.vxSlot k 0x2D vrorRun

def execVrargmax (k : CellId) (s : State) : Host.Outcome State Fault Refusal :=
  s.onChan k.ch fun s => s.vxSlot k 0x2E vrargmaxRun

def execVrargmin (k : CellId) (s : State) : Host.Outcome State Fault Refusal :=
  s.onChan k.ch fun s => s.vxSlot k 0x2F vrargminRun

def execVflg (k : CellId) (s : State) : Host.Outcome State Fault Refusal :=
  s.onChan k.ch fun s => s.vxSlot k 0x30 vflgRun

end Sys2Proof.Machine
end

