-- ==== Sys2Proof/Machine/Matrix.lean ====
section
/-! DEFINITION. The MX slot (R106 to R139, R186 to R188), the shutters' check columns and the tally
unit (R246 to R256). -/
namespace Sys2Proof.Machine

/-! ### Formats (R120 to R122) -/

/-- Format class: 1 the 8-bit class, 2 the 4-bit class, 3 the half class, 0 none. -/
def fmtClass (f : Nat) : Nat :=
  match f with
  | 0x1 => 1
  | 0x2 => 1
  | 0x3 => 1
  | 0x4 => 2
  | 0x5 => 1
  | 0x6 => 1
  | 0x7 => 1
  | 0x8 => 1
  | 0x9 => 2
  | 0xA => 1
  | 0xB => 3
  | 0xC => 3
  | _ => 0

def isMx (f : Nat) : Bool := decide (5 ≤ f) && decide (f ≤ 10)

/-- K per cell (R108). -/
def classK (cls : Nat) : Nat := if cls = 2 then 32 else if cls = 3 then 8 else 16

/-- A small float of `eb` exponent and `mb` fraction bits with its bias, as N × 2^e. -/
def smallFloat (eb mb bias code : Nat) : Int × Int :=
  let m := code % 2 ^ mb
  let e := code / 2 ^ mb % 2 ^ eb
  let neg := code.testBit (eb + mb)
  let n : Nat := if e = 0 then m else m + 2 ^ mb
  let x : Int := (if e = 0 then 1 else (e : Int)) - bias - mb
  (if neg then -(n : Int) else n, x)

def smallInt (bits code : Nat) : Int :=
  if code.testBit (bits - 1) then (code % 2 ^ bits : Nat) - 2 ^ bits else (code % 2 ^ bits : Nat)

/-- The value N × 2^e of an element, or `none` for a NaN or an infinity. -/
def elemVal (fmt code : Nat) : Option (Int × Int) :=
  match fmt with
  | 0x1 => if code % 128 = 127 then none else some (smallFloat 4 3 7 code)
  | 0x5 => if code % 128 = 127 then none else some (smallFloat 4 3 7 code)
  | 0x2 => if code / 4 % 32 = 31 then none else some (smallFloat 5 2 15 code)
  | 0x6 => if code / 4 % 32 = 31 then none else some (smallFloat 5 2 15 code)
  | 0x3 => some (smallInt 8 code, 0)
  | 0x4 => some (smallInt 4 code, 0)
  | 0x7 => some (smallFloat 2 3 1 (code % 64))
  | 0x8 => some (smallFloat 3 2 3 (code % 64))
  | 0x9 => some (smallFloat 2 1 1 (code % 16))
  | 0xA => some (smallInt 8 code, -6)
  | _ => none

/-- An E8M0 scale as an exponent, or `none` for 0xFF (R121, R122). -/
def e8m0 (b : Nat) : Option Int := if b = 255 then none else some ((b : Int) - 127)

/-- The half formats as binary formats. -/
def halfFmt (f : Nat) : Fmt := if f = 0xB then fmtBF16 else fmtFP16

/-! ### The configuration word (R123, R124, R129, R136) -/

structure Strand where
  afmt : Nat
  wfmt : Nat
  role : Nat
  cmode : Nat
  win : Nat
  soff : Int
  cls : Nat
  deriving DecidableEq, Repr

def strandOf (w : W64) : Strand :=
  let a := fldN w 0 4
  let b := fldN w 4 4
  let c := fmtClass a
  { afmt := a
    wfmt := b
    role := fldN w 8 2
    cmode := fldN w 10 3
    win := fldN w 16 7
    soff := if isMx a || isMx b then fldI w 23 9 else 0
    cls := if c = fmtClass b then c else 0 }

def Strand.lam (g : Strand) : Int := (g.win : Int) - 96 + g.soff
def Strand.isOpen (g : Strand) : Bool := decide (g.role = 1) || decide (g.role = 3)
def Strand.isClose (g : Strand) : Bool := decide (2 ≤ g.role)

/-- The configurations under which MMA may issue (R120, R129). -/
def Strand.okMma (g : Strand) : Bool :=
  decide (g.cls ≠ 0) &&
    (if g.isClose then decide (1 ≤ g.cmode) && decide (g.cmode ≤ (if g.cls = 3 then 3 else 4))
     else decide (g.cmode = 0))

/-- The configuration under which CLOSE may issue: an accumulating close of an exact class. -/
def Strand.okClose (g : Strand) : Bool :=
  (decide (g.cls = 1) || decide (g.cls = 2)) && decide (g.role = 2) && decide (g.cmode = 5)

/-! ### Shutters and their check columns (R114 to R119, R246) -/

def Cell.bank (c : Cell) (b : Bool) : Bank := if b then c.bankB else c.bankA

def Cell.setBank (c : Cell) (b : Bool) (v : Bank) : Cell :=
  if b then { c with bankB := v } else { c with bankA := v }

def Cell.active (c : Cell) : Bank := c.bank c.activeB

/-- The code of weight W[k, n] in the row-pair beats of a bank (R114). -/
def Bank.weight (b : Bank) (cls k n : Nat) : Nat :=
  let row := fun i => (b.rows.getD i Coded.zero).data
  if cls = 3 then fldN (row k) (16 * n) 16
  else if cls = 2 then fldN (row (k / 4)) (256 * (k / 2 % 2) + 8 * n + 4 * (k % 2)) 4
  else fldN (row (k / 2)) (256 * (k % 2) + 8 * n) 8

/-- The scale of column n under a weight format. -/
def Bank.scaleOf (b : Bank) (wfmt n : Nat) : Option Int :=
  if isMx wfmt then e8m0 (fldN b.scale.data (8 * n) 8) else some 0

/-- Sum of a list of dyadic numbers, each (N, e), as one of them. -/
def dyadicSum (xs : List (Int × Int)) : Int × Int :=
  xs.foldl (fun acc x =>
    let e := min acc.2 x.2
    (acc.1 * 2 ^ (acc.2 - e).toNat + x.1 * 2 ^ (x.2 - e).toNat, e)) (0, 0)

/-- A finite binary datum as N × 2^e. -/
def FVal.dyadic : FVal → Option (Int × Int)
  | .fin n m x => some (if n then -(m : Int) else m, x)
  | _ => none

/-- The values of a weight row with their scales, `none` when one of them is not a number. -/
def Bank.rowVals (b : Bank) (wfmt k : Nat) : Option (List (Int × Int)) :=
  let cls := fmtClass wfmt
  (List.range 32).mapM fun n =>
    let code := b.weight cls k n
    if cls = 3 then FVal.dyadic ((halfFmt wfmt).unpack code)
    else
      match elemVal wfmt code, b.scaleOf wfmt n with
      | some v, some s => some (v.1, v.2 + s)
      | _, _ => none

/-- The check-column entry of weight row k (R246): ρ(C_k), or C_k and A_k rounded to binary64. The
entry of a row with a value that is no number is not stated: a free value. -/
def Bank.checkEntry (b : Bank) (wfmt k : Nat) : Nat × Nat :=
  match b.rowVals wfmt k with
  | some vs =>
    if fmtClass wfmt = 3 then
      let c := dyadicSum vs
      let a := dyadicSum (vs.map fun v => (Int.ofNat v.1.natAbs, v.2))
      ((fmtF64.roundInt c.1 c.2).1, (fmtF64.roundInt a.1 a.2).1)
    else (vs.foldl (fun acc v => (acc + residue v.1 v.2) % tallyP) 0, 0)
  | none => Config.badRowCheck wfmt
      ((List.range 32).foldl (fun acc n => acc * 2 ^ 24 + b.weight (fmtClass wfmt) k n * 2 ^ 8 +
        fldN b.scale.data (8 * n) 8) 0)

/-- Weight rows that row pair `rp` holds. -/
def pairRows (cls rp : Nat) : List Nat :=
  if cls = 1 then [2 * rp, 2 * rp + 1]
  else if cls = 2 then [4 * rp, 4 * rp + 1, 4 * rp + 2, 4 * rp + 3]
  else if cls = 3 then [rp] else []

def Bank.reform (b : Bank) (wfmt : Nat) (rows : List Nat) : Bank :=
  { b with checks := rows.foldl (fun cs k => cs.set! k (b.checkEntry wfmt k)) b.checks }

/-- A load under another WFMT first clears the written mask (R116). -/
def Bank.loadUnder (b : Bank) (wfmt : Nat) (cy : Nat) : Bank :=
  let w := BitVec.ofNat 4 wfmt
  { b with
    written := if b.wfmt = some w then b.written else 0
    wfmt := some w
    readyAt := cy + 2 }

def Bank.loadPair (b : Bank) (wfmt cy rp : Nat) (v : Beat) : Bank :=
  let b := b.loadUnder wfmt cy
  let b := { b with rows := b.rows.set! rp v, written := setBit b.written rp true }
  b.reform wfmt (pairRows (fmtClass wfmt) rp)

def Bank.loadScale (b : Bank) (wfmt cy : Nat) (v : Bundle) : Bank :=
  let b := b.loadUnder wfmt cy
  let b := { b with scale := v, written := setBit b.written 8 true }
  b.reform wfmt (List.range (if fmtClass wfmt = 0 then 0 else classK (fmtClass wfmt)))

/-- Complete in a cycle: every row pair, and the scale row when the recorded format is MX, loaded,
and the check column formed (R116). -/
def Bank.complete (b : Bank) (cy : Nat) : Bool :=
  decide (fldN b.written 0 8 = 255) && decide (b.readyAt ≤ cy) &&
    match b.wfmt with
    | some w => !isMx w.toNat || bitAt b.written 8
    | none => false

/-! ### SHUTTER faults (R139, R240) -/

def shPARITY : Nat := 1
def shLOADACTIVE : Nat := 2
def shINCOMPLETE : Nat := 3
def shNOTCONFIGURED : Nat := 4
def shISSUERATE : Nat := 5
def shMISSINGSUM : Nat := 6
def shSTRAYSUM : Nat := 7
def shMISMATCH : Nat := 8
def shEMPTY : Nat := 9

def Out.shutter (o : Out) (l : Latched) (cause unit_ rp : Nat) (parity : Bool) : Out :=
  o.fault clShutter cause unit_
    (w64 (boolBit o.cell.activeB + 2 * rp + 16 * boolBit parity)) l.idx

/-! ### Rows (R124 to R128, R134, R247) -/

/-- The codewords of a sum-lane beat. -/
def SumBeat.coded (b : SumBeat) : Coded 24 :=
  ⟨BitVec.ofNat _ (b.sums.zipIdx.foldl (fun acc x => acc + (x.1.emod (2 ^ 96)).toNat * 2 ^ (96 * x.2)) 0), b.resid, b.poison⟩

/-- A cell receives a beat: its codewords are checked and corrected (R351). -/
def SumBeat.receive (b : SumBeat) : SumBeat × Checked :=
  if b.resid = 0 && b.poison = 0 then (b, ⟨0, 0, none⟩)
  else
    let r := Coded.check b.coded
    ({ b with
      sums := (List.range 32).map fun n => fldI r.1.data (96 * n) 96
      resid := r.1.resid
      poison := r.1.poison }, r.2)

/-- The sums that a cell takes from its sum lane, and what is bad in them. -/
def Out.takeSum (o : Out) (b : Option SumBeat) : Out × Option SumBeat × Bad :=
  match b with
  | some b => let r := b.receive
    (o.count r.2, some r.1, r.2.bad)
  | none => (o, none, none)

/-- The sideband of a row and a cell's own class and window (R123). -/
def Strand.differs (g : Strand) (b : Option SumBeat) : Bool :=
  match b with
  | some b => decide (b.cls ≠ g.cls) || decide (b.win.toNat ≠ g.win) || decide (b.soff.toInt ≠ g.soff)
  | none => false

/-- The beat that a row starts from: the open cell's, or the one that arrived. -/
def rowStart (g : Strand) (c : Cell) (b : Option SumBeat) : SumBeat :=
  match b with
  | some b => b
  | none => ⟨List.replicate 32 0, 0, 0, 0, 0, 0, c.activeB, g.cls, BitVec.ofNat 7 g.win,
      BitVec.ofInt 9 g.soff, 0, 0, 0⟩

/-- The code of activation element k of a 128-bit group (R187). -/
def actCode (cls : Nat) (grp : BitVec 128) (k : Nat) : Nat :=
  if cls = 3 then fldN grp (16 * k) 16 else if cls = 2 then fldN grp (4 * k) 4 else fldN grp (8 * k) 8

def sumLimit : Int := 2 ^ 95 - 1

/-- One exact lane: its sum, and whether it lost bits, saturated, or met an invalid product. -/
def exactLane (g : Strand) (bank : Bank) (acts : List (Option (Int × Int))) (n : Nat) (s0 : Int) :
    Int × Bool × Bool × Bool :=
  let ws := bank.scaleOf g.wfmt n
  let r := acts.zipIdx.foldl (fun (acc : Int × Bool × Bool) a =>
    match a.1, elemVal g.wfmt (bank.weight g.cls a.2 n), ws with
    | some x, some w, some s =>
      let p := x.1 * w.1
      let e := x.2 + w.2 + s - g.lam
      if 0 ≤ e then (acc.1 + p * 2 ^ e.toNat, acc.2.1, acc.2.2)
      else
        let d : Int := 2 ^ (-e).toNat
        (acc.1 + p / d, acc.2.1 || decide (p % d ≠ 0), acc.2.2)
    | _, _, _ => (acc.1, acc.2.1, true)) (s0, false, false)
  if sumLimit < r.1 then (sumLimit, r.2.1, true, r.2.2)
  else if r.1 < -sumLimit then (-sumLimit, r.2.1, true, r.2.2)
  else (r.1, r.2.1, false, r.2.2)

/-- A row of the exact classes: a lane that arrives with OVER passes unchanged (R126). -/
def exactRow (g : Strand) (bank : Bank) (grp : BitVec 128) (ascale : Option Int) (b : SumBeat) :
    SumBeat :=
  let acts := (List.range (classK g.cls)).map fun k =>
    match elemVal g.afmt (actCode g.cls grp k), ascale with
    | some v, some s => some (v.1, v.2 + s)
    | _, _ => none
  let ls := (List.range 32).map fun n =>
    let s := b.sums.getD n 0
    if bitAt b.overs n then (s, false, false, false) else exactLane g bank acts n s
  let chk := acts.zipIdx.foldl (fun acc a =>
    match a.1 with
    | some v => (acc + residue v.1 v.2 * (bank.checks.getD a.2 (0, 0)).1) % tallyP
    | none => acc) b.check
  { b with
    sums := ls.map (·.1)
    loss := b.loss ||| bitsWord fun n => (ls.getD n (0, false, false, false)).2.1
    overs := b.overs ||| bitsWord fun n => (ls.getD n (0, false, false, false)).2.2.1
    invalid := b.invalid ||| bitsWord fun n => (ls.getD n (0, false, false, false)).2.2.2
    check := chk
    cells := b.cells + 1 }

/-- Sum two words in a format, collecting flags. -/
def addIn (f : Fmt) (a b : Nat × Flags) : Nat × Flags :=
  let r := f.addW a.1 b.1
  (r.1, r.2 ||| a.2 ||| b.2)

/-- One half-class lane: products rounded to FP32 and the fixed tree of additions (R134). -/
def halfLane (g : Strand) (bank : Bank) (acts : List Nat) (n s0 : Nat) : Nat × Flags :=
  let p := fun k =>
    let va := (halfFmt g.afmt).unpack (acts.getD k 0)
    let vw := (halfFmt g.wfmt).unpack (bank.weight 3 k n)
    let m := va.mulV vw
    let r := fmtF32.pack m.1
    (r.1, r.2 ||| m.2)
  addIn fmtF32 (s0, 0)
    (addIn fmtF32 (addIn fmtF32 (addIn fmtF32 (p 0) (p 1)) (addIn fmtF32 (p 2) (p 3)))
      (addIn fmtF32 (addIn fmtF32 (p 4) (p 5)) (addIn fmtF32 (p 6) (p 7))))

/-- A row of the half class, with LOSS for inexact and OVER for overflow (R128). -/
def halfRow (g : Strand) (bank : Bank) (grp : BitVec 128) (b : SumBeat) : SumBeat :=
  let acts := (List.range 8).map fun k => actCode 3 grp k
  let ls := (List.range 32).map fun n => halfLane g bank acts n (b.sums.getD n 0).toNat
  let fl := fun (f : Flags) => bitsWord fun n => decide ((ls.getD n (0, 0)).2 &&& f ≠ 0)
  let term := fun (w : Nat) (neg : Bool) (acc : Nat) (c : Nat) =>
    let x := (fmtF64.pack ((halfFmt g.afmt).unpack w)).1
    let x := if neg then x % fmtF64.signWord else x
    (fmtF64.addW acc (fmtF64.mulW x c).1).1
  let e := acts.zipIdx.foldl (fun acc a => term a.1 false acc (bank.checks.getD a.2 (0, 0)).1) b.check
  let a := acts.zipIdx.foldl (fun acc a => term a.1 true acc (bank.checks.getD a.2 (0, 0)).2) b.checkA
  { b with
    sums := ls.map fun r => (r.1 : Int)
    loss := b.loss ||| fl flInexact
    overs := b.overs ||| fl flOverflow
    invalid := b.invalid ||| fl flInvalid
    check := e
    checkA := a
    cells := b.cells + 1 }

/-! ### Tally and close (R129 to R132, R249 to R256) -/

def foundResidue (xs : List Int) : Nat := xs.foldl (fun acc x => (acc + residue x 0) % tallyP) 0

/-- The tally of an exact row: counted, and a RESIDUE fault on a mismatch (R249, R254). -/
def Out.tallyExact (o : Out) (g : Strand) (b : SumBeat) : Out :=
  if b.loss = 0 && b.overs = 0 && b.invalid = 0 then
    let f := foundResidue b.sums
    let e := residue b.check (-g.lam)
    let o := { o with checked := o.checked + 32 }
    if f = e then o else o.fault clTally 1 unTally (w64 e) (w64 f)
  else { o with unchecked := o.unchecked + 32 }

/-- |x| ≤ y for dyadic numbers, and a dyadic number as binary64. -/
def dyadicLe (x y : Int × Int) : Bool :=
  let e := min x.2 y.2
  decide ((x.1.natAbs : Int) * 2 ^ (x.2 - e).toNat ≤ y.1 * 2 ^ (y.2 - e).toNat)

/-- The tally of a half-class row: |T − E| ≤ B (R253). -/
def Out.tallyHalf (o : Out) (b : SumBeat) : Out :=
  let vs := b.sums.mapM fun x => FVal.dyadic (fmtF32.unpack x.toNat)
  let chk := FVal.dyadic (fmtF64.unpack b.check)
  let chkA := FVal.dyadic (fmtF64.unpack b.checkA)
  match vs, chk, chkA with
  | some vs, some e, some a =>
    if b.invalid = 0 && b.overs = 0 then
      let t := dyadicSum vs
      let t := ((FVal.dyadic (fmtF64.unpack (fmtF64.roundInt t.1 t.2).1)).getD (0, 0))
      let d := dyadicSum [t, (-e.1, e.2)]
      let n : Int := b.cells
      let bound := dyadicSum [((n + 3) * a.1, a.2 - 23), (a.1, a.2 - 46), (n, -140)]
      let o := { o with checked := o.checked + 32 }
      if dyadicLe d bound then o
      else o.fault clTally 2 unTally (w64 (fmtF64.roundInt d.1.natAbs d.2).1)
        (w64 (fmtF64.roundInt bound.1 bound.2).1)
    else { o with unchecked := o.unchecked + 32 }
  | _, _, _ => { o with unchecked := o.unchecked + 32 }

def Out.tally (o : Out) (g : Strand) (b : SumBeat) : Out :=
  if g.cls = 3 then o.tallyHalf b else o.tallyExact g b

/-- The flags a close takes from the sideband (R130). -/
def sideFlags (g : Strand) (b : SumBeat) : Flags :=
  (if b.loss = 0 then 0 else if g.cls = 3 then flInexact else flLoss) |||
    (if b.overs = 0 then 0 else if g.cls = 3 then flOverflow else flOver) |||
    (if b.invalid = 0 then 0 else flInvalid)

/-- One lane at a computing close, by CMODE (R129, R130). -/
def closeLane (g : Strand) (inv : Bool) (s : Int) : Nat × Flags :=
  let tgt := if g.cmode = 2 then fmtBF16 else if g.cmode = 3 then fmtFP16 else fmtF32
  if inv then (if g.cmode = 4 then 0x80000000 else tgt.nanWord, flInvalid)
  else if g.cmode = 4 then
    if 2 ^ 31 ≤ s then (0x7FFFFFFF, flOver)
    else if s < -2 ^ 31 then (0x80000000, flOver)
    else ((w32 (s.emod (2 ^ 32)).toNat).toNat, 0)
  else if g.cls = 3 then
    if g.cmode = 1 then (s.toNat, 0) else narrowTo tgt s.toNat
  else tgt.roundInt s g.lam

/-- A computing close delivers its line or half-line and its flags (R111, R130). -/
def Out.deliver (o : Out) (l : Latched) (g : Strand) (w : BitVec 40) (b : SumBeat) : Out :=
  let o := o.tally g b
  let r := (List.range 32).map fun n => closeLane g (bitAt b.invalid n) (b.sums.getD n 0)
  let word := fun n => (r.getD n (0, 0)).1
  let a := genLine o.cell.index l (fldN w 32 7)
  let o := if g.cmode = 2 || g.cmode = 3 then
      o.due 5 (.half a (bitAt w 39) (Coded.ofData (packBeat 16 32 word)))
    else o.due 5 (.line a (Coded.ofData (packLine 32 32 word)))
  o.raiseFlags 5 (sideFlags g b ||| orFlags (r.map (·.2)))

/-- A format is OFF: the cell takes no part (R120). -/
def Strand.off (g : Strand) : Bool := fmtClass g.afmt = 0 || fmtClass g.wfmt = 0

/-- An MMA that faults drives its row with INVALID on all lanes; a close delivers nothing (R139, R235). A
cell that is OFF starts no row (log 78). DESIGN CHOICE (log 93): where no beat arrived, a middle cell drives
a row of zeros with its own parity, class, WIN and SOFF. -/
def Out.faultedRow (o : Out) (g : Strand) (b : Option SumBeat) : Out :=
  if g.off && b.isNone then o
  else if g.isClose then { o with unchecked := o.unchecked + 32 }
  else { o with sumOut := some { rowStart g o.cell b with invalid := BitVec.allOnes 32 } }

/-- Fetch a line into a buffer (R137). -/
def Out.fetchBuf (o : Out) (a : Nat) (scale : Bool) : Out :=
  let r := o.readLine a
  { r.1 with cell := if scale then { r.1.cell with scaleBuf := some r.2.1 }
                     else { r.1.cell with actBuf := some r.2.1 } }

/-- A poisoned codeword of a buffer that an MMA uses: uncorrectable when this MMA's fetch found
it (R354). -/
def bufBad (old : Option Line) (buf : Option Line) (i : Nat) : Bad :=
  match buf with
  | none => none
  | some b =>
    if bitAt b.poison i then
      let before := match old with
        | some x => bitAt x.poison i
        | none => true
      some (0, !before, (syndromeOf (fld b.resid (16 * i) 16)).word)
    else none

/-- The causes for which an MMA faults, in ascending order of their codes (R139). An accumulating close makes
no parity check (R118). DESIGN CHOICE (log 92): a bank that was never loaded has no recorded WFMT, and that
differs from any. -/
def mmaCauses (e : Env) (g : Strand) (c : Cell) (b : Option SumBeat) : List Nat :=
  let ok := g.okMma
  let act := c.active
  let take := !g.isOpen
  let differs := g.differs b
  let par := match b with
    | some b => b.parity != c.activeB
    | none => false
  (if take && par && !(g.isClose && g.cmode = 5) then [shPARITY] else []) ++
  (if ok && !act.complete e.cy then [shINCOMPLETE] else []) ++
  (if ok then [] else [shNOTCONFIGURED]) ++
  (if c.halfAt = some (e.cy - 1) && e.cy ≠ 0 then [shISSUERATE] else []) ++
  (if take && b.isNone then [shMISSINGSUM] else []) ++
  (if (take && differs) || (ok && act.wfmt ≠ some (BitVec.ofNat 4 g.wfmt)) then [shMISMATCH] else []) ++
  (if ok && (c.actBuf.isNone || (isMx g.afmt && c.scaleBuf.isNone)) then [shEMPTY] else [])

/-- MMA (R110 to R112, R116 to R118, R123 to R130, R134, R137, R138, R187). DESIGN CHOICE (log 91): one of the
half class that itself raises ISSUE_RATE does not occupy the array for the cycle after it. -/
def mmaRun (e : Env) (l : Latched) (o : Out) : Out :=
  let w := l.mx
  let g := strandOf o.cell.cfg
  let oldA := if bitAt w 4 then some (Smap.get Coded.zero o.cell.pad (genLine o.cell.index l (fldN w 5 7)))
    else none
  let oldS := if bitAt w 17 then some (Smap.get Coded.zero o.cell.pad (genLine o.cell.index l (fldN w 18 7)))
    else none
  let o := if bitAt w 4 then o.fetchBuf (genLine o.cell.index l (fldN w 5 7)) false else o
  let o := if bitAt w 17 then o.fetchBuf (genLine o.cell.index l (fldN w 18 7)) true else o
  let t := ({ o with sumTaken := !g.isOpen } : Out).takeSum (if g.isOpen then none else e.sum)
  let o := t.1
  let b := t.2.1
  let causes := mmaCauses e g o.cell b
  let grp := (fldN w 12 3 + l.sel (fldN w 15 2)) % 8
  let sby := genLine o.cell.index l (fldN w 25 7) % 128
  let o := if g.cls = 3 && g.okMma && !causes.contains shISSUERATE then
      { o with cell := { o.cell with halfAt := some e.cy } } else o
  if causes ≠ [] then
    let o := causes.foldl (fun o k => o.shutter l k (if k = shMISSINGSUM then unSumLane else unMX) 0
      (match b with
        | some b => b.parity
        | none => false)) o
    o.faultedRow g b
  else
    let p := o.consume unSumLane 0 t.2.2
    let o := p.1
    let a := o.consume unMX grp (bufBad oldA o.cell.actBuf grp)
    let s := if isMx g.afmt then a.1.consume unMX (8 + sby / 16) (bufBad oldS o.cell.scaleBuf (sby / 16))
      else (a.1, true)
    let o := s.1
    if p.2 && a.2 && s.2 then
      let data := match o.cell.actBuf with
        | some x => fld x.data (128 * grp) 128
        | none => 0
      let asc := if isMx g.afmt then
          match o.cell.scaleBuf with
          | some x => e8m0 (fldN x.data (8 * sby) 8)
          | none => none
        else some 0
      let st := rowStart g o.cell b
      let row := if g.cls = 3 then halfRow g o.cell.active data st
        else exactRow g o.cell.active data asc st
      if g.isClose then o.deliver l g w row else { o with sumOut := some row }
    else o.faultedRow g b

/-! ### The accumulating close (R131 to R133, R188, R250) -/

/-- A lane of a carry: invalid, saturated, or a count of units. -/
inductive CarryLane where
  | inv
  | sat (neg : Bool)
  | num (v : Int)
  deriving DecidableEq, Repr

def carryMax : Int := 2 ^ 63 - 1

def carryOf (w : W64) : CarryLane :=
  let v := w.toInt
  if v = -2 ^ 63 then .inv
  else if v = carryMax then .sat false
  else if v = -carryMax then .sat true
  else .num v

/-- The total of a carry lane and an arriving sum (R131). -/
def CarryLane.add (r : CarryLane) (inv : Bool) (s : Int) : CarryLane :=
  if inv then .inv
  else
    match r with
    | .num v => .num (v + s)
    | x => x

/-- A total stored in carry form: its word and the flag it raises. DESIGN CHOICE (log 94): a lane that is
invalid only in the carry that was read raises INVALID too. -/
def CarryLane.store : CarryLane → Nat × Flags
  | .inv => (2 ^ 63, flInvalid)
  | .sat n => ((if n then 2 ^ 64 - carryMax else carryMax).toNat, flOver)
  | .num v =>
    if carryMax ≤ v then (carryMax.toNat, flOver)
    else if v ≤ -carryMax then ((2 ^ 64 - carryMax).toNat, flOver)
    else ((v.emod (2 ^ 64)).toNat, 0)

/-- A total rounded to FP32 at ACC_FP32; adding to a saturated lane sets OVER as well. -/
def CarryLane.toF32 (lam : Int) : CarryLane → Nat × Flags
  | .inv => (fmtF32.nanWord, flInvalid)
  | .sat n => (fmtF32.signed n fmtF32.infWord, flOverflow ||| flOver)
  | .num v => fmtF32.roundInt v lam

def CarryLane.isNum : CarryLane → Bool
  | .num _ => true
  | _ => false

def CarryLane.val : CarryLane → Int
  | .num v => v
  | _ => 0

/-- Whether a total fits the carry form unsaturated. -/
def CarryLane.fits : CarryLane → Bool
  | .num v => decide (v < carryMax) && decide (-carryMax < v)
  | _ => false

/-- Read the two carry lines from line `a` on; `none` when one is bad. -/
def Out.readCarry (o : Out) (a : Nat) : Out × Option (List CarryLane) :=
  let r0 := o.readLine a
  let q0 := r0.1.consume unMX (8 * a) r0.2.2
  let a1 := (a + 1) % 1024
  let r1 := q0.1.readLine a1
  let q1 := r1.1.consume unMX (8 * a1) r1.2.2
  let lane := fun n => carryOf (if n < 16 then fld r0.2.1.data (64 * n) 64
    else fld r1.2.1.data (64 * (n - 16)) 64)
  (q1.1, if q0.2 && q1.2 then some ((List.range 32).map lane) else none)

/-- The carry check (R250). -/
def Out.tallyCarry (o : Out) (reads totals : List CarryLane) (b : SumBeat) (mode : Nat) : Out :=
  let clean := b.overs = 0 && b.invalid = 0 && reads.all CarryLane.isNum &&
    (if mode = 2 then totals.all CarryLane.isNum else totals.all CarryLane.fits)
  let t := foundResidue (totals.map CarryLane.val)
  let r := (foundResidue (reads.map CarryLane.val) + foundResidue b.sums) % tallyP
  if clean && t ≠ r then o.fault clTally 3 unTally (w64 r) (w64 t) else o

/-- The causes for which a CLOSE faults, in ascending order of their codes (R139). -/
def closeCauses (g : Strand) (mode : Nat) (b : Option SumBeat) : List Nat :=
  (if mode = 3 || !g.okClose then [shNOTCONFIGURED] else []) ++
    (if b.isNone then [shMISSINGSUM] else []) ++ (if g.differs b then [shMISMATCH] else [])

/-- CLOSE: one row at an accumulating close. -/
def closeRun (e : Env) (l : Latched) (o : Out) : Out :=
  let w := l.mx
  let g := strandOf o.cell.cfg
  let mode := fldN w 4 2
  let t := ({ o with sumTaken := true } : Out).takeSum e.sum
  let o := t.1
  let rowCounted := fun (o : Out) => if e.sum.isSome then { o with unchecked := o.unchecked + 32 } else o
  let causes := closeCauses g mode t.2.1
  match causes, t.2.1 with
  | [], some b =>
      let p := o.consume unSumLane 0 t.2.2
      let o := p.1
      if !p.2 then rowCounted o
      else
        let q := if mode = 0 then (o, some (List.replicate 32 (CarryLane.num 0)))
          else o.readCarry (genLine o.cell.index l (fldN w 6 7))
        let o := q.1
        match q.2 with
        | none => rowCounted o
        | some reads =>
          let o := o.tallyExact g b
          let totals := reads.zipIdx.map fun r => r.1.add (bitAt b.invalid r.2) (b.sums.getD r.2 0)
          let o := o.tallyCarry reads totals b mode
          let cwr := genLine o.cell.index l (fldN w 13 7)
          if mode = 2 then
            let r := totals.map (CarryLane.toF32 g.lam)
            let o := o.due 3 (.line cwr (Coded.ofData (packLine 32 32 fun n => (r.getD n (0, 0)).1)))
            o.raiseFlags 3 (sideFlags g b ||| orFlags (r.map (·.2)))
          else
            let r := totals.map CarryLane.store
            let word := fun n => (r.getD n (0, 0)).1
            let o := o.due (1 + mode) (.line cwr (Coded.ofData (packLine 64 16 word)))
            let o := o.due (1 + mode)
              (.line ((cwr + 1) % 1024) (Coded.ofData (packLine 64 16 fun n => word (n + 16))))
            o.raiseFlags (1 + mode) (sideFlags g b ||| orFlags (r.map (·.2)))
  | _, b =>
    rowCounted (causes.foldl (fun o k => o.shutter l k (if k = shMISSINGSUM then unSumLane else unMX) 0
      (match b with
        | some b => b.parity
        | none => false)) o)

/-! ### The rows of the MX slot (R186) -/

def mxnopRun (_ : Env) (_ : Latched) (o : Out) : Out := o

/-- MXCFG: the low 64 bits of the named line, in force from c + 2; reserved bits read 0 (R136). -/
def mxcfgRun (_ : Env) (l : Latched) (o : Out) : Out :=
  let a := genLine o.cell.index l (fldN l.mx 4 7)
  let r := Coded.check ((Smap.get Coded.zero o.cell.pad a).part 0 1 : Coded 1)
  let q := (o.count r.2).consume unMX (8 * a) r.2.bad
  if q.2 then q.1.due 1 (.config (fld r.1.data 0 64 &&& 0x00000000FFFF1FFF#64)) else q.1

/-- The operation of an MX slot by its opcode (R186). -/
def mxRun (op : Nat) : Env → Latched → Out → Out :=
  match op with
  | 1 => mxcfgRun
  | 2 => mmaRun
  | 3 => closeRun
  | _ => mxnopRun

def State.mxSlot (s : State) (k : CellId) (op : Nat) (run : Env → Latched → Out → Out) : State :=
  s.runOut k slMX unMX (fun l => fldN l.mx 0 4 = op) run

def execMxnop (k : CellId) (s : State) : Host.Outcome State Fault Refusal :=
  s.onChan k.ch fun s => s.mxSlot k 0 mxnopRun

def execMxcfg (k : CellId) (s : State) : Host.Outcome State Fault Refusal :=
  s.onChan k.ch fun s => s.mxSlot k 1 mxcfgRun

def execMma (k : CellId) (s : State) : Host.Outcome State Fault Refusal :=
  s.onChan k.ch fun s => s.mxSlot k 2 mmaRun

def execClose (k : CellId) (s : State) : Host.Outcome State Fault Refusal :=
  s.onChan k.ch fun s => s.mxSlot k 3 closeRun

end Sys2Proof.Machine
end

