-- ==== Sys2Proof/Machine/LoadStore.lean ====
section
/-! DEFINITION. The LS slot (R193 to R195): half-line and line moves, shutter loads (R114 to R117), the
index table, and the values that come from outside the cell. -/
namespace Sys2Proof.Machine

/-! ### Fields (R193) -/

def lsOp (w : BitVec 48) : Nat := fldN w 0 5
def lsHalf (w : BitVec 48) : Bool := bitAt w 12
def lsQ (w : BitVec 48) : Nat := fldN w 13 3
def lsEtag (w : BitVec 48) : Nat := fldN w 16 3
def lsBank (w : BitVec 48) : Bool := bitAt w 19
/-- The row pair with its index (R194). -/
def lsPair (l : Latched) : Nat := (fldN l.ls 20 3 + l.sel (fldN l.ls 23 2)) % 8
/-- The line that ADDR names. -/
def lsLine (l : Latched) (o : Out) : Nat := genLine o.cell.index l (fldN l.ls 5 7)

/-! ### Operations (R194) -/

def lsnopRun (_ : Env) (_ : Latched) (o : Out) : Out := o

def lpushRun (_ : Env) (l : Latched) (o : Out) : Out :=
  let r := o.readHalf (lsLine l o) (lsHalf l.ls)
  r.1.due 1 (.push (lsQ l.ls) r.2.1)

def spopRun (_ : Env) (l : Latched) (o : Out) : Out :=
  match o.popIn l (lsQ l.ls) (lsEtag l.ls) unLS with
  | (o, some (b, _)) => o.due 1 (.half (lsLine l o) (lsHalf l.ls) b)
  | (o, none) => o

def lcopyRun (_ : Env) (l : Latched) (o : Out) : Out :=
  let r := o.readLine (lsLine l o)
  r.1.due 1 (.line (genLine o.cell.index l (fldN l.ls 25 7)) r.2.1)

/-- SHLD and SHLDS: the beat is popped; into the active bank it is discarded with LOAD_ACTIVE; a load
consumes its codewords (R114 to R117, R353). -/
def Out.shutterLoad (o : Out) (e : Env) (l : Latched) (scale : Bool) : Out :=
  let bank := lsBank l.ls
  let rp := if scale then 0 else lsPair l
  let p := o.popIn l (lsQ l.ls) (lsEtag l.ls) unLS
  if bank = o.cell.activeB then p.1.shutter l shLOADACTIVE unLS rp false
  else
    match p with
    | (o, none) => o
    | (o, some (b, bad)) =>
      let used := match bad with
        | some x => if scale && 2 ≤ x.1 then none else some x
        | none => none
      let q := o.consume unLS (4 * lsQ l.ls) used
      if q.2 then
        let c := q.1.cell
        let wf := fldN c.cfg 4 4
        let v := if scale then (c.bank bank).loadScale wf e.cy (b.part 0 2)
          else (c.bank bank).loadPair wf e.cy rp b
        { q.1 with cell := c.setBank bank v }
      else q.1

def shldRun (e : Env) (l : Latched) (o : Out) : Out := o.shutterLoad e l false
def shldsRun (e : Env) (l : Latched) (o : Out) : Out := o.shutterLoad e l true

/-- IXSET: the index table from a whole line, in force from c + 2 (R176, R194). -/
def ixsetRun (_ : Env) (l : Latched) (o : Out) : Out :=
  let a := lsLine l o
  let r := o.readLine a
  let q := r.1.consume unLS (8 * a) r.2.2
  if q.2 then q.1.due 1 (.index r.2.1.data) else q.1

def ltideRun (e : Env) (l : Latched) (o : Out) : Out :=
  o.due 1 (.line (lsLine l o) (Coded.ofData (e.tick.setWidth 1024)))

/-- LRAND with what its DRBG instance gave: zeros with every codeword poisoned when it is unhealthy
(R488). -/
def lrandRun (r : Option (BitVec 256)) (l : Latched) (o : Out) : Out :=
  o.due 3 (.line (lsLine l o) (match r with
    | some x => Coded.ofData (x.setWidth 1024)
    | none => (Coded.zero : Line).poisonAll))

def lcycRun (e : Env) (l : Latched) (o : Out) : Out :=
  o.due 1 (.line (lsLine l o) (Coded.ofData (BitVec.ofNat 1024 (e.off + e.seqNo.toNat * 2 ^ 64))))

/-- The operation of an LS opcode; LRAND takes its bits from outside the cell. -/
def lsRun (op : Nat) (rand : Option (BitVec 256)) : Env → Latched → Out → Out :=
  match op with
  | 1 => lpushRun
  | 2 => spopRun
  | 3 => lcopyRun
  | 4 => shldRun
  | 5 => shldsRun
  | 6 => ixsetRun
  | 7 => ltideRun
  | 8 => fun _ => lrandRun rand
  | 9 => lcycRun
  | _ => lsnopRun

def State.lsSlot (s : State) (k : CellId) (op : Nat) (run : Env → Latched → Out → Out) : State :=
  s.runOut k slLS unLS (fun l => lsOp l.ls = op) run

/-- LRAND asks the channel's DRBG instance, then acts like the other rows. -/
def State.lrandSlot (s : State) (k : CellId) : State :=
  s.runSlot k slLS (fun l => lsOp l.ls = 8) fun s l =>
    let d := s.drbgDraw k.ch.val
    let e := d.1.envOf k
    d.1.applyOut k l e.off unLS (lrandRun d.2 l (Out.none_ (d.1.cell k)))

def execLsnop (k : CellId) (s : State) : Host.Outcome State Fault Refusal :=
  s.onChan k.ch fun s => s.lsSlot k 0 lsnopRun
def execLpush (k : CellId) (s : State) : Host.Outcome State Fault Refusal :=
  s.onChan k.ch fun s => s.lsSlot k 1 lpushRun
def execSpop (k : CellId) (s : State) : Host.Outcome State Fault Refusal :=
  s.onChan k.ch fun s => s.lsSlot k 2 spopRun
def execLcopy (k : CellId) (s : State) : Host.Outcome State Fault Refusal :=
  s.onChan k.ch fun s => s.lsSlot k 3 lcopyRun
def execShld (k : CellId) (s : State) : Host.Outcome State Fault Refusal :=
  s.onChan k.ch fun s => s.lsSlot k 4 shldRun
def execShlds (k : CellId) (s : State) : Host.Outcome State Fault Refusal :=
  s.onChan k.ch fun s => s.lsSlot k 5 shldsRun
def execIxset (k : CellId) (s : State) : Host.Outcome State Fault Refusal :=
  s.onChan k.ch fun s => s.lsSlot k 6 ixsetRun
def execLtide (k : CellId) (s : State) : Host.Outcome State Fault Refusal :=
  s.onChan k.ch fun s => s.lsSlot k 7 ltideRun
def execLrand (k : CellId) (s : State) : Host.Outcome State Fault Refusal :=
  s.onChan k.ch fun s => s.lrandSlot k
def execLcyc (k : CellId) (s : State) : Host.Outcome State Fault Refusal :=
  s.onChan k.ch fun s => s.lsSlot k 9 lcycRun

/-! ### The RT slot (R84, R85, R196 to R198) -/

/-- Source values a field may hold: LEND exists only on row 0, 6 and 7 are reserved. -/
def rtSrcOk (row0 : Bool) (v : Nat) : Bool :=
  decide (v ≤ 4) || (decide (v = 5) && row0) || decide (8 ≤ v)

def rtSrc (w : BitVec 64) (link : Nat) : Nat := fldN w (4 * (link - 1)) 4

def rtLegal (row0 : Bool) (w : BitVec 64) : Bool :=
  [1, 2, 3, 4].all fun i => rtSrcOk row0 (rtSrc w i)

/-- The beat at the lend input: that of the lane LSEL selects (R87, R196). -/
def Env.lend (e : Env) (w : BitVec 64) : Option QEntry :=
  if e.row0 then (if bitAt w 56 then e.lend1 else e.lend0) else none

/-- Pop the output queues that a word names, once each however many outputs name them (R197). -/
def Out.popOut (o : Out) (l : Latched) (q : Nat) : Out × Option QEntry :=
  match o.cell.qout.getD q [] with
  | [] => (o.fault clQueue 1 unRT (w64 (8 + q + 16)) l.idx, none)
  | x :: _ =>
    let r := Coded.check x.beat
    let o : Out := { o with
      cell := { o.cell with qoutPop := setBit o.cell.qoutPop q true }
      popped := o.popped + 1 }
    (o.count r.2, some ⟨r.1, x.tag⟩)

/-- Pops of the queues that the outputs name, in ascending order. -/
def Out.popOuts (o : Out) (l : Latched) : List Nat → Out × List (Nat × QEntry)
  | [] => (o, [])
  | q :: qs =>
    if [1, 2, 3, 4].any fun i => rtSrc l.rt i = 8 + q then
      let r := o.popOut l q
      let t := r.1.popOuts l qs
      (t.1, match r.2 with
        | some x => (q, x) :: t.2
        | none => t.2)
    else o.popOuts l qs

/-- The beat of a link-output source field. -/
def Env.source (e : Env) (w : BitVec 64) (popped : List (Nat × QEntry)) (v : Nat) : Option QEntry :=
  match v with
  | 0 => none
  | 1 => e.north
  | 2 => e.east
  | 3 => e.south
  | 4 => e.west
  | 5 => e.lend w
  | v => (popped.find? fun p => 8 + p.1 = v).map (·.2)

/-- The beat an input queue takes: the first of N, E, S, W and lend that names it and carries one
(R85). -/
def Env.into (e : Env) (w : BitVec 64) (q : Nat) : Option QEntry :=
  let pick := fun (lo : Nat) (x : Option QEntry) => if bitAt w (lo + q) then x else none
  (pick 16 e.north).or ((pick 24 e.east).or ((pick 32 e.south).or ((pick 40 e.west).or
    (pick 48 (e.lend w)))))

def routeRun (e : Env) (l : Latched) (o : Out) : Out :=
  let w := l.rt
  let p := o.popOuts l [0, 1, 2, 3, 4, 5, 6, 7]
  let o := [0, 1, 2, 3, 4, 5, 6, 7].foldl (fun (o : Out) q =>
    match e.into w q with
    | some x => o.due 0 (.arrive q x)
    | none => o) p.1
  { o with sends := [1, 2, 3, 4].filterMap fun i =>
      (e.source w p.2 (rtSrc w i)).map fun x => (i, x) }

def execRoute (k : CellId) (s : State) : Host.Outcome State Fault Refusal :=
  s.onChan k.ch fun s => s.runOut k slRT unRT (fun _ => true) routeRun

end Sys2Proof.Machine
end

