-- ==== Sys2Proof/Machine/Control.lean ====
section
/-! DEFINITION. The sequencer: fetching and issuing a bundle (R168 to R170, R174, R180 to R185, R202),
and the CT slot with barriers, flag trees and sync signals (R90 to R94, R199 to R201). -/
namespace Sys2Proof.Machine

/-! ### Legal slots (R174) -/

def ctOp (w : BitVec 32) : Nat := fldN w 0 6

def ctLegal (w : BitVec 32) : Bool :=
  [0x00, 0x01, 0x02, 0x03, 0x04, 0x05, 0x08, 0x09, 0x0A, 0x0B, 0x0C, 0x0D, 0x10, 0x11].contains (ctOp w) &&
    !((ctOp w = 0x0C || ctOp w = 0x0D) && fldN w 16 3 = 0)

def mxLegal (w : BitVec 40) : Bool := decide (fldN w 0 4 ≤ 3)
def lsLegal (w : BitVec 48) : Bool := decide (lsOp w ≤ 9)

/-- The slots that hold a reserved opcode or field value, as bit offsets and widths. -/
def badSlots (row0 : Bool) (w : BitVec 256) : List (Nat × Nat) :=
  (if mxLegal (fld w 0 40) then [] else [(0, 40)]) ++
  (if vxLegal (vxWord (fld w 40 56)) then [] else [(40, 56)]) ++
  (if lsLegal (fld w 96 48) then [] else [(96, 48)]) ++
  (if rtLegal row0 (fld w 144 64) then [] else [(144, 64)]) ++
  (if ctLegal (fld w 208 32) then [] else [(208, 32)])

/-- The bundle with the named slots turned into their no-operations. -/
def clearSlots (w : BitVec 256) (bad : List (Nat × Nat)) : BitVec 256 :=
  bad.foldl (fun w b => setFld w b.1 b.2 0) w

/-! ### The next address (R180, R181) -/

/-- Address and open loops after the bundle at `a`: at the last bundle of a body the loop runs again
or closes, and then the one around it is asked. -/
def nextIssue (a : Nat) : List Loop → Nat × List Loop
  | [] => ((a + 1) % 512, [])
  | p :: ps =>
    if a = p.last then
      if 0 < p.left then (p.first, { p with left := p.left - 1, index := p.index + 1 } :: ps)
      else nextIssue a ps
    else ((a + 1) % 512, p :: ps)

/-- The index of level `n`; 0 when it is not active (R181). -/
def loopIndex (loops : List Loop) (n : Nat) : Nat :=
  match loops.reverse[n]? with
  | some p => p.index
  | none => 0

/-- The filler bundle of an address that a code set does not give: BEND with a correct ACHK (R211). -/
def fillBundle (a : Nat) : Bundle :=
  Coded.ofData (BitVec.ofNat 256 (3 * 2 ^ 208 + (a % 16) * 2 ^ 252))

def Cell.bundle (c : Cell) (page : Bool) (a : Nat) : Bundle :=
  Smap.get (fillBundle a) (if page then c.page1 else c.page0) a

/-! ### Issue (R170) -/

/-- Whether the sequencer issues in cycle `cy`. -/
def Seq.canIssue (q : Seq) (cy : Nat) : Bool :=
  q.running && !q.stopped && !q.idle && q.waitGroup.isNone && decide (q.nextAt ≤ cy) &&
    match q.cur with
    | some l => decide (l.at_ ≠ cy)
    | none => true

/-- Stop a sequencer for the rest of the block (R169, R202). -/
def Cell.stopSeq (c : Cell) : Cell := { c with seq := { c.seq with running := false, stopped := true } }

def latchOf (q : Seq) (word : BitVec 256) (cy : Nat) : Latched :=
  ⟨word, q.addr, q.page, loopIndex q.loops 0, loopIndex q.loops 1, loopIndex q.loops 2, cy, 0⟩

/-- Issue the bundle at the sequencer's address: its codewords and ACHK are checked, and a slot with a
reserved value acts as its no-operation. -/
def State.issue (s : State) (k : CellId) : State :=
  let c := s.cell k
  let q := c.seq
  if (s.chan k.ch).gate.st = .running && q.canIssue s.cy then
    let off := s.cy - (s.chan k.ch).gate.releaseCy
    let r := Coded.check (c.bundle q.page q.addr)
    let s := s.countCell k r.2.ce r.2.ue
    let w := r.1.data
    let cw := 1024 * boolBit q.page + 2 * q.addr
    let l := latchOf q w s.cy
    match r.2.bad with
    | some (i, now, syn) =>
      (s.setCell k c.stopSeq).fault
        (s.cellRec k off l ⟨clCode, if now then 1 else 4, unSeq, w64 (cw + i), w64 syn⟩)
    | none =>
      if fldN w 252 4 ≠ q.addr % 16 then
        (s.setCell k c.stopSeq).fault (s.cellRec k off l ⟨clCode, 2, unSeq, w64 cw, ones64⟩)
      else
        let bad := badSlots (k.y.val = 0) w
        let n := nextIssue q.addr q.loops
        let l := latchOf q (clearSlots w bad) s.cy
        let c := { c with seq := { q with addr := n.1, loops := n.2, nextAt := s.cy + 1, cur := some l } }
        bad.foldl (fun s _ => s.fault (s.cellRec k off l ⟨clCode, 3, unSeq, w64 cw, ones64⟩))
          (s.setCell k c)
  else s

def execBundleIssue (k : CellId) (s : State) : Host.Outcome State Fault Refusal :=
  s.onChan k.ch fun s => s.issue k

/-! ### CT operations on the sequencer (R180, R182, R184) -/

def State.modCell (s : State) (k : CellId) (f : Cell → Cell) : State := s.setCell k (f (s.cell k))

def cnopRun (_ : CellId) (s : State) (_ : Latched) : State := s

def loopRun (k : CellId) (s : State) (l : Latched) : State :=
  let n := fldN l.ct 6 12
  let b := fldN l.ct 18 9 + 1
  s.modCell k fun c => { c with seq := { c.seq with
    addr := (l.addr + 1) % 512
    loops := ⟨l.addr + 1, l.addr + b, n, 0⟩ :: c.seq.loops } }

def idleRun (k : CellId) (s : State) (l : Latched) : State :=
  s.modCell k fun c => { c with seq := { c.seq with
    idle := true
    nextAt := s.cy + fldN l.ct 6 12 + 2 } }

def bendRun (k : CellId) (s : State) (_ : Latched) : State :=
  s.modCell k fun c => { c with seq := { c.seq with running := false } }

/-- The hold of an IDLE ends in its last cycle's successor (R182). -/
def State.endIdle (s : State) (k : CellId) : State :=
  let q := (s.cell k).seq
  if q.idle && decide (q.nextAt ≤ s.cy) then
    s.modCell k fun c => { c with seq := { c.seq with idle := false } }
  else s

/-! ### Shutter swap and tag check (R117, R199) -/

/-- Whether the LS slot of the same bundle, not yet done, will load a row into bank `b`. -/
def loadsBank (l : Latched) (c : Cell) (b : Bool) : Bool :=
  (lsOp l.ls = 4 || lsOp l.ls = 5) && lsBank l.ls = b && !bitAt l.done slLS &&
    match c.qin.getD (lsQ l.ls) [] with
    | e :: _ => decide (expTag c.index l (lsQ l.ls) (lsEtag l.ls) = e.tag.toNat)
    | [] => false

def shswRun (k : CellId) (s : State) (l : Latched) : State :=
  let c := s.cell k
  let o := Out.none_ c
  let ok := (c.bank (!c.activeB)).complete s.cy && !loadsBank l c (!c.activeB)
  s.applyOut k l (s.envOf k).off unCT
    (if ok then o.due 0 .swap else o.shutter l shINCOMPLETE unCT 0 false)

def tchkRun (k : CellId) (s : State) (l : Latched) : State :=
  let c := s.cell k
  let q := fldN l.ct 6 3
  let x := expTag c.index l q (fldN l.ct 9 3)
  let o := Out.none_ c
  s.applyOut k l (s.envOf k).off unCT (match c.qin.getD q [] with
    | [] => o.fault clQueue 1 unCT (w64 q) l.idx
    | e :: _ => if x = e.tag.toNat then o else o.fault clTag 2 unCT (tagDetail x e.tag.toNat q) l.idx)

/-! ### Barriers (R90 to R93, R183) -/

/-- L = 2 × ⌈log2 m⌉ + 6 (R91). -/
def treeLatency (m : Nat) : Nat := 2 * (if m ≤ 1 then 0 else Nat.log2 (m - 1) + 1) + 6

def Barrier.none_ : Barrier := ⟨[], [], none⟩

/-- The cells of a channel that wait for a group go on in this cycle. -/
def wakeCells (cells : Smap Cell) (g cy : Nat) : Smap Cell :=
  cells.map fun p => (p.1, if p.2.seq.waitGroup = some g
    then { p.2 with seq := { p.2.seq with waitGroup := none, nextAt := cy } } else p.2)

/-- The release of a group that is due: waits end and the latches clear, before any arrival of the
cycle (R92). -/
def Chan.releaseGroup (ch : Chan) (g cy : Nat) : Chan :=
  let b := Smap.get Barrier.none_ ch.barriers g
  match b.releaseAt with
  | some r =>
    if r ≤ cy then
      { ch with
        barriers := Smap.upsert ch.barriers g { b with latched := [], releaseAt := none }
        cells := wakeCells ch.cells g cy }
    else ch
  | none => ch

def State.releaseGroup (s : State) (c : Chn) (g : Nat) : State :=
  s.modChan c fun ch => ch.releaseGroup g s.cy

/-- A SYNC fault of a CT operation (R240). -/
def State.syncFault (s : State) (k : CellId) (l : Latched) (cause g : Nat) : State :=
  s.fault (s.cellRec k (s.envOf k).off l ⟨clSync, cause, unCT, w64 g, w64 k.num⟩)

def scREARRIVE : Nat := 1
def scLATCH : Nat := 2
def scBWAIT : Nat := 3
def scUNDERFLOW : Nat := 4
def scOVERFLOW : Nat := 5
def scJOINT : Nat := 6
def scABSENT : Nat := 7
def scNONMEMBER : Nat := 8
def scBADBLOCK : Nat := 9

def barrRun (k : CellId) (s : State) (l : Latched) : State :=
  let g := fldN l.ct 6 12
  let s := s.releaseGroup k.ch g
  let b := Smap.get Barrier.none_ (s.chan k.ch).barriers g
  if !b.members.contains k.num then s.syncFault k l scNONMEMBER g
  else if b.latched.contains k.num then s.syncFault k l scREARRIVE g
  else
    let la := insertNat b.latched k.num
    let full := b.members.all la.contains
    s.modChan k.ch fun ch => { ch with barriers := Smap.upsert ch.barriers g { b with
      latched := la
      releaseAt := if full then some (s.cy + treeLatency b.members.length) else none } }

def bwaitRun (k : CellId) (s : State) (l : Latched) : State :=
  let g := fldN l.ct 6 12
  let s := s.releaseGroup k.ch g
  if (Smap.get Barrier.none_ (s.chan k.ch).barriers g).members.contains k.num then
    s.modCell k fun c => { c with seq := { c.seq with waitGroup := some g } }
  else s.syncFault k l scBWAIT g

/-! ### Flag trees (R94, R200) -/

def FlagTree.none_ : FlagTree := ⟨[], [], []⟩

/-- Record the contributions as they stand at the end of a block cycle, newest first. -/
def FlagTree.note (t : FlagTree) (off : Nat) : FlagTree :=
  let or_ := !t.set_.isEmpty
  let and_ := t.members.all t.set_.contains
  { t with history := (off, or_, and_) :: t.history.filter fun h => decide (h.1 < off) }

/-- The OR and the AND delivered in a block cycle (R94). -/
def FlagTree.deliver (t : FlagTree) (off : Nat) : Bool × Bool :=
  let lat := treeLatency t.members.length
  if off < lat then (false, true)
  else
    match t.history.find? fun h => decide (h.1 ≤ off - lat) with
    | some h => h.2
    | none => (false, t.members.isEmpty)

def State.treeOf (s : State) (k : CellId) (t : Nat) : FlagTree :=
  Smap.get FlagTree.none_ (s.chan k.ch).trees t

/-- FSET and FCLR: the cell's contribution, for members only. -/
def contribute (k : CellId) (s : State) (l : Latched) (on : Bool) : State :=
  let n := fldN l.ct 6 10
  let t := s.treeOf k n
  if t.members.contains k.num then
    let set_ := if on then insertNat t.set_ k.num else t.set_.filter fun x => decide (x ≠ k.num)
    s.modChan k.ch fun ch => { ch with
      trees := Smap.upsert ch.trees n (FlagTree.note { t with set_ := set_ } (s.envOf k).off) }
  else s.syncFault k l scNONMEMBER n

def fsetRun (k : CellId) (s : State) (l : Latched) : State := contribute k s l true
def fclrRun (k : CellId) (s : State) (l : Latched) : State := contribute k s l false

/-- FRDO and FRDA: the mask becomes all ones or all zeros, readable from the next cycle. -/
def readTree (k : CellId) (s : State) (l : Latched) (and_ : Bool) : State :=
  let n := fldN l.ct 6 10
  let t := s.treeOf k n
  if t.members.contains k.num then
    let e := s.envOf k
    let v := t.deliver e.off
    let m := if (if and_ then v.2 else v.1) then BitVec.allOnes 32 else 0
    s.applyOut k l e.off unCT ((Out.none_ (s.cell k)).due 0 (.mask (fldN l.ct 16 3) m))
  else s.syncFault k l scNONMEMBER n

def frdoRun (k : CellId) (s : State) (l : Latched) : State := readTree k s l false
def frdaRun (k : CellId) (s : State) (l : Latched) : State := readTree k s l true

/-! ### Signals to sync counters (R201, R279, R282) -/

/-- Latency from a unit of channel `c` to a counter's home (R282). -/
def syncLatency (c : Chn) (counter : Nat) : Nat :=
  let h := counter / 32768
  if h = c.val then 10 else if h = (midPeer c).val then 14 else 18

/-- SGNL and TAKE: the operation leaves for its counter. -/
def sendSync (k : CellId) (s : State) (l : Latched) (kind : SyncKind) : State :=
  let n := fldN l.ct 6 17
  { s with sync := { s.sync with ops := s.sync.ops ++
    [⟨s.cy + syncLatency k.ch n, n, kind, fldN l.ct 23 9 + 1, .cell k.ch.val k.num,
      (s.envOf k).off, l.addr + 512 * boolBit l.page, l.srctag⟩] } }

def sgnlRun (k : CellId) (s : State) (l : Latched) : State := sendSync k s l .signal
def takeRun (k : CellId) (s : State) (l : Latched) : State := sendSync k s l .take

/-! ### The rows of the CT slot -/

/-- The operation of a CT opcode (R199). -/
def ctRun (op : Nat) : CellId → State → Latched → State :=
  match op with
  | 0x01 => loopRun
  | 0x02 => idleRun
  | 0x03 => bendRun
  | 0x04 => shswRun
  | 0x05 => tchkRun
  | 0x08 => barrRun
  | 0x09 => bwaitRun
  | 0x0A => fsetRun
  | 0x0B => fclrRun
  | 0x0C => frdoRun
  | 0x0D => frdaRun
  | 0x10 => sgnlRun
  | 0x11 => takeRun
  | _ => cnopRun

def State.ctSlot (s : State) (k : CellId) (op : Nat) (run : CellId → State → Latched → State) : State :=
  s.runSlot k slCT (fun l => ctOp l.ct = op) (run k)

def execCnop (k : CellId) (s : State) : Host.Outcome State Fault Refusal :=
  s.onChan k.ch fun s => s.ctSlot k 0x00 cnopRun
def execLoop (k : CellId) (s : State) : Host.Outcome State Fault Refusal :=
  s.onChan k.ch fun s => s.ctSlot k 0x01 loopRun
def execIdle (k : CellId) (s : State) : Host.Outcome State Fault Refusal :=
  s.onChan k.ch fun s => s.ctSlot k 0x02 idleRun
def execIdleEnd (k : CellId) (s : State) : Host.Outcome State Fault Refusal :=
  s.onChan k.ch fun s => s.endIdle k
def execBend (k : CellId) (s : State) : Host.Outcome State Fault Refusal :=
  s.onChan k.ch fun s => s.ctSlot k 0x03 bendRun
def execShsw (k : CellId) (s : State) : Host.Outcome State Fault Refusal :=
  s.onChan k.ch fun s => s.ctSlot k 0x04 shswRun
def execTchk (k : CellId) (s : State) : Host.Outcome State Fault Refusal :=
  s.onChan k.ch fun s => s.ctSlot k 0x05 tchkRun
def execBarr (k : CellId) (s : State) : Host.Outcome State Fault Refusal :=
  s.onChan k.ch fun s => s.ctSlot k 0x08 barrRun
def execBarrierRelease (c : Chn) (g : Nat) (s : State) : Host.Outcome State Fault Refusal :=
  s.onChan c fun s => s.releaseGroup c g
def execBwait (k : CellId) (s : State) : Host.Outcome State Fault Refusal :=
  s.onChan k.ch fun s => s.ctSlot k 0x09 bwaitRun
def execFset (k : CellId) (s : State) : Host.Outcome State Fault Refusal :=
  s.onChan k.ch fun s => s.ctSlot k 0x0A fsetRun
def execFclr (k : CellId) (s : State) : Host.Outcome State Fault Refusal :=
  s.onChan k.ch fun s => s.ctSlot k 0x0B fclrRun
def execFrdo (k : CellId) (s : State) : Host.Outcome State Fault Refusal :=
  s.onChan k.ch fun s => s.ctSlot k 0x0C frdoRun
def execFrda (k : CellId) (s : State) : Host.Outcome State Fault Refusal :=
  s.onChan k.ch fun s => s.ctSlot k 0x0D frdaRun
def execSgnl (k : CellId) (s : State) : Host.Outcome State Fault Refusal :=
  s.onChan k.ch fun s => s.ctSlot k 0x10 sgnlRun
def execTake (k : CellId) (s : State) : Host.Outcome State Fault Refusal :=
  s.onChan k.ch fun s => s.ctSlot k 0x11 takeRun

end Sys2Proof.Machine
end

