-- ==== Sys2Proof/Machine/Sync.lean ====
section
/-! DEFINITION. Sync counters (R277 to R288) and messages between cores (R289 to R295), with the ledger
counts each movement makes (R296). -/
namespace Sys2Proof.Machine

/-! ### Small reach -/

def State.modCore (s : State) (c : Chn) (f : Core → Core) : State :=
  s.modChan c fun ch => { ch with core := f ch.core }

def State.modPort (s : State) (i : Nat) (f : MsgPort → MsgPort) : State :=
  { s with ports := s.ports.set! i (f (s.ports.getD i MsgPort.reset)) }

def State.port (s : State) (i : Nat) : MsgPort := s.ports.getD i MsgPort.reset

def State.ledger (s : State) (c : Chn) (code n : Nat) : State := s.modChan c fun ch => ch.ledgerAdd code n

/-- A fault of a control core: BUNDLE holds bits [15:0] of the instruction's address (R237). -/
def State.coreFault (s : State) (c : Chn) (cls cause pc : Nat) (d0 d1 : W64) : State :=
  s.fault { FaultRec.ofChan c cls cause unCcore d0 d1 with bundle := pc % 65536, page := 0 }

/-- The management core of an endpoint, 16 to 19 (R277). -/
def State.modMgmt (s : State) (e : Nat) (f : MgmtCore → MgmtCore) : State :=
  { s with sync := { s.sync with mgmt := s.sync.mgmt.set! (e - 16) (f (s.sync.mgmt.getD (e - 16) .reset)) } }

/-- A fault of a management core: no channel, the I/O die (R237, R238). -/
def State.mgmtFault (s : State) (cls cause pc : Nat) (d0 d1 : W64) : State :=
  s.fault { FaultRec.bare cls cause 9 unMgmt d0 d1 with bundle := pc % 65536, page := 0 }

/-- The latency of an endpoint's operations on a counter (R282). -/
def endLatency (e counter : Nat) : Nat := if e < 4 then syncLatency (chnOf e) counter else 24

/-! ### Counters (R278 to R281) -/

/-- `IOD_FEAT_SYNC.SYNC_COUNTERS` (R210). -/
def State.syncCounters (s : State) : Nat := if s.four then 131072 else 98304

def State.count (s : State) (n : Nat) : W32 := Smap.get 0 s.sync.counts n

def State.setCount (s : State) (n : Nat) (v : W32) : State :=
  { s with sync := { s.sync with counts := Smap.put 0 s.sync.counts n v } }

/-- A counter outside the grade, or whose home channel is fused off or retired (R281). -/
def State.counterAbsent (s : State) (n : Nat) : Bool :=
  decide (s.syncCounters ≤ n) || !s.hasChan (chnOf (n / 32768)) ||
    decide ((s.chan (chnOf (n / 32768))).gate.st = .retired) ||
    (s.chan (chnOf (n / 32768))).gate.inReset.isSome

def homeOf (n : Nat) : Chn := chnOf (n / 32768)

/-- A count as a sign-extended 64-bit detail. -/
def countWord (v : W32) : W64 := v.signExtend 64

/-- A SYNC fault of the operation's issuer (R280, R281). -/
def State.opFault (s : State) (o : SyncOp) (cause : Nat) (d1 : W64) : State :=
  match o.src with
  | .endpoint e =>
    if e < 4 then s.coreFault (chnOf e) clSync cause o.bundle (w64 o.counter) d1
    else s.mgmtFault clSync cause o.bundle (w64 o.counter) d1
  | .cell c k =>
    let c := chnOf c
    s.fault {
      cycleOff := o.cycleOff
      cls := clSync
      cause := cause
      die := 0
      chan := c.val
      y := k / 80
      x := k % 80
      p := (s.chan c).pcol (k % 80)
      unit_ := unCT
      bundle := o.bundle % 512
      page := o.bundle / 512
      srctag := o.srctag
      d0 := w64 o.counter
      d1 := d1
      gate := false }

/-- The tokens of an operation enter the ledgers of its issuer, when that is a channel's, and of the counter's
home. -/
def State.countTokens (s : State) (o : SyncOp) (take : Bool) : State :=
  let s := match o.src with
    | .endpoint e => if e < 4 then s.ledger (chnOf e) (if take then ldCcTake else ldCcSig) o.n else s
    | .cell c _ => s.ledger (chnOf c) (if take then ldTokTake else ldTokSig) o.n
  s.ledger (homeOf o.counter) (if take then ldHomeTake else ldHomeSig) o.n

/-- One set, signal or take at its counter (R279, R280). -/
def State.actOp (s : State) (o : SyncOp) : State :=
  let v := s.count o.counter
  match o.kind with
  | .set w =>
    let s := s.setCount o.counter w
    s.modChan (homeOf o.counter) fun ch => { ch with
      ledger := ch.ledger.set! (ldHomeSet - 1)
        (ch.ledger.getD (ldHomeSet - 1) 0 + (countWord w - countWord v)) }
  | .signal =>
    if v.toInt + o.n < 2 ^ 31 then
      (s.setCount o.counter (BitVec.ofInt 32 (v.toInt + o.n))).countTokens o false
    else s.opFault o scOVERFLOW (countWord v)
  | .take =>
    if o.n = 0 then s
    else if 0 ≤ v.toInt - o.n then
      (s.setCount o.counter (BitVec.ofInt 32 (v.toInt - o.n))).countTokens o true
    else s.opFault o scUNDERFLOW (countWord v)
  | _ => s

/-- Rank of R283: sets, signals, takes, reads, waits. -/
def SyncKind.rank : SyncKind → Nat
  | .set _ => 0
  | .signal => 1
  | .take => 2
  | .read _ => 3
  | .wait => 4

/-- The source order: endpoints, then cells by channel, row and column. -/
def SyncSrc.rank : SyncSrc → Nat
  | .endpoint e => e
  | .cell c k => 256 + 2560 * c + k

def SyncOp.key (o : SyncOp) : Nat := o.kind.rank * 65536 + o.src.rank

/-- Insert in ascending order of a key, after equals. -/
def insertBy {α : Type} (key : α → Nat) (a : α) : List α → List α
  | [] => [a]
  | b :: bs => if key b ≤ key a then b :: insertBy key a bs else a :: b :: bs

def sortBy {α : Type} (key : α → Nat) (l : List α) : List α := l.foldl (fun acc a => insertBy key a acc) []

/-- The core of an endpoint waits no more, and goes on in cycle `t`. -/
def State.endWait (s : State) (e t : Nat) : State :=
  if e < 4 then
    s.modCore (chnOf e) fun k => { k with wait := .none, waitTicks := 0, waitLong := false, readyAt := t }
  else s.modMgmt e fun k => { k with waiting := false, readyAt := t }

/-- A count is on its way to the core of an endpoint, which has it in cycle `t`; `d` is the register that a control
core's SRD writes. -/
def State.sendBack (s : State) (e : Nat) (d : BitVec 5) (v : W64) (t : Nat) : State :=
  if e < 4 then s.modCore (chnOf e) fun k => { k with readBack := some (d, v, t) }
  else s.modMgmt e fun k => { k with readBack := some (v, t), readyAt := t + 1 }

/-- A wait is served: the core goes on when the answer reaches it (R282, R286). -/
def State.serve (s : State) (w : SyncWait) : State :=
  let s := s.setCount w.counter (BitVec.ofInt 32 ((s.count w.counter).toInt - w.n))
  let s := if w.endpoint < 4 then s.ledger (chnOf w.endpoint) ldCcTake w.n else s
  let s := s.ledger (homeOf w.counter) ldHomeTake w.n
  let s := { s with sync := { s.sync with waits := s.sync.waits.filter fun x => decide (x ≠ w) } }
  s.endWait w.endpoint (s.cy + w.latency)

/-- Serve the pending waits of a counter in ascending requester ID (R286). -/
def State.serveWaits (s : State) (n : Nat) : State :=
  (sortBy SyncWait.endpoint (s.sync.waits.filter fun w => w.counter = n)).foldl
    (fun s w => if (w.n : Int) ≤ (s.count n).toInt then s.serve w else s) s

/-- A read, or a wait that begins, at its counter. -/
def State.actRead (s : State) (o : SyncOp) : State :=
  match o.kind, o.src with
  | .read d, .endpoint e => s.sendBack e d (countWord (s.count o.counter)) (s.cy + endLatency e o.counter)
  | .wait, .endpoint e =>
    { s with sync := { s.sync with waits := s.sync.waits ++
      [⟨e, o.counter, o.n, endLatency e o.counter⟩] } }
  | _, _ => s

/-- An operation on an absent counter: it faults and does nothing; SWAIT does not wait, and SRD gives
0 (R281). -/
def State.absentOp (s : State) (o : SyncOp) : State :=
  let s := s.opFault o scABSENT ones64
  match o.kind, o.src with
  | .read d, .endpoint e => s.sendBack e d 0 (s.cy + endLatency e o.counter)
  | .wait, .endpoint e => s.endWait e (s.cy + endLatency e o.counter)
  | _, _ => s

/-- The operations that reach counter `n` in this cycle act in the order of R283, and its waits are
served. -/
def State.arriveAt (s : State) (n : Nat) : State :=
  let now := s.sync.ops.filter fun o => o.counter = n && o.at_ ≤ s.cy
  let s := { s with sync := { s.sync with
    ops := s.sync.ops.filter fun o => !(o.counter = n && decide (o.at_ ≤ s.cy)) } }
  if now.isEmpty then s
  else if s.counterAbsent n then (sortBy SyncOp.key now).foldl State.absentOp s
  else
    ((sortBy SyncOp.key now).foldl
      (fun s o => if o.kind.rank < 3 then s.actOp o else s.actRead o) s).serveWaits n

def execCounterOpArrive (n : Nat) (s : State) : Host.Outcome State Fault Refusal := .next (s.arriveAt n)

/-! ### Messages (R289 to R295) -/

/-- The port of an endpoint: 0 to 3 the control cores, 4 to 7 the management cores (R277). -/
def portOf (e : Nat) : Option Nat :=
  if e < 4 then some e else if 16 ≤ e && e < 20 then some (e - 12) else none

/-- Whether an endpoint exists on the part. -/
def State.hasPort (s : State) (e : Nat) : Bool :=
  match portOf e with
  | some i => i ≠ 3 || s.four
  | none => false

/-- A message is counted as absorbed at a port (R295). -/
def State.countDisc (s : State) (i n : Nat) : State :=
  if i < 4 then (s.ledger (chnOf i) ldMsgArrived n).ledger (chnOf i) ldMsgDisc n
  else s.modPort i fun p => { p with disc := p.disc + w64 n }

/-- Messages already in the inbox are absorbed: they have arrived before (R295, R296). -/
def State.discHeld (s : State) (i n : Nat) : State :=
  if i < 4 then s.ledger (chnOf i) ldMsgDisc n
  else s.modPort i fun p => { p with disc := p.disc + w64 n }

/-- Close a port: the messages held in its inbox, and the one at its input, are absorbed (R295). -/
def State.closePort (s : State) (i : Nat) : State :=
  let p := s.port i
  let s := s.discHeld i p.inbox.length
  let s := if p.input.isSome then s.countDisc i 1 else s
  s.modPort i fun p => { p with inbox := [], input := none, isOpen := false }

def State.openPort (s : State) (i : Nat) : State := s.modPort i fun p => { p with isOpen := true }

/-- Room in the inbox takes in the message that waits at its input (R291). -/
def State.refill (s : State) (i : Nat) : State :=
  let p := s.port i
  match p.input with
  | some m =>
    if p.inbox.length < 16 then
      let s := s.modPort i fun p => { p with input := none, inbox := p.inbox ++ [m] }
      if i < 4 then s.ledger (chnOf i) ldMsgArrived 1 else s
    else s
  | none => s

/-- A message enters its sender's outbound port; to an endpoint that does not exist it is absorbed
there (R290, R295). -/
def State.enterPort (s : State) (c : Chn) (m : Msg) : State :=
  let s := s.ledger c ldMsgSent 1
  if s.hasPort m.dst.toNat then s.modPort c.val fun p => { p with out := p.out ++ [m] }
  else s.ledger c ldMsgNodest 1

/-- A management core's message that waits enters its outbound port when that has room (R290); to an endpoint that
does not exist it is absorbed there, and counted nowhere, since the core has no channel. -/
def State.mgmtSend (s : State) (i : Nat) : State :=
  if i < 4 then s
  else match (s.sync.mgmt.getD (i - 4) .reset).sending with
  | some m =>
    if (s.port i).out.length < 4 then
      let s := s.modMgmt (i + 12) fun k => { k with sending := none, readyAt := s.cy + 1 }
      if s.hasPort m.dst.toNat then s.modPort i fun p => { p with out := p.out ++ [m] } else s
    else s
  | none => s

/-- The oldest message of an outbound port moves to its destination, when that is `dst` and its input
is free (R291); a closed port absorbs it. -/
def State.deliver (s : State) (src dst : Byte) : State :=
  match portOf src.toNat, portOf dst.toNat with
  | some i, some j =>
    match (s.port i).out with
    | m :: rest =>
      if m.dst = dst then
        let go := (s.modPort i fun p => { p with out := rest }).mgmtSend i
        if !(s.port j).isOpen then go.countDisc j 1
        else if (s.port j).input.isSome then s
        else (go.modPort j fun p => { p with input := some m }).refill j
      else s
    | [] => s
  | _, _ => s

def execMessageDeliver (src dst : Byte) (s : State) : Host.Outcome State Fault Refusal :=
  .next (s.deliver src dst)

/-! ### Waits that last (R288, R294) -/

/-- DETAIL0 of a SEND_STALL record. -/
def State.stallDetail (s : State) (m : Msg) : W64 :=
  let held := match portOf m.dst.toNat with
    | some j => (s.port j).inbox.length
    | none => 0
  w64 (m.dst.toNat + 256 * m.tag.toNat + 2 ^ 24 * held)

/-- An MSEND that waited too long raises SEND_STALL once; it goes on waiting. -/
def State.sendStall (s : State) (c : Chn) : State :=
  let k := (s.chan c).core
  match k.wait with
  | .send m =>
    if !k.stallRaised && decide ((s.chan c).regs2.stallLimit.toNat ≤ k.sendTicks) then
      (s.modCore c fun k => { k with stallRaised := true }).coreFault c clSendStall 1 (k.pc - 4)
        (s.stallDetail m) (w64 k.sendTicks)
    else s
  | _ => s

/-- The same for management core `n`; the spec gives its limit in no register, and it is an open value. -/
def State.mgmtStall (s : State) (n : Fin 4) : State :=
  let k := s.sync.mgmt[n]
  match k.sending with
  | some m =>
    if !k.stallRaised && decide (Config.mgmtStallLimit ≤ k.sendTicks) then
      (s.modMgmt (16 + n.val) fun k => { k with stallRaised := true }).mgmtFault clSendStall 1 k.pc (s.stallDetail m)
        (w64 k.sendTicks)
    else s
  | none => s

/-- SEND_STALL of port `e`: 0 to 3 a channel's control core, 4 to 7 a management core. -/
def execSendStall (e : Fin 8) (s : State) : Host.Outcome State Fault Refusal :=
  if e.val < 4 then s.onChan (chnOf e.val) fun s => s.sendStall (chnOf e.val)
  else .next (s.mgmtStall (Fin.ofNat 4 (e.val - 4)))

def CoreWait.isLong : CoreWait → Bool
  | .counter _ => true
  | .recv _ _ _ => true
  | _ => false

/-- A SWAIT or MRECV that waited `CHn_WAITLIM` ticks raises its event once and sets LONG. -/
def State.waitLong (s : State) (c : Chn) : State :=
  let ch := s.chan c
  let lim := ch.regs2.waitLim.toNat
  if ch.core.wait.isLong && !ch.core.waitLong && lim ≠ 0 && decide (lim ≤ ch.core.waitTicks) then
    (s.modChan c fun ch => { ch with
      core := { ch.core with waitLong := true }
      regs2 := { ch.regs2 with waitLong := true } }).raise (evChan c 5)
  else s

def execCcoreWaitLong (c : Chn) (s : State) : Host.Outcome State Fault Refusal :=
  s.onChan c fun s => s.waitLong c

end Sys2Proof.Machine
end

