-- ==== Sys2Proof/Machine/Ccore.lean ====
section
/-! DEFINITION. The channel control core (R205 to R208, R542, R543): fetch, decoding, arithmetic,
memory, transfers, sync and message instructions, and the SYS instructions. -/
namespace Sys2Proof.Machine

/-! ### Decoding (R206, R207) -/

/-- The kinds of instruction, as the rows of the table group them. -/
inductive CoreKind where
  | alu | iaddk | bandk | bork | bxork | shiftk | cltsk | cltuk | ldk | shins
  | load | store | branch | call | jreg
  | ssig | swait | stake | sset | srd
  | msend | mrecv | mpoll | gate | bcast
  | sopen | scancel | sdepth | wkrd | wkwr
  | csrr | csrw | rdtide | rdfwait | rdrand | rdcyc | flgclr | evsig
  deriving DecidableEq, Repr

def insD (w : W32) : Nat := fldN w 21 5
def insA (w : W32) : Nat := fldN w 16 5
def insB (w : W32) : Nat := fldN w 11 5
def insFn (w : W32) : Nat := fldN w 0 11
def insK16 (w : W32) : Nat := fldN w 0 16
def insK16s (w : W32) : Int := fldI w 0 16
def insSize (w : W32) : Nat := fldN w 13 3
def insK21s (w : W32) : Int := fldI w 0 21
def insOfs18 (w : W32) : Int := fldI w 0 18
def insCond (w : W32) : Nat := fldN w 18 3
def insOfs13 (w : W32) : Int := fldI w 0 13

/-- The instruction an instruction word holds; `none` for a reserved MAJOR, FN, SIZE, COND or
selector. -/
def coreKind (w : W32) : Option CoreKind :=
  match fldN w 26 6 with
  | 0x01 => if insFn w ≤ 0x013 then some .alu else none
  | 0x02 => some .iaddk
  | 0x03 => some .bandk
  | 0x04 => some .bork
  | 0x05 => some .bxork
  | 0x06 => if fldN w 6 2 = 3 then none else some .shiftk
  | 0x07 => some .cltsk
  | 0x08 => some .cltuk
  | 0x09 => some .ldk
  | 0x0A => some .shins
  | 0x10 => if insSize w = 7 then none else some .load
  | 0x11 => if insSize w ≤ 3 then some .store else none
  | 0x18 => if insCond w ≤ 5 then some .branch else none
  | 0x19 => some .call
  | 0x1A => some .jreg
  | 0x20 => match insFn w with
    | 0 => some .ssig
    | 1 => some .swait
    | 2 => some .stake
    | 3 => some .sset
    | 4 => some .srd
    | _ => none
  | 0x21 => match insFn w with
    | 0 => some .msend
    | 1 => some .mrecv
    | 2 => some .mpoll
    | _ => none
  | 0x22 => some .gate
  | 0x23 => some .bcast
  | 0x24 => match insFn w with
    | 0 => some .sopen
    | 1 => some .scancel
    | 2 => some .sdepth
    | _ => none
  | 0x25 => match insFn w with
    | 0 => some .wkrd
    | 1 => some .wkwr
    | _ => none
  | 0x26 => match fldN w 12 4 with
    | 0 => some .csrr
    | 1 => some .csrw
    | 2 => some .rdtide
    | 3 => some .rdfwait
    | 4 => some .rdrand
    | 5 => some .rdcyc
    | 6 => some .flgclr
    | 7 => some .evsig
    | _ => none
  | _ => none

/-! ### Registers and the program counter -/

/-- s0 reads 0, and writes to it are discarded (R205). -/
def Core.reg (k : Core) (n : Nat) : W64 := if n = 0 then 0 else k.regs.getD n 0

def Core.setReg (k : Core) (n : Nat) (v : W64) : Core :=
  if n = 0 then k else { k with regs := k.regs.set! n v }

def returnAddr : Nat := 0x10000

/-- Whether the core issues its next instruction in this cycle (R225, R542). -/
def State.coreReady (s : State) (c : Chn) : Bool :=
  let ch := s.chan c
  (ch.gate.st = .running || ch.gate.st = .gate) &&
    ch.core.started && !ch.core.returned && !ch.core.dead && ch.core.wait = .none &&
    decide (ch.core.readyAt ≤ s.cy) && ch.core.readBack.isNone

/-- The instruction codeword under the program counter, checked. -/
def Core.fetch (k : Core) : Coded 1 × Checked := (k.imem.cw (k.pc / 16)).check

def Core.word (k : Core) : W32 := fld k.fetch.1.data (8 * (k.pc % 16)) 32

/-- Let the core issue, when its next instruction is of the kind asked for and its fetch is good. -/
def State.coreRow (s : State) (c : Chn) (kind : CoreKind) (run : State → Chn → W32 → State) : State :=
  if s.coreReady c then
    let k := (s.chan c).core
    let f := k.fetch
    if f.2.bad.isNone && decide (k.pc < returnAddr) && coreKind k.word = some kind then
      run (s.countChan c f.2.ce f.2.ue) c k.word
    else s
  else s

/-- Go on with the next instruction in the next cycle. -/
def Core.advance (k : Core) (cy : Nat) : Core := { k with pc := k.pc + 4, readyAt := cy + 1 }

def State.coreNext (s : State) (c : Chn) (f : Core → Core) : State :=
  s.modCore c fun k => (f k).advance s.cy

/-- Write the result of an instruction and go on. -/
def State.coreResult (s : State) (c : Chn) (w : W32) (v : W64) : State :=
  s.coreNext c fun k => k.setReg (insD w) v

/-! ### Arithmetic (R207) -/

def aluOp (fn : Nat) (a b : W64) : W64 :=
  let sh := b.toNat % 64
  match fn with
  | 0x000 => a + b
  | 0x001 => a - b
  | 0x002 => a &&& b
  | 0x003 => a ||| b
  | 0x004 => a ^^^ b
  | 0x005 => a <<< sh
  | 0x006 => a >>> sh
  | 0x007 => a.sshiftRight sh
  | 0x008 => w64 (boolBit (a = b))
  | 0x009 => w64 (boolBit (a.toInt < b.toInt))
  | 0x00A => w64 (boolBit (a.toNat < b.toNat))
  | 0x00B => a * b
  | 0x00C => BitVec.ofInt 64 (a.toInt * b.toInt / 2 ^ 64)
  | 0x00D => w64 (a.toNat * b.toNat / 2 ^ 64)
  | 0x00E => if b = 0 then 0 else BitVec.ofInt 64 (a.toInt.tdiv b.toInt)
  | 0x00F => if b = 0 then 0 else w64 (a.toNat / b.toNat)
  | 0x010 => if b = 0 then 0 else BitVec.ofInt 64 (a.toInt.tmod b.toInt)
  | 0x011 => if b = 0 then 0 else w64 (a.toNat % b.toNat)
  | 0x012 => if a.toInt < b.toInt then a else b
  | _ => if a.toInt < b.toInt then b else a

def State.sreg (s : State) (c : Chn) (n : Nat) : W64 := (s.chan c).core.reg n

def aluRow (s : State) (c : Chn) (w : W32) : State :=
  s.coreResult c w (aluOp (insFn w) (s.sreg c (insA w)) (s.sreg c (insB w)))

def iaddkRow (s : State) (c : Chn) (w : W32) : State :=
  s.coreResult c w (s.sreg c (insA w) + BitVec.ofInt 64 (insK16s w))
def bandkRow (s : State) (c : Chn) (w : W32) : State :=
  s.coreResult c w (s.sreg c (insA w) &&& w64 (insK16 w))
def borkRow (s : State) (c : Chn) (w : W32) : State :=
  s.coreResult c w (s.sreg c (insA w) ||| w64 (insK16 w))
def bxorkRow (s : State) (c : Chn) (w : W32) : State :=
  s.coreResult c w (s.sreg c (insA w) ^^^ w64 (insK16 w))

def shiftkRow (s : State) (c : Chn) (w : W32) : State :=
  let a := s.sreg c (insA w)
  let n := fldN w 0 6
  s.coreResult c w (match fldN w 6 2 with
    | 0 => a <<< n
    | 1 => a >>> n
    | _ => a.sshiftRight n)

def cltskRow (s : State) (c : Chn) (w : W32) : State :=
  s.coreResult c w (w64 (boolBit ((s.sreg c (insA w)).toInt < insK16s w)))
def cltukRow (s : State) (c : Chn) (w : W32) : State :=
  s.coreResult c w
    (w64 (boolBit ((s.sreg c (insA w)).toNat < (BitVec.ofInt 64 (insK16s w)).toNat)))
def ldkRow (s : State) (c : Chn) (w : W32) : State := s.coreResult c w (BitVec.ofInt 64 (insK21s w))
def shinsRow (s : State) (c : Chn) (w : W32) : State :=
  s.coreResult c w (s.sreg c (insA w) * 65536#64 + w64 (insK16 w))

/-! ### Data memory (R205, R207) -/

def dmemSize : Nat := 2 ^ 18

/-- Bytes of data memory from an address that wraps within it. -/
def Core.dread (k : Core) (a n : Nat) : List Byte × Checked :=
  let first := min n (dmemSize - a % dmemSize)
  let x := k.dmem.readChecked (a % dmemSize) first
  let y := k.dmem.readChecked 0 (n - first)
  (x.1 ++ y.1, ⟨x.2.ce + y.2.ce, x.2.ue + y.2.ue, match x.2.bad with
    | some b => some b
    | none => y.2.bad⟩)

def Core.dwrite (k : Core) (a : Nat) (bs : List Byte) : Core :=
  let first := dmemSize - a % dmemSize
  { k with dmem := (k.dmem.write (a % dmemSize) (bs.take first)).write 0 (bs.drop first) }

/-- Bytes of an access by SIZE. -/
def sizeBytes (size : Nat) : Nat := 2 ^ (size % 4)

/-- The address of a LOAD or STORE: OFS counts accesses (R206). -/
def State.dataAddr (s : State) (c : Chn) (w : W32) : Nat :=
  (s.sreg c (insA w) + BitVec.ofInt 64 (insOfs13 w * (sizeBytes (insSize w) : Int))).toNat % dmemSize

/-- A bad codeword that an instruction consumes: CODE, and nothing is written (R353, R354). -/
def State.coreBad (s : State) (c : Chn) (b : Nat × Bool × Nat) : State :=
  s.coreFault c clCode (if b.2.1 then 1 else 4) (s.chan c).core.pc (w64 b.1) (w64 b.2.2)

def loadRow (s : State) (c : Chn) (w : W32) : State :=
  let n := sizeBytes (insSize w)
  let r := (s.chan c).core.dread (s.dataAddr c w) n
  let s := s.countChan c r.2.ce r.2.ue
  match r.2.bad with
  | some b => (s.coreBad c b).coreNext c id
  | none =>
    let v := ofBytesLE r.1
    s.coreResult c w
      (if 4 ≤ insSize w then BitVec.ofInt 64 ((BitVec.ofNat (8 * n) v).toInt) else w64 v)

def storeRow (s : State) (c : Chn) (w : W32) : State :=
  let n := sizeBytes (insSize w)
  let a := s.dataAddr c w
  let v := s.sreg c (insD w)
  s.coreNext c fun k => k.dwrite a (bytesLE n v.toNat)

/-! ### Transfers (R207, R542) -/

/-- Control goes to `t`: inside instruction memory, back from the entry point, or to an address that
is no instruction's. The place an address that is no multiple of 4 leads to is not stated: a free
value. -/
def State.coreJump (s : State) (c : Chn) (pc : Nat) (t : W64) (f : Core → Core) : State :=
  let s := s.modCore c fun k => { f k with readyAt := s.cy + 1 }
  if t.toNat = returnAddr then
    (s.modCore c fun k => { k with pc := returnAddr, returned := true }).closePort c.val
  else if returnAddr < t.toNat then
    (s.modCore c fun k => { k with dead := true }).coreFault c clCode 2 pc (w64 (t.toNat / 16)) ones64
  else if t.toNat % 4 = 0 then s.modCore c fun k => { k with pc := t.toNat }
  else
    { (s.modCore c fun k => { k with pc := (Config.freeValue s.draw).toNat % 16384 * 4 }) with
      draw := s.draw + 1 }

def branchTaken (cond : Nat) (v : W64) : Bool :=
  match cond with
  | 0 => decide (v = 0)
  | 1 => decide (v ≠ 0)
  | 2 => decide (v.toInt < 0)
  | 3 => decide (0 ≤ v.toInt)
  | 4 => decide (0 < v.toInt)
  | _ => decide (v.toInt ≤ 0)

def branchRow (s : State) (c : Chn) (w : W32) : State :=
  let pc := (s.chan c).core.pc
  if branchTaken (insCond w) (s.sreg c (insD w)) then
    s.coreJump c pc (w64 pc + BitVec.ofInt 64 (4 * insOfs18 w)) id
  else s.coreNext c id

def callRow (s : State) (c : Chn) (w : W32) : State :=
  let pc := (s.chan c).core.pc
  s.coreJump c pc (w64 pc + BitVec.ofInt 64 (4 * insK21s w)) fun k => k.setReg (insD w) (w64 (pc + 4))

def jregRow (s : State) (c : Chn) (w : W32) : State :=
  let pc := (s.chan c).core.pc
  s.coreJump c pc (s.sreg c (insA w) + BitVec.ofInt 64 (4 * insK16s w))
    fun k => k.setReg (insD w) (w64 (pc + 4))

/-! ### Sync counters (R279, R282, R285) -/

/-- A counter operation leaves the core for the fabric. -/
def State.coreSync (s : State) (c : Chn) (w : W32) (kind : SyncKind) (n : Nat) : State :=
  let counter := (s.sreg c (insA w)).toNat % 131072
  { s with sync := { s.sync with ops := s.sync.ops ++
    [⟨s.cy + syncLatency c counter, counter, kind, n, .endpoint c.val, 0,
      (s.chan c).core.pc, 0⟩] } }

/-- n of SSIG, STAKE and SWAIT: bits [30:0] of s(b). -/
def State.syncN (s : State) (c : Chn) (w : W32) : Nat := fldN (s.sreg c (insB w)) 0 31

def ssigRow (s : State) (c : Chn) (w : W32) : State :=
  (s.coreSync c w .signal (s.syncN c w)).coreNext c id
def stakeRow (s : State) (c : Chn) (w : W32) : State :=
  (s.coreSync c w .take (s.syncN c w)).coreNext c id
def ssetRow (s : State) (c : Chn) (w : W32) : State :=
  (s.coreSync c w (.set (fld (s.sreg c (insB w)) 0 32)) 0).coreNext c id

/-- SWAIT: the core stalls until the counter serves it. -/
def swaitRow (s : State) (c : Chn) (w : W32) : State :=
  let lat := syncLatency c ((s.sreg c (insA w)).toNat % 131072)
  (s.coreSync c w .wait (s.syncN c w)).coreNext c fun k =>
    { k with wait := .counter lat, waitTicks := 0, waitLong := false }

/-- SRD: the core stalls until s(d) is written, in cycle c + 2L. -/
def srdRow (s : State) (c : Chn) (w : W32) : State :=
  let lat := syncLatency c ((s.sreg c (insA w)).toNat % 131072)
  (s.coreSync c w (.read (BitVec.ofNat 5 (insD w))) 0).modCore c fun k =>
    { k with pc := k.pc + 4, readyAt := s.cy + 2 * lat + 1 }

/-! ### Messages (R289 to R292) -/

/-- The 32-byte block an address of a message buffer names: two codewords from it. -/
def msgBlock (a : W64) : Nat := a.toNat % dmemSize / 32 * 2

def msendRow (s : State) (c : Chn) (w : W32) : State :=
  let b := s.sreg c (insB w)
  let k := (s.chan c).core
  let i := msgBlock (s.sreg c (insA w))
  let chk := k.dmem.checkSpan (16 * i) 32
  let m : Msg := ⟨BitVec.ofNat 8 c.val, fld b 0 8, fld b 8 16, joinCws (k.dmem.readCws i 2)⟩
  let s := (s.countChan c chk.ce chk.ue).coreNext c id
  if (s.port c.val).out.length < 4 then s.enterPort c m
  else s.modCore c fun k => { k with wait := .send m, sendTicks := 0, stallRaised := false }

/-- An MSEND that waits completes when its port has room (R290). -/
def State.msendComplete (s : State) (c : Chn) : State :=
  match (s.chan c).core.wait with
  | .send m =>
    if (s.port c.val).out.length < 4 then
      (s.modCore c fun k => { k with wait := .none, readyAt := s.cy + 1 }).enterPort c m
    else s
  | _ => s

/-- Whether a message passes a filter: its tag, or ANY (R292). -/
def passes (filter : W64) (m : Msg) : Bool := bitAt filter 63 || m.tag = fld filter 8 16

/-- Take the oldest message that passes: its payload goes to data memory, its source and tag to
s(d). -/
def State.receive (s : State) (c : Chn) (addr : Nat) (filter : W64) (d : Nat) : Option State :=
  match (s.port c.val).inbox.find? (passes filter) with
  | none => none
  | some m =>
    let s := s.modPort c.val fun p => { p with inbox := p.inbox.eraseP (passes filter) }
    let s := (s.ledger c ldMsgRecv 1).refill c.val
    some (s.modCore c fun k =>
      ({ k with
        dmem := k.dmem.writeCws addr (splitCws m.payload)
        wait := .none
        waitTicks := 0
        waitLong := false
        readyAt := s.cy + 1 }).setReg d (w64 (m.src.toNat + 256 * m.tag.toNat)))

def mrecvRow (s : State) (c : Chn) (w : W32) : State :=
  let filter := s.sreg c (insB w)
  let a := msgBlock (s.sreg c (insA w))
  let s := s.coreNext c id
  match s.receive c a filter (insD w) with
  | some s => s
  | none => s.modCore c fun k =>
      { k with wait := .recv a filter (BitVec.ofNat 5 (insD w)), waitTicks := 0, waitLong := false }

/-- An MRECV that waits completes when a message that passes is there (R292). -/
def State.mrecvComplete (s : State) (c : Chn) : State :=
  match (s.chan c).core.wait with
  | .recv a filter d => (s.receive c a filter d.toNat).getD s
  | _ => s

def mpollRow (s : State) (c : Chn) (w : W32) : State :=
  s.coreResult c w (w64 ((s.port c.val).inbox.filter (passes (s.sreg c (insB w)))).length)

/-! ### Broadcasts (R150, R224) -/

/-- BCAST: held during a block, else in place within 40 cycles. -/
def bcastRow (s : State) (c : Chn) (w : W32) : State :=
  let bands := fld w 0 8
  let v := fld (s.sreg c (insA w)) 0 32
  s.coreNext c fun k => { k with
    bcasts := k.bcasts ++ [(fldN w 8 3, if bands = 0 then 0xFF#8 else bands, v)]
    landAt := s.cy + 40 }

/-- The cells of the named bands take a broadcast value. -/
def landOne (cells : Smap Cell) (b : Nat × Byte × W32) : Smap Cell :=
  (List.range 2560).foldl (fun m n =>
    if bitAt b.2.1 (n / 320) then
      let c := Smap.get Cell.reset m n
      Smap.upsert m n { c with bc := c.bc.set! b.1 b.2.2 }
    else m) cells

/-- Every broadcast that is held lands, in program order. -/
def Chan.landBcasts (ch : Chan) : Chan :=
  { ch with
    cells := ch.core.bcasts.foldl landOne ch.cells
    core := { ch.core with bcasts := [] } }

/-! ### SYS (R207, R543) -/

/-- CSRR of a reserved number writes 0 and raises CODE OPCODE; a read of EVIN clears what it
returns. -/
def csrrRow (s : State) (c : Chn) (w : W32) : State :=
  let k := (s.chan c).core
  match fldN w 0 12 with
  | 0 => s.coreResult c w (w64 c.val)
  | 1 => s.coreResult c w (s.chan c).regs.gateMark
  | 2 => (s.coreResult c w (k.evin.setWidth 64)).modCore c fun k => { k with evin := 0 }
  | _ => (s.coreResult c w 0).coreFault c clCode 3 k.pc (w64 (k.pc / 16)) ones64

def csrwRow (s : State) (c : Chn) (w : W32) : State :=
  let k := (s.chan c).core
  if fldN w 0 12 = 1 then
    (s.modChan c fun ch => { ch with regs := { ch.regs with gateMark := k.reg (insA w) } }).coreNext c id
  else (s.coreNext c id).coreFault c clCode 3 k.pc (w64 (k.pc / 16)) ones64

def rdtideRow (s : State) (c : Chn) (w : W32) : State := s.coreResult c w s.tide.count
def rdfwaitRow (s : State) (c : Chn) (w : W32) : State := s.coreResult c w (s.chan c).regs.gwStream
def rdcycRow (s : State) (c : Chn) (w : W32) : State := s.coreResult c w (s.chan c).regs.cycles

/-- RDRAND: 64 bits of the channel's DRBG; CODE POISONED when it is unhealthy (R488). -/
def rdrandRow (s : State) (c : Chn) (w : W32) : State :=
  let d := s.drbgDraw c.val
  match d.2 with
  | some x => d.1.coreResult c w (fld x 0 64)
  | none => (d.1.coreFault c clCode 4 (s.chan c).core.pc ones64 ones64).coreNext c id

/-- FLGCLR asks for what a write of CLEAR_NEXT asks for (R164). DESIGN CHOICE (log 96): CHn_VFLGCTL.CLEAR_NEXT
reads 1 until it is done. -/
def flgclrRow (s : State) (c : Chn) (_ : W32) : State :=
  (s.modChan c fun ch => { ch with regs := { ch.regs with clearNext := true } }).coreNext c id

/-- The event is raised in the cycle after EVSIG issues (R421). -/
def evsigRow (s : State) (c : Chn) (w : W32) : State :=
  ({ s with ev := { s.ev with signals := s.ev.signals ++ [evSoftware c (fldN w 0 6)] } } : State).coreNext c id

/-! ### Faults of the instruction itself (R205, R174) -/

/-- The next instruction cannot issue: its codeword is bad, it is reserved, or it lies beyond
instruction memory. A reserved one acts as nothing; after the others the core issues no more. -/
def State.insFault (s : State) (c : Chn) : State :=
  if s.coreReady c then
    let k := (s.chan c).core
    if returnAddr ≤ k.pc then
      (s.modCore c fun k => { k with dead := true }).coreFault c clCode 2 k.pc (w64 (k.pc / 16)) ones64
    else
      let f := k.fetch
      match f.2.bad with
      | some b => ((s.countChan c f.2.ce f.2.ue).modCore c fun k => { k with dead := true }).coreFault c
          clCode (if b.2.1 then 1 else 4) k.pc (w64 (k.pc / 16)) (w64 b.2.2)
      | none =>
        if (coreKind k.word).isNone then
          (s.coreNext c id).coreFault c clCode 3 k.pc (w64 (k.pc / 16)) ones64
        else s
  else s

def execCcoreInstructionFault (c : Chn) (s : State) : Host.Outcome State Fault Refusal :=
  s.onChan c fun s => s.insFault c

def execAlu (c : Chn) (s : State) : Host.Outcome State Fault Refusal :=
  s.onChan c fun s => s.coreRow c .alu aluRow
def execIaddk (c : Chn) (s : State) : Host.Outcome State Fault Refusal :=
  s.onChan c fun s => s.coreRow c .iaddk iaddkRow
def execBandk (c : Chn) (s : State) : Host.Outcome State Fault Refusal :=
  s.onChan c fun s => s.coreRow c .bandk bandkRow
def execBork (c : Chn) (s : State) : Host.Outcome State Fault Refusal :=
  s.onChan c fun s => s.coreRow c .bork borkRow
def execBxork (c : Chn) (s : State) : Host.Outcome State Fault Refusal :=
  s.onChan c fun s => s.coreRow c .bxork bxorkRow
def execShiftk (c : Chn) (s : State) : Host.Outcome State Fault Refusal :=
  s.onChan c fun s => s.coreRow c .shiftk shiftkRow
def execCltsk (c : Chn) (s : State) : Host.Outcome State Fault Refusal :=
  s.onChan c fun s => s.coreRow c .cltsk cltskRow
def execCltuk (c : Chn) (s : State) : Host.Outcome State Fault Refusal :=
  s.onChan c fun s => s.coreRow c .cltuk cltukRow
def execLdk (c : Chn) (s : State) : Host.Outcome State Fault Refusal :=
  s.onChan c fun s => s.coreRow c .ldk ldkRow
def execShins (c : Chn) (s : State) : Host.Outcome State Fault Refusal :=
  s.onChan c fun s => s.coreRow c .shins shinsRow
def execLoad (c : Chn) (s : State) : Host.Outcome State Fault Refusal :=
  s.onChan c fun s => s.coreRow c .load loadRow
def execStore (c : Chn) (s : State) : Host.Outcome State Fault Refusal :=
  s.onChan c fun s => s.coreRow c .store storeRow
def execBranch (c : Chn) (s : State) : Host.Outcome State Fault Refusal :=
  s.onChan c fun s => s.coreRow c .branch branchRow
def execCall (c : Chn) (s : State) : Host.Outcome State Fault Refusal :=
  s.onChan c fun s => s.coreRow c .call callRow
def execJreg (c : Chn) (s : State) : Host.Outcome State Fault Refusal :=
  s.onChan c fun s => s.coreRow c .jreg jregRow
def execSsig (c : Chn) (s : State) : Host.Outcome State Fault Refusal :=
  s.onChan c fun s => s.coreRow c .ssig ssigRow
def execSwait (c : Chn) (s : State) : Host.Outcome State Fault Refusal :=
  s.onChan c fun s => s.coreRow c .swait swaitRow
def execStake (c : Chn) (s : State) : Host.Outcome State Fault Refusal :=
  s.onChan c fun s => s.coreRow c .stake stakeRow
def execSset (c : Chn) (s : State) : Host.Outcome State Fault Refusal :=
  s.onChan c fun s => s.coreRow c .sset ssetRow
def execSrd (c : Chn) (s : State) : Host.Outcome State Fault Refusal :=
  s.onChan c fun s => s.coreRow c .srd srdRow
def execMsend (c : Chn) (s : State) : Host.Outcome State Fault Refusal :=
  s.onChan c fun s => s.coreRow c .msend msendRow
def execMrecv (c : Chn) (s : State) : Host.Outcome State Fault Refusal :=
  s.onChan c fun s => s.coreRow c .mrecv mrecvRow
def execMpoll (c : Chn) (s : State) : Host.Outcome State Fault Refusal :=
  s.onChan c fun s => s.coreRow c .mpoll mpollRow
def execBcast (c : Chn) (s : State) : Host.Outcome State Fault Refusal :=
  s.onChan c fun s => s.coreRow c .bcast bcastRow
def execCsrr (c : Chn) (s : State) : Host.Outcome State Fault Refusal :=
  s.onChan c fun s => s.coreRow c .csrr csrrRow
def execCsrw (c : Chn) (s : State) : Host.Outcome State Fault Refusal :=
  s.onChan c fun s => s.coreRow c .csrw csrwRow
def execRdtide (c : Chn) (s : State) : Host.Outcome State Fault Refusal :=
  s.onChan c fun s => s.coreRow c .rdtide rdtideRow
def execRdfwait (c : Chn) (s : State) : Host.Outcome State Fault Refusal :=
  s.onChan c fun s => s.coreRow c .rdfwait rdfwaitRow
def execRdrand (c : Chn) (s : State) : Host.Outcome State Fault Refusal :=
  s.onChan c fun s => s.coreRow c .rdrand rdrandRow
def execRdcyc (c : Chn) (s : State) : Host.Outcome State Fault Refusal :=
  s.onChan c fun s => s.coreRow c .rdcyc rdcycRow
def execFlgclr (c : Chn) (s : State) : Host.Outcome State Fault Refusal :=
  s.onChan c fun s => s.coreRow c .flgclr flgclrRow
def execEvsig (c : Chn) (s : State) : Host.Outcome State Fault Refusal :=
  s.onChan c fun s => s.coreRow c .evsig evsigRow
def execMsendComplete (c : Chn) (s : State) : Host.Outcome State Fault Refusal :=
  s.onChan c fun s => s.msendComplete c
def execMrecvComplete (c : Chn) (s : State) : Host.Outcome State Fault Refusal :=
  s.onChan c fun s => s.mrecvComplete c

end Sys2Proof.Machine
end

