-- ==== Sys2Proof/Machine/Hdm.lean ====
section
/-! DEFINITION. The memory side below the streams: HDM and its carve-outs (R440, R442), Breakwater
(R336, R337), the snoop filter (R444), the window table (R308 to R311), and the rows of the
memory-side dies (R307, R346, R356). -/
namespace Sys2Proof.Machine

/-! ### Stacks -/

def stackBytes : Nat := 2 ^ 36

def State.msd (s : State) (n : Nat) : MsdRegs := s.mem.msd.getD n MsdRegs.reset

def State.modMsd (s : State) (n : Nat) (f : MsdRegs → MsdRegs) : State :=
  { s with mem := { s.mem with msd := s.mem.msd.set! n (f (s.msd n)) } }

/-- Whether the grade has the stack of an HDM byte. -/
def State.hasStack (s : State) (n : Nat) : Bool := decide (n < if s.four then 8 else 6)

/-- The first byte of a stack that the part keeps for itself (R442). -/
def generalEnd (stack : Nat) : Nat := if stack = 0 then 0xE80000000 else 0xF00000000

/-- Count what a die's check of its stack found; a window's corrections that pass STACK_LIMIT raise
CE_STACK_HIGH (R355, R356). -/
def State.countMsd (s : State) (n ce ue : Nat) : State :=
  if ce = 0 && ue = 0 then s
  else
    let d := s.msd n
    let lim := s.flt.stackLimit.toNat
    let s := s.modMsd n fun d => { d with
      ce := d.ce + w64 ce, ue := d.ue + w64 ue, ceWindow := satAdd d.ceWindow ce }
    let s := s.raiseN evDataPoisoned ue
    if d.ceWindow.toNat ≤ lim && lim < d.ceWindow.toNat + ce then s.raise evCeStackHigh else s

/-- Count what the I/O die's check of data to the host found (R355). -/
def State.countIod (s : State) (ce ue : Nat) : State :=
  ({ s with flt := { s.flt with iodCe := s.flt.iodCe + w64 ce, iodUe := s.flt.iodUe + w64 ue } } : State).raiseN
    evDataPoisoned ue

/-! ### Breakwater -/

/-- Set and number of a 256-byte line inside its stack. -/
def bwSet (line : Nat) : Nat := line % 32768

def bwHas (d : MsdRegs) (line : Nat) : Bool := (Smap.get [] d.bwLines (bwSet line)).contains line

/-- A read of a line: a hit, or a miss that allocates when it is shared (R336). -/
def bwRead (shared : Bool) (d : MsdRegs) (line : Nat) : MsdRegs :=
  if !d.bwEnable then d
  else
    let set_ := Smap.get [] d.bwLines (bwSet line)
    if set_.contains line then
      { d with bwHit := d.bwHit + 1,
               bwLines := Smap.put [] d.bwLines (bwSet line) (line :: set_.erase line) }
    else if shared then
      { d with bwMiss := d.bwMiss + 1, bwAlloc := d.bwAlloc + 1,
               bwLines := Smap.put [] d.bwLines (bwSet line) ((line :: set_).take 16) }
    else { d with bwMiss := d.bwMiss + 1 }

/-- A write of a line invalidates its copy (R336, R337). -/
def bwWrite (d : MsdRegs) (line : Nat) : MsdRegs :=
  if bwHas d line then
    { d with bwInval := d.bwInval + 1,
             bwLines := Smap.put [] d.bwLines (bwSet line)
               ((Smap.get [] d.bwLines (bwSet line)).erase line) }
  else d

/-- The blocks of `size` bytes that a list of addresses touches, rising. -/
def blocksOf (size : Nat) (addrs : List Nat) : List Nat :=
  addrs.foldl (fun acc a => insertNat acc (a / size)) []

def State.bwReads (s : State) (shared : Bool) (addrs : List Nat) : State :=
  (blocksOf 256 addrs).foldl (fun s l =>
    s.modMsd (l * 256 / stackBytes) fun d => bwRead shared d (l % 2 ^ 28)) s

def State.bwWrites (s : State) (addrs : List Nat) : State :=
  (blocksOf 256 addrs).foldl (fun s l => s.modMsd (l * 256 / stackBytes) fun d => bwWrite d (l % 2 ^ 28)) s

/-! ### Reading HDM through the checks -/

/-- The byte of a codeword after its check (R352). -/
def Mem.goodByte (m : Mem) (a : Nat) : Byte := fld (m.cw (a / 16)).check.1.data (8 * (a % 16)) 8

def Mem.isPoison (m : Mem) (a : Nat) : Bool := bitAt (m.cw (a / 16)).check.1.poison 0

/-- Check every codeword that the addresses touch, for the counters of its home die. -/
def State.checkHdm (s : State) (addrs : List Nat) : State :=
  (blocksOf 16 addrs).foldl (fun s i =>
    let r := (s.mem.hdm.cw i).check.2
    s.countMsd (16 * i / stackBytes) r.ce r.ue) s

/-! ### Writes by the part, and back-invalidates (R444, R445) -/

def mergeByte (old : Byte) (w : ByteWrite) : Byte := (old &&& ~~~w.mask) ||| (w.val &&& w.mask)

/-- A byte written as plain data, or as it lies in a codeword of a memory. -/
def ByteWrite.plain (addr : Nat) (mask val : Byte) (poison : Bool) : ByteWrite :=
  ⟨addr, mask, val, poison, addr / 16, 2 * (addr % 16), 0⟩

def Mem.marked (m : Mem) (src dst : Nat) : ByteWrite :=
  let c := (m.cw (src / 16)).check.1
  ⟨dst, BitVec.allOnes 8, fld c.data (8 * (src % 16)) 8, bitAt c.poison 0, src / 16, 2 * (src % 16),
    c.resid.setWidth 16⟩

/-- The writes overwrite codeword `i` whole. -/
def overwrites (ws : List ByteWrite) (i : Nat) : Bool :=
  (List.range 16).all fun j =>
    ws.foldl (fun (m : Byte) w => if w.addr = 16 * i + j then m ||| w.mask else m) 0 = BitVec.allOnes 8

/-- The bits lie in the destination codeword where they lay in the source codeword. -/
def ByteWrite.inPlace (w : ByteWrite) : Bool :=
  decide (w.lane = 2 * (w.addr % 16) + if w.mask = 0xF0#8 then 1 else 0)

/-- The check difference of the codeword whose bits the writes move in place, when it is one. -/
def movedResid : List ByteWrite → Option W16
  | [] => none
  | w :: ws => if (w :: ws).all fun x => x.inPlace && x.word = w.word && x.resid = w.resid then some w.resid else none

/-- Bytes written to a memory. A codeword that is moved whole is stored as it is, its check bytes with it
(R306); any other forms a codeword anew from what it merges. A codeword is poisoned when a byte from a
poisoned codeword enters it, and clean again only when it is overwritten whole (R350). -/
def Mem.writeMarked (m : Mem) (ws : List ByteWrite) : Mem :=
  let n := ws.foldl (fun m w => m.writeByte w.addr (mergeByte (m.goodByte w.addr) w)) m
  (blocksOf 16 (ws.map (·.addr))).foldl (fun n i =>
    let mine := ws.filter fun w => w.addr / 16 = i
    let whole := overwrites mine i
    let n := if whole then n.setPoison i false else n
    let n := if mine.any (·.poison) then n.setPoison i true else n
    match whole, movedResid mine with
    | true, some r => { n with resid := Smap.put 0 n.resid i r }
    | _, _ => n) n

/-- A write lands at its home dies: DRAM changes and Breakwater copies go. -/
def State.land (s : State) (ws : List ByteWrite) : State :=
  let s : State := { s with mem := { s.mem with hdm := s.mem.hdm.writeMarked ws } }
  s.bwWrites (ws.map ByteWrite.addr)

/-- Whether the host may hold a 64-byte line. -/
def State.snooped (s : State) (line : Nat) : Bool :=
  let d := s.msd (line * 64 / stackBytes)
  (Smap.get [] d.snoop (line % 131072)).contains line

def State.freeSnoop (s : State) (line : Nat) : State :=
  s.modMsd (line * 64 / stackBytes) fun d => { d with
    snoop := Smap.put [] d.snoop (line % 131072) ((Smap.get [] d.snoop (line % 131072)).erase line) }

/-- Issue BISnpInv for a line, once. -/
def State.issueSnoop (s : State) (line : Nat) : State :=
  if s.mem.snooping.contains line then s
  else { s with
    mem := { s.mem with snooping := insertNat s.mem.snooping line }
    cxl := { s.cxl with bisnp := s.cxl.bisnp + 1 } }

/-- Whether an access to an HDM byte waits for a retraining of its stack; a read that hits in
Breakwater does not (R511). -/
def State.stackWait (s : State) (read : Bool) (a : Nat) : Bool :=
  let d := s.msd (a / stackBytes)
  d.retraining && !(read && bwHas d (a / 256 % 2 ^ 28))

def State.hasHeld (s : State) (owner : Nat) : Bool := s.mem.heldWrites.any fun h => h.owner = owner

/-- The 64-byte lines of a write that the host may hold. -/
def State.snoopedLines (s : State) (ws : List ByteWrite) : List Nat :=
  (blocksOf 64 (ws.map (·.addr))).filter s.snooped

/-- Whether a write can land at once: the host holds none of its lines, and no stack retrains. -/
def State.landsNow (s : State) (ws : List ByteWrite) : Bool :=
  (s.snoopedLines ws).isEmpty && !ws.any fun w => s.stackWait false w.addr

/-- Back-invalidate every line of a write that the host may hold. -/
def State.snoopFor (s : State) (ws : List ByteWrite) : State := (s.snoopedLines ws).foldl State.issueSnoop s

/-- A write by one of the part's units: it waits for the back-invalidates of the lines that the host
may hold, for a retraining, and for what its owner wrote before, and lands (R444, R511). -/
def State.partWrite (s : State) (owner : Nat) (ws : List ByteWrite) : State :=
  if s.landsNow ws && !s.hasHeld owner then s.land ws
  else
    let lines := s.snoopedLines ws
    let s := s.snoopFor ws
    { s with mem := { s.mem with heldWrites := s.mem.heldWrites ++ [⟨owner, lines, ws⟩] } }

/-- Whole clean bytes from an address. -/
def plainWrites : Nat → List Byte → List ByteWrite
  | _, [] => []
  | a, b :: bs => ByteWrite.plain a (BitVec.allOnes 8) b false :: plainWrites (a + 1) bs

/-- Whether a held write awaits nothing any more. -/
def State.heldReady (s : State) (h : HeldWrite) : Bool :=
  h.lines.isEmpty && !h.writes.any fun w => s.stackWait false w.addr

/-- The entries of the journal that have reached HBM (R412). -/
def State.countJournal (s : State) : State :=
  { s with cmd := { s.cmd with
    jHbmHead := s.cmd.jHead - w64 (s.mem.heldWrites.filter fun h => h.owner = 9).length } }

/-- Land every held write that awaits nothing any more, each owner's in the order issued. -/
def State.landReady (s : State) : State :=
  let held := s.mem.heldWrites
  let s : State := { s with mem := { s.mem with heldWrites := [] } }
  (held.foldl (fun s h =>
    if s.heldReady h && !s.hasHeld h.owner then s.land h.writes
    else { s with mem := { s.mem with heldWrites := s.mem.heldWrites ++ [h] } }) s).countJournal

/-- Whether a request made under an old translation is still out. -/
def State.readsOut (s : State) : Bool :=
  s.channels.any fun c => (s.chan c).sq.toList.any fun q => !q.reads.isEmpty

/-- A flush ends when nothing made under an old translation is out (R311). -/
def State.endFlush (s : State) : State :=
  if s.mem.flushing && !s.readsOut && s.mem.heldWrites.isEmpty then
    { s with mem := { s.mem with
      flushing := false
      msd := s.mem.msd.map fun (d : MsdRegs) => { d with tcache := [] } } }
  else s

/-- The host answers a back-invalidate: dirty data lands first, the entry is freed, and the write that
waited follows (R444, R445). -/
def State.snoopAnswer (s : State) (line : Nat) (dirty : Option (BitVec 512)) : State :=
  if s.mem.snooping.contains line then
    let s := match dirty with
      | some d => s.land (plainWrites (64 * line) (bytesLE 64 d.toNat))
      | none => s
    let s := s.freeSnoop line
    let s : State := { s with mem := { s.mem with
      snooping := s.mem.snooping.filter fun l => decide (l ≠ line)
      heldWrites := s.mem.heldWrites.map fun (h : HeldWrite) =>
        { h with lines := h.lines.filter fun l => decide (l ≠ line) } } }
    s.landReady.endFlush
  else s

def execBisnpResponse (off : Nat) (dirty : Option (BitVec 512)) (s : State) :
    Host.Outcome State Fault Refusal :=
  .next (s.snoopAnswer (off / 64) dirty)

/-! ### Host CXL.mem accesses (R440 to R445) -/

/-- What a CXL.mem access may do at an HDM offset: read, and write (R442, R443). -/
def State.hostAccess (s : State) (off : Nat) : Bool × Bool :=
  let o := off % stackBytes
  if !s.hasStack (off / stackBytes) then (false, false)
  else if o < generalEnd (off / stackBytes) then (true, true)
  else if off / stackBytes ≠ 0 then (false, false)
  else if o < 0xE80100000 then (true, true)
  else if 0xE84000000 ≤ o && o < 0xE88000000 then (true, false)
  else if 0xE88000000 ≤ o && o < 0xE89000000 then (true, false)
  else (false, false)

/-- A refused access is counted, and its offset kept (R443). -/
def State.hdmError (s : State) (off : Nat) : State :=
  { s with cxl := { s.cxl with hdmErr := s.cxl.hdmErr + 1, hdmErrAt := w64 off } }

/-- The answer to a host read, kept where a reader of the state finds it: bit 512 is the poison
indication. -/
def State.answerLine (s : State) (data : Nat) (poison : Bool) : State :=
  { s with cxl := { s.cxl with lineData := BitVec.ofNat 513 (data + 2 ^ 512 * boolBit poison) } }

/-- A host read of a 64-byte line. A cacheable copy enters the snoop filter; when its set is full the
least recently used entry is back-invalidated first, and the read waits for that. -/
def State.hostRead (s : State) (off : Nat) (cacheable : Bool) : State :=
  let line := off / 64
  let a := 64 * line
  if !s.cxl.memActive then (s.answerLine 0 true).hdmError off
  else if !(s.hostAccess off).1 then (s.answerLine 0 false).hdmError off
  else
    let addrs := (List.range 64).map (a + ·)
    let set_ := Smap.get [] (s.msd (a / stackBytes)).snoop (line % 131072)
    let keep := cacheable && !s.cxl.quiesced
    if s.stackWait true a then s
    else if keep && !set_.contains line && decide (16 ≤ set_.length) then
      s.issueSnoop (set_.getLastD line)
    else
      let s := (s.checkHdm addrs).bwReads false addrs
      let s := if keep then
          s.modMsd (a / stackBytes) fun d => { d with
            snoop := Smap.put [] d.snoop (line % 131072) (line :: set_.erase line) }
        else s
      s.answerLine (ofBytesLE (addrs.map s.mem.hdm.goodByte)) (addrs.any s.mem.hdm.isPoison)

def execCxlMemRead (off : Nat) (cacheable : Bool) (s : State) : Host.Outcome State Fault Refusal :=
  .next (s.hostRead off cacheable)

/-! ### The window table (R308 to R311) -/

/-- A translation of a virtual address: a byte of HDM or of host memory, or a cause of R333. -/
inductive Xlat where
  | ok (host : Bool) (byte : Nat)
  | bad (cause : Nat)
  deriving DecidableEq, Repr

def pgABSENT : Nat := 1
def pgTAG : Nat := 2
def pgWRITE : Nat := 3
def pgRESERVED : Nat := 4

def wtIndex (va : Nat) : Nat := va / 2 ^ 21 % 2 ^ 18

def wtFrame (e : W64) : Nat := fldN e 21 43 * 2 ^ 21

/-- Whether an HBM entry names bytes that streams may use: a present stack, its general range. -/
def State.frameOk (s : State) (e : W64) : Bool :=
  s.hasStack (fldN e 4 3) && decide (wtFrame e < generalEnd (fldN e 4 3))

/-- What an entry gives for a virtual address, the causes in the order of R333. -/
def State.useEntry (s : State) (e : W64) (va : Nat) (write : Bool) : Xlat :=
  let host := bitAt e 1
  if !bitAt e 0 then .bad pgABSENT
  else if fldN e 8 13 ≠ va / 2 ^ 39 % 2 ^ 13 then .bad pgTAG
  else if write && !bitAt e 2 then .bad pgWRITE
  else if host then .ok true (wtFrame e + va % 2 ^ 21)
  else if !s.frameOk e then .bad pgRESERVED
  else .ok false (fldN e 4 3 * stackBytes + wtFrame e + va % 2 ^ 21)

/-- The 2 MiB page of an address. -/
def pageOf (va : Nat) : Nat := va / 2 ^ 21

/-- The entry in use for a page: the engine's cached one, else the table's (R311). -/
def State.entryFor (s : State) (die eng va : Nat) : W64 :=
  match (Smap.get [] (s.msd die).tcache eng).find? fun e => e.1 = pageOf va with
  | some e => e.2
  | none => Smap.get 0 s.mem.wtab (wtIndex va)

/-- An engine's translation cache after the use of an entry: 32 entries, the least recently used one gives
way (R305; DESIGN CHOICE, log 83). -/
def cacheUse (va : Nat) (e : W64) (l : List (Nat × W64)) : List (Nat × W64) :=
  ((pageOf va, e) :: l.filter fun x => x.1 ≠ pageOf va).take 32

/-- Translate for engine `eng` of a die; an entry that maps the page enters its cache. -/
def State.translate (s : State) (die eng va : Nat) (write : Bool) : State × Xlat :=
  let e := s.entryFor die eng va
  let x := s.useEntry e va write
  match x with
  | .ok _ _ => (s.modMsd die fun d => { d with
      tcache := Smap.upsert d.tcache eng (cacheUse va e (Smap.get [] d.tcache eng)) }, x)
  | .bad _ => (s, x)

/-- A window table entry as it is kept: its reserved bits read as 0 (R14, R309). -/
def wtKeep (w : W64) : W64 := w &&& 0xFFFFFFFFFFFFFF77

/-- A write of the window table aperture (R310). -/
def State.writeEntry (s : State) (i : Nat) (part : WordPart) (w : W64) : State :=
  if i < 2 ^ 18 then
    let m := s.mem
    { s with mem := match part with
      | .whole => { m with wtab := Smap.put 0 m.wtab i (wtKeep w) }
      | .low => { m with wtabLow := Smap.upsert m.wtabLow i (fld w 0 32) }
      | .high =>
        let low := match Smap.find? m.wtabLow i with
          | some l => l
          | none => fld (Smap.get 0 m.wtab i) 0 32
        { m with
          wtab := Smap.put 0 m.wtab i (wtKeep (w64 (low.toNat + 2 ^ 32 * fldN w 0 32)))
          wtabLow := Smap.erase m.wtabLow i } }
  else s

def execWindowTableWrite (i : Nat) (part : WordPart) (w : W64) (s : State) :
    Host.Outcome State Fault Refusal :=
  .next (s.writeEntry i part w)

/-- A write of FLUSH drops every cached translation at once; FLUSH reads 1 until every request made
under an old one has completed. -/
def State.flushTable (s : State) : State :=
  let s : State := { s with mem := { s.mem with
    flushing := true
    msd := s.mem.msd.map fun (d : MsdRegs) => { d with tcache := [] } } }
  s.endFlush

def execWtabFlush (s : State) : Host.Outcome State Fault Refusal := .next s.flushTable

/-! ### Rows of the memory-side dies -/

/-- A write of `MSDn_BWCTL.ENABLE` (R337). -/
def State.enableBw (s : State) (n : Nat) (on : Bool) : State :=
  s.modMsd n fun d => { d with bwEnable := on, bwLines := if on then d.bwLines else [] }

def execBreakwaterEnable (n : Fin 8) (on : Bool) (s : State) : Host.Outcome State Fault Refusal :=
  s.onMsd n fun s => s.enableBw n.val on

def State.invalidateBw (s : State) (n : Nat) : State := s.modMsd n fun d => { d with bwLines := [] }

def execBreakwaterInvalidate (n : Fin 8) (s : State) : Host.Outcome State Fault Refusal :=
  s.onMsd n fun s => s.invalidateBw n.val

/-- A refresh command (R307). -/
def execHbmRefresh (n : Fin 8) (s : State) : Host.Outcome State Fault Refusal :=
  s.onMsd n fun s => s.modMsd n.val fun d => { d with refresh := d.refresh + 1 }

/-- An interface error is retried; when the retries are exhausted a retrain is due (R307). -/
def State.retryHbm (s : State) (n : Nat) (wdata exhausted : Bool) : State :=
  let s := s.modMsd n fun d =>
    if wdata then { d with retryWdata := satInc d.retryWdata } else { d with retryCa := satInc d.retryCa }
  if exhausted then (s.modMsd n fun d => { d with retrainDue := true }).raise (evHbmLinkError n) else s

def execHbmRetry (n : Fin 8) (wdata exhausted : Bool) (s : State) : Host.Outcome State Fault Refusal :=
  s.onMsd n fun s => s.retryHbm n.val wdata exhausted

/-- The scrub reads the 16 codewords of one 256-byte line and writes back those it corrects or finds
bad; poisoned ones stay (R356). A period of 0 disables it (R379). -/
def State.scrubLine (s : State) (n line : Nat) : State :=
  if line < 2 ^ 28 && decide ((s.msd n).scrubPeriod ≠ 0) then
    let i := (n * stackBytes + 256 * line) / 16
    (List.range 16).foldl (fun s j =>
      let r := (s.mem.hdm.cw (i + j)).check.2
      ({ s with mem := { s.mem with hdm := s.mem.hdm.settle (i + j) } }).countMsd n r.ce r.ue) s
  else s

def execPatrolScrub (n : Fin 8) (granule : Nat) (s : State) : Host.Outcome State Fault Refusal :=
  s.onMsd n fun s => s.scrubLine n.val granule

end Sys2Proof.Machine
end

