-- ==== Sys2Proof/Machine/Tensors.lean ====
section
/-! DEFINITION. Tensor and stream descriptors (R314 to R320, R322): their fields, shapes and beat
sequences, where an element lies, and the checks that SOPEN makes (R318, R342). -/
namespace Sys2Proof.Machine

/-! ### The tables of the image in force -/

def emptyPart : ImagePart where
  chset := 0
  codeSets := []
  programs := Quad.all none
  blocks := []
  gateLists := []
  totals := []
  tallyPlan := []
  digestPlan := []
  streamDescs := Quad.all []
  tensorDescs := []
  sqCaps := Quad.all []
  dqCaps := Quad.all []
  barriers := Quad.all []
  trees := Quad.all []
  saveSet := []
  resume := []
  ledgerStart := Quad.all []
  restoreMap := []

/-- Variant `n` of an image; 0 is the main image. -/
def partOf (i : Image) (n : Nat) : ImagePart :=
  if n = 0 then i.main else i.variants.getD (n - 1) emptyPart

/-- The tables in force. -/
def State.part (s : State) : ImagePart :=
  match s.img.image with
  | some i => partOf i s.img.variant
  | none => emptyPart

/-! ### Tensor descriptors (R315, R316) -/

abbrev TDesc := BitVec 512

def tdBase (t : TDesc) : Nat := fldN t 0 52
def tdExt (t : TDesc) (d : Nat) : Nat := fldN t (64 + 32 * d) 32
def tdStride (t : TDesc) (d : Nat) : Int := if d = 0 then 0 else fldI t (224 + 40 * (d - 1)) 40
def tdFmt (t : TDesc) : Nat := fldN t 384 5
def tdNdim (t : TDesc) : Nat := fldN t 392 3
def tdTranspose (t : TDesc) : Bool := bitAt t 395
def tdDigest (t : TDesc) : Bool := bitAt t 396
def tdShared (t : TDesc) : Bool := bitAt t 397
def tdScale (t : TDesc) : Nat := fldN t 400 16
def tdIndex (t : TDesc) : Nat := fldN t 416 16
def tdIdim (t : TDesc) : Nat := fldN t 432 3
def tdRegion (t : TDesc) : Nat := fldN t 448 32
def tdCrc (t : TDesc) : Nat := fldN t 480 32

/-- The entry of a handle; an entry that LOAD_IMAGE left is 0 (R314). -/
def State.tensor (s : State) (h : Nat) : TDesc := Smap.get 0 s.mem.tdt h

/-- Half-bytes in an element; 0 for a reserved format (R316). -/
def fmtNibbles (f : Nat) : Nat :=
  if f = 0x04 || f = 0x09 then 1
  else if f = 0x0B || f = 0x0C then 4
  else if f = 0x0D || f = 0x0E then 8
  else if f < 0x10 then 2 else 0

def prodN (l : List Nat) : Nat := l.foldl (· * ·) 1

/-- The extents of the dimensions in use. -/
def tdExts (t : TDesc) : List Nat := (List.range (min 5 (max 1 (tdNdim t)))).map (tdExt t)

/-- The positions along each dimension: along IDIM one for each element of the index tensor (R320). -/
def State.tdShape (s : State) (t : TDesc) : List Nat :=
  if tdIndex t = 0 then tdExts t
  else (tdExts t).set (tdIdim t) (prodN (tdExts (s.tensor (tdIndex t))))

def State.tdElems (s : State) (t : TDesc) : Nat := prodN (s.tdShape t)

/-- Beats of 64 bytes, and words of 16 bytes, of a tensor (R317, R261). -/
def State.tdBeats (s : State) (t : TDesc) : Nat := (s.tdElems t * fmtNibbles (tdFmt t) + 127) / 128
def State.tdWords (s : State) (t : TDesc) : Nat := (s.tdElems t * fmtNibbles (tdFmt t) + 31) / 32

/-! ### Positions (R317, R319) -/

/-- The coordinates of number `j` in a shape, dimension 0 fastest. -/
def digits : List Nat → Nat → List Nat
  | [], _ => []
  | n :: ns, j => j % n :: digits ns (j / n)

def undigits : List Nat → List Nat → Nat
  | n :: ns, d :: ds => d + n * undigits ns ds
  | _, _ => 0

def swap01 : List Nat → List Nat
  | a :: b :: r => b :: a :: r
  | l => l

/-- The coordinates of element `j` of the beat sequence. -/
def tdCoords (t : TDesc) (shape : List Nat) (j : Nat) : List Nat :=
  if tdTranspose t then swap01 (digits (swap01 shape) j) else digits shape j

/-- The virtual address of coordinates. -/
def tdAddr (t : TDesc) (cs : List Nat) : Nat :=
  let far := cs.zipIdx.foldl (fun acc c => acc + tdStride t c.2 * (c.1 : Int)) 0
  (((tdBase t + cs.headD 0 * fmtNibbles (tdFmt t) / 2 : Nat) : Int) + far).emod (2 ^ 52) |>.toNat

/-- The nibble of a half-byte element: high when i0 is odd. -/
def tdNibble (t : TDesc) (cs : List Nat) : Option Bool :=
  if fmtNibbles (tdFmt t) = 1 then some (decide (cs.headD 0 % 2 = 1)) else none

/-- Where an element lies, or why it cannot be reached: a page that cannot be used, or an index value
outside its range. -/
inductive Placed where
  | at_ (loc : Loc) (logical : Nat)
  | page (cause va : Nat)
  | range (v : Int)
  deriving DecidableEq, Repr

/-- Bytes of memory as the memory side reads them. -/
def State.readByte (s : State) (host : Bool) (a : Nat) : Byte :=
  if host then Smap.get 0 s.host.bytes a else s.mem.hdm.goodByte a

/-- The bytes that `n` bytes at a virtual address translate to, up to the first page that cannot be used:
the causes of R333 and its address. An element may lie on two pages. -/
def State.vaBytes (s : State) (die eng va n : Nat) (write : Bool) :
    State × List (Bool × Nat) × Option (Nat × Nat) :=
  let first := min n (2 ^ 21 - va % 2 ^ 21)
  let x := s.translate die eng va write
  match x.2 with
  | .bad cause => (x.1, [], some (cause, va))
  | .ok host a =>
    let low := (List.range first).map fun i => (host, a + i)
    if first = n then (x.1, low, none)
    else
      let y := x.1.translate die eng ((va + first) % 2 ^ 52) write
      match y.2 with
      | .bad cause => (y.1, [], some (cause, (va + first) % 2 ^ 52))
      | .ok host a => (y.1, low ++ (List.range (n - first)).map fun i => (host, a + i), none)

/-- Element `p` of an index tensor, read as I32, whether it is poisoned, and where it lies (R320). -/
def State.indexValue (s : State) (die eng : Nat) (it : TDesc) (p : Nat) :
    State × Option (Nat × Nat) × Int × Bool × List (Bool × Nat) :=
  let x := s.vaBytes die eng (tdAddr it (digits (tdExts it) p)) 4 false
  (x.1, x.2.2, (BitVec.ofNat 32 (ofBytesLE (x.2.1.map fun b => s.readByte b.1 b.2))).toInt,
    x.2.1.any (fun b => !b.1 && s.mem.hdm.isPoison b.2), x.2.1)

/-- Place coordinates that are known to be in range. -/
def State.placeAt (s : State) (die eng : Nat) (t : TDesc) (write : Bool) (logical : Nat)
    (cs : List Nat) (poison : Bool) : State × Placed :=
  let x := s.vaBytes die eng (tdAddr t cs) ((fmtNibbles (tdFmt t) + 1) / 2) write
  match x.2.2 with
  | none => (x.1, .at_ ⟨x.2.1, tdNibble t cs, poison⟩ logical)
  | some e => (x.1, .page e.1 e.2)

/-- Place element `j` of the beat sequence. A poisoned index value is used as found, and the element that
it leads to is poisoned (R353; DESIGN CHOICE, log 84). -/
def State.placeElem (s : State) (die eng : Nat) (t : TDesc) (write : Bool) (j : Nat) : State × Placed :=
  let shape := s.tdShape t
  let cs := tdCoords t shape j
  let logical := undigits shape cs
  if tdIndex t = 0 then s.placeAt die eng t write logical cs false
  else
    match s.indexValue die eng (s.tensor (tdIndex t)) (cs.getD (tdIdim t) 0) with
    | (s, some e, _) => (s, .page e.1 e.2)
    | (s, none, v, poison, _) =>
      if 0 ≤ v && v < (tdExt t (tdIdim t) : Int) then
        s.placeAt die eng t write logical (cs.set (tdIdim t) v.toNat) poison
      else (s, .range v)

/-- The elements that a beat of a tensor holds. -/
def State.beatElems (s : State) (t : TDesc) (beat : Nat) : Nat :=
  let per := 128 / fmtNibbles (tdFmt t)
  min per (s.tdElems t - beat * per)

/-- Where the index values of a beat's elements lie. -/
def State.indexBytes (s : State) (die eng : Nat) (t : TDesc) (beat : Nat) : List (Bool × Nat) :=
  if tdIndex t = 0 then []
  else
    ((List.range (s.beatElems t beat)).map fun i =>
      (tdCoords t (s.tdShape t) (beat * (128 / fmtNibbles (tdFmt t)) + i)).getD (tdIdim t) 0).eraseDups.flatMap fun p =>
        (s.indexValue die eng (s.tensor (tdIndex t)) p).2.2.2.2

/-- The elements of a beat, placed in order up to the first that cannot be. -/
def State.placeBeat (s : State) (die eng : Nat) (t : TDesc) (write : Bool) (beat : Nat) :
    State × List (Loc × Nat) × Option Placed :=
  let per := 128 / fmtNibbles (tdFmt t)
  (List.range (s.beatElems t beat)).foldl (fun acc i =>
    match acc.2.2 with
    | some _ => acc
    | none =>
      match acc.1.placeElem die eng t write (beat * per + i) with
      | (s, .at_ l e) => (s, acc.2.1 ++ [(l, e)], none)
      | (s, stop) => (s, acc.2.1, some stop)) (s, [], none)

/-! ### Stream descriptors (R322) -/

abbrev SDesc := BitVec 256

def sdTensor (d : SDesc) : Nat := fldN d 0 16
def sdQueue (d : SDesc) : Nat := fldN d 16 6
def sdDrain (d : SDesc) : Bool := bitAt d 22
def sdAfter (d : SDesc) : Bool := bitAt d 23
def sdStart (d : SDesc) : Nat := fldN d 64 64
def sdLength (d : SDesc) : Nat := fldN d 128 64
def sdCrc (d : SDesc) : Nat := fldN d 224 32

def State.sdesc (s : State) (c : Chn) (i : Nat) : SDesc := (s.part.streamDescs.get c).getD i 0

/-! ### The checks of a descriptor (R318, R342) -/

def dsEXTENT : Nat := 0x01
def dsFORMAT : Nat := 0x02
def dsSHAPE : Nat := 0x03
def dsNULL : Nat := 0x04
def dsSCALE : Nat := 0x05
def dsINDEX : Nat := 0x06
def dsINDEX_RANGE : Nat := 0x07
def dsCRC : Nat := 0x08
def dsSTREAM_RANGE : Nat := 0x09
def dsQUEUE : Nat := 0x0A

/-- The least base + Σ i × step, each i from 0 to its most, that is at or above `want`; the largest
steps come first. -/
def leastFrom (want : Int) : List (Nat × Nat) → Int → Option Int
  | [], base => if want ≤ base then some base else none
  | (st, most) :: rest, base =>
    let span : Nat := rest.foldl (fun acc r => acc + r.1 * r.2) 0
    let first := ((want - base - (span : Int) + (st : Int) - 1) / (st : Int)).toNat
    let last := min most ((want - base + (st : Int) - 1) / (st : Int)).toNat
    (List.range (last + 1 - first)).foldl (fun best i =>
      match best, leastFrom want rest (base + ((st * (first + i) : Nat) : Int)) with
      | some b, some x => some (min b x)
      | none, r => r
      | some b, none => some b) none

/-- The steps above dimension 0, as positive strides, largest first. -/
def tdSteps (t : TDesc) : List (Nat × Nat) :=
  sortBy (fun p => 2 ^ 40 - p.1) ((List.range (tdExts t).length).filterMap fun d =>
    if d = 0 || tdStride t d = 0 || tdExt t d ≤ 1 then none
    else some ((tdStride t d).natAbs, tdExt t d - 1))

/-- The lowest addressed address outside the region, or 2^52 when only the region reaches too far. -/
def tdOutside (t : TDesc) : Option W64 :=
  let first := tdBase t / 4096 * 4096
  let past := first + tdRegion t * 4096
  let past52 : Option W64 := if 2 ^ 52 < past then some (w64 (2 ^ 52)) else none
  if (tdExts t).contains 0 then past52
  else
    let row := (tdExt t 0 * fmtNibbles (tdFmt t) + 1) / 2
    let low : Int := (List.range (tdExts t).length).foldl
      (fun (acc : Int) d => acc + min 0 (tdStride t d * ((tdExt t d : Int) - 1))) (tdBase t : Int)
    if low < first then some (BitVec.ofInt 64 low)
    else
      match leastFrom ((past : Int) - row + 1) (tdSteps t) low with
      | some v => some (BitVec.ofInt 64 (max v past))
      | none => past52

/-- CRC, SHAPE and FORMAT of a tensor descriptor. -/
def tdForm (t : TDesc) : Option (Nat × W64) :=
  if !crcGood 64 t.toNat then some (dsCRC, w64 (tdCrc t))
  else if tdNdim t = 0 || 5 < tdNdim t || tdNdim t ≤ tdIdim t || (tdTranspose t && tdNdim t = 1) then
    some (dsSHAPE, w64 (tdNdim t))
  else if fmtNibbles (tdFmt t) = 0 ||
      (fmtNibbles (tdFmt t) = 1 && (tdExt t 0 % 2 = 1 || tdTranspose t)) then
    some (dsFORMAT, w64 (tdFmt t))
  else none

def tdExtentCheck (t : TDesc) : Option (Nat × W64) := (tdOutside t).map fun v => (dsEXTENT, v)

/-- The stream descriptor's own checks. -/
def State.checkStream (s : State) (d : SDesc) : Option (Nat × W64) :=
  if !crcGood 32 d.toNat then some (dsCRC, w64 (sdCrc d))
  else if sdDrain d && 31 < sdQueue d then some (dsQUEUE, w64 (sdQueue d))
  else if sdTensor d = 0 || s.tensor (sdTensor d) = 0 then some (dsNULL, ones64)
  else if s.tdBeats (s.tensor (sdTensor d)) < sdStart d + sdLength d then
    some (dsSTREAM_RANGE, w64 (s.tdBeats (s.tensor (sdTensor d))))
  else none

/-- The index tensor's checks. -/
def checkIndex (h : Nat) (t : TDesc) : Option (Nat × W64) :=
  (tdForm t).or
    ((if tdFmt t ≠ 0x0E || tdIndex t ≠ 0 || tdTranspose t then some (dsINDEX, w64 h) else none).or
      (tdExtentCheck t))

/-- The scale tensor's checks: its CRC, E8M0, and one element for each 32 along dimension 0. -/
def State.checkScale (s : State) (h : Nat) (t sc : TDesc) : Option (Nat × W64) :=
  if !crcGood 64 sc.toNat then some (dsCRC, w64 (tdCrc sc))
  else if tdFmt sc ≠ 0x0F ||
      s.tdElems sc < (tdExt t 0 + 31) / 32 * prodN ((s.tdShape t).drop 1) then some (dsSCALE, w64 h)
  else none

/-- Stream, tensor, index and scale descriptors in turn: cause, DETAIL1 and the handle of an index or
scale tensor that failed. -/
def State.checkDesc (s : State) (d : SDesc) : Option (Nat × W64 × Nat) :=
  let t := s.tensor (sdTensor d)
  let own := ((s.checkStream d).or ((tdForm t).or (tdExtentCheck t))).map fun e => (e.1, e.2, 0)
  let ix := if tdIndex t = 0 then none
    else (checkIndex (tdIndex t) (s.tensor (tdIndex t))).map fun e => (e.1, e.2, tdIndex t)
  let sc := if tdScale t = 0 then none
    else (s.checkScale (tdScale t) t (s.tensor (tdScale t))).map fun e => (e.1, e.2, tdScale t)
  own.or (ix.or sc)

end Sys2Proof.Machine
end

