-- ==== Sys2Proof/Machine/Streams.lean ====
section
/-! DEFINITION. Streams (R321 to R335, R338 to R343): opening, fetching and returning beats, drains with
their digests, the edge plan, cancels, page halts, the wicket path, and the stream part of a save
point. -/
namespace Sys2Proof.Machine

/-! ### Block table entries (R216) -/

abbrev BEntry := BitVec 512

def beLen (b : BEntry) : Nat := fldN b 0 32
def beChset (b : BEntry) : BitVec 4 := fld b 32 4
def beReplayable (b : BEntry) : Bool := bitAt b 36
def beMarkReq (b : BEntry) : Bool := bitAt b 37
def beNoSave (b : BEntry) : Bool := bitAt b 38
def beLeader (b : BEntry) : Nat := fldN b 40 8
def beJoint (b : BEntry) : Nat := fldN b 48 16
def beBand (b : BEntry) (c : Chn) (band : Nat) : Bool := bitAt b (64 + 8 * c.val + band)
def beCodeset (b : BEntry) : Nat := fldN b 96 16
def beStart (b : BEntry) : Nat := fldN b 112 9
def bePage (b : BEntry) : Bool := bitAt b 121
def beGlist (b : BEntry) : Nat := fldN b 128 32
def beGcount (b : BEntry) : Nat := fldN b 160 16
def beLedger (b : BEntry) : Nat := fldN b 192 32
def beTplan (b : BEntry) : Nat := fldN b 224 32
def beDplan (b : BEntry) : Nat := fldN b 256 32

/-- Gate-list entries of a block: queue, whether it is a drain queue, beats (R217, R321). -/
def State.gateList (s : State) (b : BEntry) : List (Nat × Bool × Nat) :=
  ((s.part.gateLists.drop (beGlist b)).take (beGcount b)).map fun e =>
    (fldN e 0 16, bitAt e 16, fldN e 32 32)

/-! ### Reach -/

def Chan.modSq (ch : Chan) (q : Nat) (f : StreamQ → StreamQ) : Chan :=
  { ch with sq := ch.sq.set! q (f (ch.sq.getD q StreamQ.reset)) }

def Chan.modDq (ch : Chan) (q : Nat) (f : DrainQ → DrainQ) : Chan :=
  { ch with dq := ch.dq.set! q (f (ch.dq.getD q DrainQ.reset)) }

def State.sqOf (s : State) (c : Chn) (q : Nat) : StreamQ := (s.chan c).sq.getD q StreamQ.reset
def State.dqOf (s : State) (c : Chn) (q : Nat) : DrainQ := (s.chan c).dq.getD q DrainQ.reset
def State.modSq (s : State) (c : Chn) (q : Nat) (f : StreamQ → StreamQ) : State :=
  s.modChan c fun ch => ch.modSq q f
def State.modDq (s : State) (c : Chn) (q : Nat) (f : DrainQ → DrainQ) : State :=
  s.modChan c fun ch => ch.modDq q f

/-- The die that serves a queue (R323). -/
def queueDie (c : Chn) (drain : Bool) (q : Nat) : Nat :=
  2 * c.val + if q < (if drain then 16 else 32) then 0 else 1

/-- The next stream that still has beats becomes current; the others stay pending (R324, R326). -/
def nextStream (len : Strm → Nat) : List Strm → Option Strm × List Strm
  | [] => (none, [])
  | x :: xs => if x.delivered < len x then (some x, xs) else nextStream len xs

/-- Beats of a stream: its descriptor's LENGTH, or fewer when a replayed block is to cancel it. -/
def State.lenOf (s : State) (c : Chn) (st : Strm) : Nat :=
  match st.upTo with
  | some n => min n (sdLength (s.sdesc c st.desc))
  | none => sdLength (s.sdesc c st.desc)

def StreamQ.settle (q : StreamQ) (len : Strm → Nat) : StreamQ :=
  let n := nextStream len (q.cur.toList ++ q.pend)
  { q with cur := n.1, pend := n.2 }

def DrainQ.settle (q : DrainQ) (len : Strm → Nat) : DrainQ :=
  let n := nextStream len (q.cur.toList ++ q.pend)
  { q with cur := n.1, pend := n.2 }

/-- A fault of channel `c` raised on a given die. -/
def FaultRec.onDie (c : Chn) (cls cause die unit_ : Nat) (d0 d1 : W64) : FaultRec :=
  { FaultRec.bare cls cause die unit_ d0 d1 with chan := c.val }

/-- A DESCRIPTOR fault (R342). -/
def State.descFault (s : State) (c : Chn) (cause die unit_ : Nat) (handle desc q : Nat) (drain : Bool)
    (other : Nat) (d1 : W64) : State :=
  s.fault (FaultRec.onDie c clDescriptor cause die unit_
    (w64 (handle + 2 ^ 16 * (desc % 65536) + 2 ^ 32 * q + 2 ^ 38 * boolBit drain + 2 ^ 48 * other)) d1)

/-! ### SOPEN (R324, R342) -/

def sopenRow (s : State) (c : Chn) (w : W32) : State :=
  let desc := fldN (s.sreg c (insA w)) 0 16
  let need := s.sreg c (insB w)
  s.coreNext c fun k => { k with wait := .sopen desc need }

def State.coreFree (s : State) (c : Chn) : State :=
  s.modCore c fun k => { k with wait := .none, readyAt := s.cy + 1 }

/-- Whether a queue already has three pending streams. -/
def State.queueFull (s : State) (c : Chn) (d : SDesc) : Bool :=
  if sdDrain d then decide (3 ≤ (s.dqOf c (sdQueue d)).pend.length)
  else decide (3 ≤ (s.sqOf c (sdQueue d)).pend.length)

/-- A replayable block is in its first attempt, so what its program does to the streams is noted. -/
def Gate.noting (g : Gate) : Bool :=
  g.replay.isSome && g.attempt = 0 && (g.st = .running || (g.st = .gate && g.phase = .closing))

/-- Change the streams of a queue in a snapshot. -/
def editStreams (l : List (Nat × List Strm)) (q : Nat) (f : List Strm → List Strm) : List (Nat × List Strm) :=
  l.map fun e => if e.1 = q then (e.1, f e.2) else e

/-- A stream opened in the first attempt is opened at its replay too: the control core does not run again
(R258; DESIGN CHOICE, log 85). -/
def Gate.noteOpen (g : Gate) (drain : Bool) (q : Nat) (st : Strm) : Gate :=
  if g.noting then
    { g with replay := g.replay.map fun (r : Replay) => { r with streams :=
      if drain then { r.streams with drains := editStreams r.streams.drains q (· ++ [st]) }
      else { r.streams with streams := editStreams r.streams.streams q (· ++ [st]) } } }
  else g

def State.openStream (s : State) (c : Chn) (d : SDesc) (st : Strm) : State :=
  let len := s.lenOf c
  let s := s.modChan c fun ch => { ch with gate := ch.gate.noteOpen (sdDrain d) (sdQueue d) st }
  if sdDrain d then
    s.modDq c (sdQueue d) fun q => DrainQ.settle { q with pend := q.pend ++ [st] } len
  else s.modSq c (sdQueue d) fun q => StreamQ.settle { q with pend := q.pend ++ [st] } len

/-- The engine has loaded and checked the descriptors, or waits for a pending place. -/
def State.sopenDone (s : State) (c : Chn) : State :=
  match (s.chan c).core.wait with
  | .sopen desc need =>
    match (s.part.streamDescs.get c)[desc]? with
    | none => (s.coreFree c).descFault c dsNULL 0 unFetch 0 desc 0 false 0 ones64
    | some d =>
      if s.queueFull c d then s
      else
        match s.checkDesc d with
        | some (cause, d1, other) =>
          (s.coreFree c).descFault c cause 0 unFetch (sdTensor d) desc (sdQueue d) (sdDrain d) other d1
        | none => (s.coreFree c).openStream c d ⟨desc, need, 0, 0, false, none⟩
  | _ => s

def execSopen (c : Chn) (s : State) : Host.Outcome State Fault Refusal :=
  s.onChan c fun s => s.coreRow c .sopen sopenRow

def execSopenComplete (c : Chn) (s : State) : Host.Outcome State Fault Refusal :=
  s.onChan c fun s => s.sopenDone c

/-! ### Fetching (R325, R326, R333) -/

/-- The run-ahead limit: 0 is taken as 1, and 9 to 15 as 8 (R344). -/
def aheadOf (v : BitVec 4) : Nat := if v.toNat = 0 then 1 else min v.toNat 8

/-- Beats of a stream queue that are held, waiting for order, or on their way. -/
def StreamQ.used (q : StreamQ) : Nat := q.beats.length + q.arrived.length + q.reads.length

/-- The current sequence number: of the running block, else of the next one to be released (R214). -/
def Gate.current (g : Gate) : W64 := if g.st = .gate && g.phase = .closing then g.seq + 1 else g.seq

/-- Whether every drain write of the channel's blocks below `need` has completed (R324): those blocks
have ended, and no beat of theirs waits in a drain queue. -/
def State.drainsBelow (s : State) (c : Chn) (need : Nat) : Bool :=
  let ch := s.chan c
  decide (need ≤ ch.gate.current.toNat) &&
    ch.dq.toList.all (fun q => q.beats.all fun b => decide (need ≤ b.block.toNat))

/-- A stream whose AFTER_DRAINS is set makes no request before those writes (R324). -/
def State.drainsPassed (s : State) (c : Chn) (st : Strm) : Bool :=
  !sdAfter (s.sdesc c st.desc) || s.drainsBelow c st.need.toNat

/-- Whether the fetch engine may request the next beat of a queue's current stream. -/
def State.mayFetch (s : State) (c : Chn) (q : Nat) : Bool :=
  let ch := s.chan c
  let x := s.sqOf c q
  match x.cur with
  | none => false
  | some st =>
    !x.halted && !st.dead && decide (st.next < s.lenOf c st) && decide (x.used < x.cap) &&
      decide (st.need.toNat ≤ ch.gate.current.toNat + aheadOf ch.regs2.ahead) &&
      s.drainsPassed c st && !s.hasHeld 7

def State.fetchKey (s : State) (c : Chn) (q : Nat) : Nat :=
  match (s.sqOf c q).cur with
  | some st => st.need.toNat * 64 + q
  | none => 0

/-- Whether queue `q` is the one the fetch engine serves: least need sequence, then least number. -/
def State.fetchTurn (s : State) (c : Chn) (q : Nat) : Bool :=
  s.mayFetch c q &&
    (List.range 64).all fun p => !s.mayFetch c p || decide (s.fetchKey c q ≤ s.fetchKey c p)

/-- The HDM bytes among some bytes. -/
def hdmOf (bs : List (Bool × Nat)) : List Nat := (bs.filter fun b => !b.1).map (·.2)

/-- Other home dies that bytes lie on: one relayed request each. -/
def relays (die : Nat) (addrs : List Nat) : Nat :=
  ((blocksOf stackBytes addrs).filter fun n => decide (n ≠ die)).length

/-- The index engine reads the index values of a beat (R305, R320): they are checked, served by
Breakwater, and relayed from other home dies as data is. -/
def State.indexReads (s : State) (die : Nat) (shared : Bool) (addrs : List Nat) : State :=
  ((s.checkHdm addrs).bwReads shared addrs).modMsd die fun m => { m with relay := m.relay + w64 (relays die addrs) }

/-- Index values that cannot be read now: host bytes while the link is down, or a retraining stack. -/
def State.indexWaits (s : State) (bs : List (Bool × Nat)) : Bool :=
  bs.any fun b => if b.1 then !s.cxl.up else s.stackWait true b.2

def State.haltSq (s : State) (c : Chn) (q cause va : Nat) : State :=
  (s.modSq c q fun x => { x with halted := true, cause := BitVec.ofNat 3 cause, haltVA := va }).raise
    (evChan c 3)

def State.haltDq (s : State) (c : Chn) (q cause va : Nat) : State :=
  (s.modDq c q fun x => { x with halted := true, cause := BitVec.ofNat 3 cause, haltVA := va }).raise
    (evChan c 3)

def killStrm (st : Option Strm) : Option Strm := st.map fun x => { x with dead := true }

/-- Request the next beat of a queue's current stream, or halt it. -/
def State.fetchBeat (s : State) (c : Chn) (q : Nat) : State :=
  match (s.sqOf c q).cur with
  | none => s
  | some st =>
    let d := s.sdesc c st.desc
    let t := s.tensor (sdTensor d)
    let die := queueDie c false q
    let ix := s.indexBytes die (q % 16) t (sdStart d + st.next)
    if s.indexWaits ix then s else
    let s := s.indexReads die (tdShared (s.tensor (tdIndex t))) (hdmOf ix)
    match s.placeBeat die (q % 16) t false (sdStart d + st.next) with
    | (s, locs, none) =>
      let ls := locs.map (·.1)
      let s := s.modSq c q fun x => { x with
        cur := some { st with next := st.next + 1 }
        reads := x.reads ++ [⟨st.next, fmtNibbles (tdFmt t), ls, false, tdShared t⟩] }
      let s := s.modMsd die fun m => { m with relay := m.relay + w64 (relays die (hdmOf (ls.flatMap Loc.bytes))) }
      s.ledger c ldCrIssued 1
    | (s, _, some (.page cause va)) => s.haltSq c q cause va
    | (s, _, some (.range v)) =>
      (s.modSq c q fun x => { x with cur := killStrm x.cur }).descFault c dsINDEX_RANGE (die + 1)
        unStream (sdTensor d) st.desc q false 0 (BitVec.ofInt 64 v)
    | (s, _, some (.at_ _ _)) => s

def execFetchRequest (c : Chn) (q : Nat) (s : State) : Host.Outcome State Fault Refusal :=
  s.onChan c fun s => if q < 64 && s.fetchTurn c q then s.fetchBeat c q else s

/-! ### Beats come back (R306, R326, R336, R349) -/

/-- The value of an element. -/
def State.locValue (s : State) (l : Loc) : Nat :=
  let v := ofBytesLE (l.bytes.map fun b => s.readByte b.1 b.2)
  match l.nibble with
  | some hi => v / (if hi then 16 else 1) % 16
  | none => v

/-- Whether a byte of an element lies in a poisoned codeword, or its index value was poisoned. -/
def State.locPoison (s : State) (l : Loc) : Bool :=
  l.poison || l.bytes.any fun b => !b.1 && s.mem.hdm.isPoison b.2

/-- The element is number `i` of the elements that lie side by side from HDM byte `a`. -/
def Loc.liesAt (l : Loc) (a nibbles i : Nat) : Bool :=
  !l.poison && decide (l.bytes = (List.range ((nibbles + 1) / 2)).map fun j => (false, a + nibbles * i / 2 + j)) &&
    match l.nibble with
    | some hi => hi == (i % 2 == 1)
    | none => true

/-- One codeword of a beat: a codeword of HDM as it lies when the elements are exactly its bytes, else
one formed from the elements, poisoned when any of them is. -/
def State.gatherCw (s : State) (nibbles : Nat) (locs : List Loc) : Coded 1 :=
  let a := ((locs.flatMap Loc.bytes).headD (true, 0)).2
  if a % 16 = 0 && locs.length * nibbles = 32 && locs.zipIdx.all fun l => l.1.liesAt a nibbles l.2 then
    (s.mem.hdm.cw (a / 16)).check.1
  else
    let v := locs.zipIdx.foldl (fun acc l => acc + s.locValue l.1 * 2 ^ (4 * nibbles * l.2)) 0
    ⟨BitVec.ofNat _ v, 0, BitVec.ofNat 1 (boolBit (locs.any s.locPoison))⟩

/-- The beat a read brings. -/
def State.gatherBeat (s : State) (r : ReadOp) : Beat :=
  let per := 32 / r.width
  joinCws ((List.range 4).map fun i => s.gatherCw r.width ((r.locs.drop (per * i)).take per))

/-- The HDM bytes of a read. -/
def ReadOp.hdmBytes (r : ReadOp) : List Nat := hdmOf (r.locs.flatMap Loc.bytes)

/-- Whether some byte of an element lies in host memory. -/
def Loc.host (l : Loc) : Bool := l.bytes.any (·.1)

/-- Move beats that are next in stream order into the queue; beat b carries tag b mod 8. -/
def StreamQ.deliver (n : Nat) (q : StreamQ) : StreamQ :=
  match n with
  | 0 => q
  | n + 1 =>
    match q.cur with
    | none => q
    | some st =>
      match Smap.find? q.arrived st.delivered with
      | none => q
      | some b => StreamQ.deliver n { q with
          arrived := Smap.erase q.arrived st.delivered
          beats := q.beats ++ [⟨⟨b, BitVec.ofNat 3 st.delivered⟩, st.desc, st.need, st.delivered, st.upTo⟩]
          cur := some { st with delivered := st.delivered + 1 } }

/-- Remove the first read at a position. -/
def dropRead (pos : Nat) : List ReadOp → List ReadOp
  | [] => []
  | r :: rs => if r.pos = pos then rs else r :: dropRead pos rs

/-- A read returns: placed in stream order, or dropped with its credit returned (R330, R332). A read
of the host waits while the link is down (R439). -/
def State.readBack (s : State) (c : Chn) (q pos : Nat) : State :=
  match (s.sqOf c q).reads.find? fun r => r.pos = pos with
  | none => s
  | some r =>
    if r.hdmBytes.any (s.stackWait true) || (!s.cxl.up && r.locs.any Loc.host) then s else
    let beat := s.gatherBeat r
    let s := (s.checkHdm r.hdmBytes).bwReads r.shared r.hdmBytes
    let s := s.modSq c q fun x => { x with reads := dropRead pos x.reads }
    let s := if r.dropped then s.ledger c ldCrReturned 1
      else
        let len := s.lenOf c
        s.modSq c q fun x =>
          let x := { x with arrived := Smap.upsert x.arrived pos beat }
          (x.deliver x.arrived.length).settle len
    s.endFlush

def execReadReturn (c : Chn) (q pos : Nat) (s : State) : Host.Outcome State Fault Refusal :=
  s.onChan c fun s => if q < 64 then s.readBack c q pos else s

/-! ### Drains (R261, R327, R333) -/

/-- The bytes that element `i` of a beat writes in host memory, or in HDM. -/
def elemWrites (beat : Beat) (nibbles i : Nat) (l : Loc) (host : Bool) : List ByteWrite :=
  let v := fldN beat.data (4 * nibbles * i) (4 * nibbles)
  let word := nibbles * i / 32
  let p := l.poison || bitAt beat.poison word
  let resid := fld beat.resid (16 * word) 16
  (l.bytes.zipIdx.filter fun b => b.1.1 = host).map fun b =>
    match l.nibble with
    | some hi => ⟨b.1.2, if hi then 0xF0 else 0x0F, BitVec.ofNat 8 (v * if hi then 16 else 1), p, word, i % 32, resid⟩
    | none => ⟨b.1.2, BitVec.allOnes 8, BitVec.ofNat 8 (v / 256 ^ b.2), p, word, (nibbles * i + 2 * b.2) % 32, resid⟩

/-- The host bytes of a drain: a poisoned codeword is replaced by zeros (R313, R354). -/
def State.hostWrites (s : State) (ws : List ByteWrite) : State :=
  let bytes := ws.foldl (fun m w =>
    Smap.put 0 m w.addr (mergeByte (Smap.get 0 m w.addr) (if w.poison then { w with val := 0 } else w)))
    s.host.bytes
  { s with host := { s.host with bytes := bytes } }

/-- The words of a beat that enter the tensor digest, by word number (R261). -/
def digestWords (beat : Beat) (nibbles : Nat) (locs : List (Loc × Nat)) : Smap W128 :=
  locs.zipIdx.foldl (fun m e =>
    let at_ := e.1.2 * nibbles
    let v := fldN beat.data (4 * nibbles * e.2) (4 * nibbles) * 2 ^ (4 * (at_ % 32))
    Smap.upsert m (at_ / 32) (Smap.get 0 m (at_ / 32) ^^^ BitVec.ofNat 128 v)) []

/-- Σ word × H^(j + 1). -/
def contribution (h : W128) (words : Smap W128) : W128 :=
  words.foldl (fun acc w => acc ^^^ gfMul w.2 (gfPow h (w.1 + 1))) 0

/-- The digest unit reads the beat: a poisoned codeword raises CODE and adds nothing (R353, R354). -/
def State.digestBeat (s : State) (c : Chn) (q handle : Nat) (beat : Beat) (nibbles : Nat)
    (locs : List (Loc × Nat)) : State :=
  let die := queueDie c true q
  let r := Coded.check beat
  let s := s.countMsd die r.2.ce r.2.ue
  match r.2.bad with
  | some (i, now, syn) =>
    s.fault (FaultRec.onDie c clCode (if now then 1 else 4) (die + 1) unDigest (w64 (4 * q + i)) (w64 syn))
  | none =>
    let p := contribution s.job.h (digestWords r.1 nibbles locs)
    s.modChan c fun ch => { ch with gate := { ch.gate with
      parts := Smap.upsert ch.gate.parts handle (Smap.get 0 ch.gate.parts handle ^^^ p) } }

/-- A beat sent to the host is checked on the I/O die (R313, R351, R355); a poisoned codeword of it raises
CODE with UNIT STREAM (R354). -/
def State.hostCheck (s : State) (c : Chn) (q : Nat) (beat : Beat) (ws : List ByteWrite) : State :=
  if ws.isEmpty then s
  else
    let r := (Coded.check beat).2
    let s := s.countIod r.ce r.ue
    match r.bad, ws.any (·.poison) with
    | some (i, now, syn), true =>
      s.fault (FaultRec.onDie c clCode (if now then 1 else 4) (queueDie c true q + 1) unStream
        (w64 (4 * q + i)) (w64 syn))
    | _, _ => s

/-- What the elements of a beat write in host memory, or in HDM. -/
def beatWrites (beat : Beat) (nibbles : Nat) (locs : List (Loc × Nat)) (host : Bool) : List ByteWrite :=
  locs.zipIdx.flatMap fun e => elemWrites beat nibbles e.2 e.1.1 host

/-- Whether the oldest beat of a drain queue has an element in host memory. -/
def State.beatToHost (s : State) (c : Chn) (q : Nat) : Bool :=
  let x := s.dqOf c q
  match x.cur, x.beats with
  | some st, b :: _ =>
    let t := s.tensor (sdTensor (s.sdesc c st.desc))
    let r := s.placeBeat (queueDie c true q) (q % 16) t true (sdStart (s.sdesc c st.desc) + st.delivered)
    r.2.2.isNone && !(beatWrites (Coded.check b.beat).1 (fmtNibbles (tdFmt t)) r.2.1 true).isEmpty
  | _, _ => false

/-- Write the oldest beat of a drain queue to its elements' addresses, or halt its stream. The beat stays
in its queue while its write waits: for the link, for a retraining, or for the host to give up a line
(R439, R444, R511), so the beats of a stream are written in order (R312). -/
def State.drainBeat (s : State) (c : Chn) (q : Nat) : State :=
  let x := s.dqOf c q
  match x.cur, x.beats with
  | some st, b :: rest =>
    let d := s.sdesc c st.desc
    let t := s.tensor (sdTensor d)
    let n := fmtNibbles (tdFmt t)
    let die := queueDie c true q
    let ix := s.indexBytes die (q % 16) t (sdStart d + st.delivered)
    if x.halted || st.dead || !s.drainsPassed c st || s.indexWaits ix || s.hasHeld 7 then s
    else
      let before := s
      let s := s.indexReads die (tdShared (s.tensor (tdIndex t))) (hdmOf ix)
      match s.placeBeat die (q % 16) t true (sdStart d + st.delivered) with
      | (s, locs, none) =>
        let beat := (Coded.check b.beat).1
        let hdm := beatWrites beat n locs false
        let host := beatWrites beat n locs true
        if !s.landsNow hdm || (!s.cxl.up && !host.isEmpty) then before.snoopFor hdm else
        let len := s.lenOf c
        let s := s.modDq c q fun x => DrainQ.settle { x with
          beats := rest
          cur := some { st with next := st.next + 1, delivered := st.delivered + 1 } } len
        let s := s.modMsd die fun m => { m with relay := m.relay + w64 (relays die (hdm.map ByteWrite.addr)) }
        let s := if tdDigest t && s.job.active then s.digestBeat c q (sdTensor d) b.beat n locs else s
        ((s.hostWrites host).hostCheck c q b.beat host).land hdm
      | (s, _, some (.page cause va)) => s.haltDq c q cause va
      | (s, _, some (.range v)) =>
        (s.modDq c q fun x => { x with cur := killStrm x.cur }).descFault c dsINDEX_RANGE (die + 1)
          unStream (sdTensor d) st.desc q true 0 (BitVec.ofInt 64 v)
      | (s, _, some (.at_ _ _)) => s
  | _, _ => s

def execDrainWrite (c : Chn) (q : Nat) (s : State) : Host.Outcome State Fault Refusal :=
  s.onChan c fun s => if q < 32 then s.drainBeat c q else s

/-- Whether every beat that the channel pushed has been written (R327). -/
def State.drainsDone (s : State) (c : Chn) : Bool :=
  (s.chan c).dq.toList.all fun q => q.beats.isEmpty

/-! ### The edge plan (R328, R329) -/

def State.edgePlan (s : State) (c : Chn) : List W128 :=
  match (s.chan c).gate.block with
  | some b =>
    match s.part.codeSets[fldN b 96 16]? with
    | some cs => cs.edge.get c
    | none => []
  | none => []

/-- The physical column of an edge port: a lend port's is the out-of-service column it ends (R87). -/
def Chan.portColumn (ch : Chan) (port : Nat) : Nat :=
  if port < 80 then ch.pcol port else if port = 80 then ch.regs.out0.toNat else ch.regs.out1.toNat

/-- A QUEUE fault of an edge port. -/
def State.edgeFault (s : State) (c : Chn) (off cause port q i k : Nat) (drain : Bool) : State :=
  s.fault { FaultRec.ofChan c clQueue cause unFetch (w64 (q + 64 * boolBit drain + 256 * port))
      (w64 (i + 2 ^ 32 * k)) with
    cycleOff := off
    x := if port < 80 then port else 0xFF
    p := (s.chan c).portColumn port }

/-- An injection: the head of the stream queue leaves through the port. -/
def State.inject (s : State) (c : Chn) (off port q i k : Nat) : State :=
  match (s.sqOf c q).beats with
  | [] => s.edgeFault c off 1 port q i k false
  | b :: rest =>
    let r := Coded.check b.entry.beat
    let s := s.countChan c r.2.ce r.2.ue
    let e : QEntry := ⟨r.1, b.entry.tag⟩
    let s := s.modSq c q fun x => { x with beats := rest }
    let s := s.modChan c fun ch =>
      if port < 80 then { ch with links := ch.links ++ [⟨s.cy + 1, port, .north, e⟩] }
      else { ch with lends := ch.lends ++ [⟨s.cy + 4, 0, .lend (port = 81), e⟩] }
    (s.ledger c ldEdgeIn 1).ledger c ldCrReturned 1

/-- A drain: the beat that the row-0 cell sent in the cycle before enters the drain queue. -/
def State.drainIn (s : State) (c : Chn) (off port q i k : Nat) : State :=
  match (s.chan c).drainOut.find? fun o => o.1 = s.cy && o.2.1 = port with
  | none => s
  | some o =>
    let x := s.dqOf c q
    if x.beats.length < x.cap then
      let r := Coded.check o.2.2.beat
      let s := s.countChan c r.2.ce r.2.ue
      let s := s.modDq c q fun x => { x with
        beats := x.beats ++ [⟨r.1, o.2.2.tag, (s.chan c).gate.seq⟩] }
      s.ledger c ldEdgeOut 1
    else s.edgeFault c off 2 port q i k true

/-- Run `i` of the edge plan acts in this cycle, once, when the cycle is one of its own. -/
def State.edgeRun (s : State) (c : Chn) (i : Nat) : State :=
  match (s.edgePlan c)[i]? with
  | none => s
  | some r =>
    let ch := s.chan c
    let off := s.cy - ch.gate.releaseCy
    let start := fldN r 0 32
    let step_ := fldN r 64 16
    let k := (off - start) / step_
    if ch.gate.st = .running && decide (start ≤ off) && decide ((off - start) % step_ = 0) &&
        decide (k < fldN r 32 32) && !ch.edgeDone.contains i then
      let s := s.modChan c fun ch => { ch with edgeDone := ch.edgeDone ++ [i] }
      if bitAt r 94 then s.drainIn c off (fldN r 80 8) (fldN r 88 6) i k
      else s.inject c off (fldN r 80 8) (fldN r 88 6) i k
    else s

def execEdgePlanRun (c : Chn) (i : Nat) (s : State) : Host.Outcome State Fault Refusal :=
  s.onChan c fun s => s.edgeRun c i

/-! ### Cancel (R330, R332) -/

/-- Discard what a stream queue holds; reads under way will be dropped on return. -/
def StreamQ.cancel (q : StreamQ) : StreamQ := { q with
  beats := []
  arrived := []
  cur := none
  pend := []
  reads := q.reads.map fun r => { r with dropped := true }
  halted := false
  cause := 0
  haltVA := 0 }

def State.cancelSq (s : State) (c : Chn) (q : Nat) : State :=
  let x := s.sqOf c q
  (s.modSq c q StreamQ.cancel).ledger c ldCrReturned (x.beats.length + x.arrived.length)

/-- The streams of a queue that hold its next `n` beats. -/
def keepBeats (len : Strm → Nat) : Nat → List Strm → List Strm
  | _, [] => []
  | n, st :: rest =>
    let left := len st - st.delivered
    if n = 0 then []
    else if n < left then [{ st with upTo := some (st.delivered + n) }]
    else st :: keepBeats len (n - left) rest

/-- The beats of a stream queue that the running block's gate list names. -/
def State.listedBeats (s : State) (c : Chn) (q : Nat) : Nat :=
  match (s.chan c).gate.block with
  | some b => (s.gateList b).foldl (fun n e => if e.1 = q && !e.2.1 then n + e.2.2 else n) 0
  | none => 0

/-- A cancel in the first attempt of a replayable block: its replay opens again only what the block itself
takes from that queue (R258; DESIGN CHOICE, log 85). -/
def State.noteCancel (s : State) (c : Chn) (q : Nat) : State :=
  let n := s.listedBeats c q
  let len := s.lenOf c
  s.modChan c fun ch => { ch with gate :=
    if ch.gate.noting then { ch.gate with replay := ch.gate.replay.map fun (r : Replay) =>
      { r with streams := { r.streams with streams := editStreams r.streams.streams q (keepBeats len n) } } }
    else ch.gate }

def scancelRow (s : State) (c : Chn) (w : W32) : State :=
  let q := fldN (s.sreg c (insA w)) 0 6
  ((s.coreNext c fun k => { k with wait := .scancel q }).noteCancel c q).cancelSq c q

/-- The cancel is accepted and the core goes on. -/
def State.scancelDone (s : State) (c : Chn) : State :=
  match (s.chan c).core.wait with
  | .scancel q => if (s.sqOf c q).beats.isEmpty then s.coreFree c else s
  | _ => s

def execScancel (c : Chn) (s : State) : Host.Outcome State Fault Refusal :=
  s.onChan c fun s => s.coreRow c .scancel scancelRow

def execScancelComplete (c : Chn) (s : State) : Host.Outcome State Fault Refusal :=
  s.onChan c fun s => s.scancelDone c

/-- SDEPTH: bit 6 of s(a) names a drain queue (R326). -/
def sdepthRow (s : State) (c : Chn) (w : W32) : State :=
  let a := s.sreg c (insA w)
  s.coreResult c w (w64 (if bitAt a 6 then (s.dqOf c (fldN a 0 6)).beats.length
    else (s.sqOf c (fldN a 0 6)).beats.length))

def execSdepth (c : Chn) (s : State) : Host.Outcome State Fault Refusal :=
  s.onChan c fun s => s.coreRow c .sdepth sdepthRow

/-- Cancel every stream queue, and close every drain stream (R331). -/
def State.cancelAll (s : State) (c : Chn) : State :=
  let s := (List.range 64).foldl (fun s q => s.cancelSq c q) s
  s.modChan c fun ch => { ch with dq := ch.dq.map fun q =>
    { q with beats := [], cur := none, pend := [], halted := false, cause := 0, haltVA := 0 } }

/-! ### Resuming a halted stream (R335) -/

def State.resumeStream (s : State) (c : Chn) (q : Nat) (drain : Bool) : State :=
  let halted := if drain then (s.dqOf c q).halted else (s.sqOf c q).halted
  let cur := if drain then (s.dqOf c q).cur else (s.sqOf c q).cur
  match halted, cur with
  | true, some st =>
    let d := s.sdesc c st.desc
    let s := if drain then s.modDq c q fun x => { x with halted := false, cause := 0, haltVA := 0 }
      else s.modSq c q fun x => { x with halted := false, cause := 0, haltVA := 0 }
    match s.placeBeat (queueDie c drain q) (q % 16) (s.tensor (sdTensor d)) drain
        (sdStart d + if drain then st.delivered else st.next) with
    | (s, _, some (.page cause va)) => if drain then s.haltDq c q cause va else s.haltSq c q cause va
    | (s, _, _) => s
  | _, _ => s

/-! ### The stream part of a save point (R343) -/

/-- The streams whose beats a queue still holds, oldest first, each at the position of its first
beat. -/
def heldStreams : List SBeat → List Strm
  | [] => []
  | b :: bs =>
    match heldStreams bs with
    | st :: rest =>
      if st.desc = b.desc && st.need = b.need && st.next = b.pos + 1 then
        { st with next := b.pos, delivered := b.pos } :: rest
      else ⟨b.desc, b.need, b.pos, b.pos, false, b.upTo⟩ :: st :: rest
    | [] => [⟨b.desc, b.need, b.pos, b.pos, false, b.upTo⟩]

/-- A stream as it is reopened: fetched or written from a position on. -/
def Strm.at_ (st : Strm) (pos : Nat) : Strm := { st with next := pos, delivered := pos }

/-- The streams of a stream queue, from the beat that the next edge pop takes. -/
def StreamQ.saved (q : StreamQ) : List Strm :=
  let held := heldStreams q.beats
  let cur := match q.cur with
    | none => []
    | some st =>
      match held.getLast? with
      | some h =>
        if h.desc = st.desc && h.need = st.need && decide (h.next < st.delivered) then []
        else [st.at_ st.delivered]
      | none => [st.at_ st.delivered]
  held ++ cur ++ q.pend

def DrainQ.saved (q : DrainQ) : List Strm := q.cur.toList.map (fun st => st.at_ st.delivered) ++ q.pend

/-- Reopen saved streams; nothing is halted. -/
def State.reopen (s : State) (c : Chn) (sq dq : List (List Strm)) : State :=
  let len := s.lenOf c
  let s := sq.zipIdx.foldl (fun s e => s.modSq c e.2 fun q =>
    StreamQ.settle { q with cur := none, pend := e.1 } len) s
  dq.zipIdx.foldl (fun s e => s.modDq c e.2 fun q =>
    DrainQ.settle { q with cur := none, pend := e.1 } len) s

/-- Credits outstanding: beats held, waiting for order, or on their way (R332). -/
def Chan.creditsOut (ch : Chan) : Nat :=
  ch.sq.toList.foldl (fun acc q => acc + q.beats.length + q.arrived.length + q.reads.length) 0

/-! ### The wicket path (R338, R339) -/

def wkRow (write : Bool) (s : State) (c : Chn) (w : W32) : State :=
  let b := s.sreg c (insB w)
  let va := fldN b 0 52
  let len := fldN b 52 8 + 1
  if 256 < va % 256 + len then s.coreResult c w 5
  else
    s.coreNext c fun k => { k with
      wait := .wicket write (k.reg (insA w)).toNat len va (BitVec.ofNat 5 (insD w)) }

def wkrdRow (s : State) (c : Chn) (w : W32) : State := wkRow false s c w
def wkwrRow (s : State) (c : Chn) (w : W32) : State := wkRow true s c w

/-- The status of a wicket operation: ABSENT, HOST, RESERVED, WRITE_PROTECT, in this order. -/
def State.wicketStatus (s : State) (e : W64) (va : Nat) (write : Bool) : Nat :=
  if !bitAt e 0 || fldN e 8 13 ≠ va / 2 ^ 39 % 2 ^ 13 then 1
  else if bitAt e 1 then 3
  else if !s.frameOk e then 4
  else if write && !bitAt e 2 then 2
  else 0

/-- Bytes of HDM enter data memory, poison with them. -/
def Core.takeBytes (k : Core) (m : Mem) (a hdm len : Nat) : Core :=
  { k with dmem := k.dmem.writeMarked ((List.range len).map fun i => m.marked (hdm + i) ((a + i) % dmemSize)) }

def Core.giveBytes (k : Core) (a hdm len : Nat) : List ByteWrite :=
  (List.range len).map fun i => k.dmem.marked ((a + i) % dmemSize) (hdm + i)

def State.coreStatus (s : State) (c : Chn) (d status : Nat) : State :=
  (s.coreFree c).modCore c fun k => k.setReg d (w64 status)

/-- A wicket operation reaches its home die and completes; a write waits there for the host to give up the
lines that it holds (R444). -/
def State.wicketDone (s : State) (c : Chn) : State :=
  match (s.chan c).core.wait with
  | .wicket write a len va d =>
    let die := 2 * c.val
    let e := s.entryFor die 16 va
    let st := s.wicketStatus e va write
    let x := s.translate die 16 va write
    let hdm := fldN e 4 3 * stackBytes + wtFrame e + va % 2 ^ 21
    let addrs := (List.range len).map (hdm + ·)
    let ws := if write then (s.chan c).core.giveBytes a hdm len else []
    if st ≠ 0 then s.coreStatus c d.toNat st
    else if addrs.any (s.stackWait (!write)) || !s.landsNow ws then s.snoopFor ws
    else
      let home := hdm / stackBytes
      let s := x.1.modMsd home fun m => { m with wicket := m.wicket + 1 }
      let s := if home = die then s else s.modMsd die fun m => { m with relay := m.relay + 1 }
      if write then
        let chk := (s.chan c).core.dmem.checkSpan (a % dmemSize) len
        ((s.countChan c chk.ce chk.ue).land ws).coreStatus c d.toNat 0
      else
        let s := (s.checkHdm addrs).bwReads false addrs
        (s.modCore c fun k => k.takeBytes s.mem.hdm a hdm len).coreStatus c d.toNat 0
  | _ => s

def execWkrd (c : Chn) (s : State) : Host.Outcome State Fault Refusal :=
  s.onChan c fun s => s.coreRow c .wkrd wkrdRow
def execWkwr (c : Chn) (s : State) : Host.Outcome State Fault Refusal :=
  s.onChan c fun s => s.coreRow c .wkwr wkwrRow
def execWicketComplete (c : Chn) (s : State) : Host.Outcome State Fault Refusal :=
  s.onChan c fun s => s.wicketDone c

end Sys2Proof.Machine
end

