-- ==== Sys2Proof/Machine/Records.lean ====
section
/-! DEFINITION. What the part writes down: fault records and their log (R236, R237, R357, R358), journal
entries (R411 to R415), and replies with their ring (R389 to R391). -/
namespace Sys2Proof.Machine

/-! ### Fault records (R237) -/

/-- Whether a block is a joint one. -/
def beIsJoint (b : BEntry) : Bool := let m := fldN b 32 4; decide (m &&& (m - 1) ≠ 0)

/-- Whether the channel's running or last block is a joint one. -/
def Gate.joint (g : Gate) : Bool :=
  match g.block with
  | some b => beIsJoint b
  | none => false

/-- Whether a fault of the channel belongs to the block released last: it runs, or its gate has not passed
step 7 (R214, R218). -/
def Gate.inBlock (g : Gate) : Bool :=
  match g.st with
  | .running => true
  | .gate => g.phase = .closing || g.restarted
  | .held => g.lastSeq = g.seq
  | _ => false

/-- Attempt count of a release (R214, R258, R368). -/
def Gate.nextAttempt (g : Gate) : Nat :=
  if g.restarted then 1
  else
    match g.rerunTo with
    | some t => if g.seq.toNat ≤ t.toNat then g.floor else 0
    | none => 0

def FaultRec.inCell (r : FaultRec) : Bool := decide (r.y ≠ 0xFF)

/-- Where a fault lies, as one number: DIE, CHANNEL, Y, X, P, UNIT, BUNDLE, PAGE and SRCTAG. -/
def FaultRec.location (r : FaultRec) : Nat :=
  r.die + 2 ^ 8 * r.chan + 2 ^ 16 * r.y + 2 ^ 24 * r.x + 2 ^ 32 * r.p + 2 ^ 40 * r.unit_ +
    2 ^ 48 * r.bundle + 2 ^ 64 * r.page + 2 ^ 65 * r.srctag

/-- The block of a record: BLOCK_INDEX, ATTEMPT and JOINT of the block that BLOCK_SEQ numbers, the last one
released or the next; the first two are all ones while GATE has not named that one. -/
def Gate.blockFields (g : Gate) : Nat × Nat × Nat :=
  match (if g.inBlock then g.block.map fun b => (b, g.blockIdx, g.attempt)
    else g.next.map fun b => (b, g.nextIdx, g.nextAttempt)) with
  | some (b, idx, a) => (idx, min a 0xFFFF, boolBit (beIsJoint b))
  | none => (0xFFFFFFFF, 0xFFFF, 0)

/-- CYCLE_OFF of a record: all ones outside the cycles of a block. -/
def Gate.cycleField (g : Gate) (off : Nat) : Nat :=
  match g.block with
  | some b => if g.inBlock && decide (off < beLen b) then off else 0xFFFFFFFF
  | none => 0xFFFFFFFF

/-- The fields of a record that the channel's gate gives: BLOCK_SEQ, BLOCK_INDEX, ATTEMPT, JOINT, CYCLE_OFF, and
GATE in the closing phase. -/
def State.gateFields (s : State) (r : FaultRec) : Nat × Nat × Nat × Nat × Nat × Bool :=
  if r.chan < 4 then
    let g := (s.chan (chnOf r.chan)).gate
    let b := g.blockFields
    (g.seq.toNat, b.1, b.2.1, b.2.2, g.cycleField r.cycleOff, r.gate || (g.st = .gate && g.phase = .closing))
  else (2 ^ 64 - 1, 0xFFFFFFFF, 0xFFFF, 0, 0xFFFFFFFF, r.gate)

/-- The 64 bytes of a record. -/
def State.faultBytes (s : State) (r : FaultRec) : BitVec 512 :=
  let b := s.gateFields r
  let variant := match s.img.image with
    | some _ => 4 + 8 * s.img.variant
    | none => 0x38
  let where_ := if r.unit_ = unCcore || (r.unit_ = unMgmt && r.page = 0) then r.bundle % 65536
    else r.bundle % 512 + 512 * r.page
  BitVec.ofNat 512 (withCrc 64 (
    s.tide.count.toNat + 2 ^ 64 * b.1 + 2 ^ 128 * b.2.2.2.2.1 + 2 ^ 160 * r.cls +
    2 ^ 168 * r.cause + 2 ^ 176 * r.die + 2 ^ 184 * r.chan + 2 ^ 192 * r.y + 2 ^ 200 * r.x +
    2 ^ 208 * r.p + 2 ^ 216 * r.unit_ + 2 ^ 224 * where_ + 2 ^ 240 * (r.srctag % 4096) +
    2 ^ 256 * r.d0.toNat + 2 ^ 320 * r.d1.toNat + 2 ^ 384 * b.2.1 + 2 ^ 416 * b.2.2.1 +
    2 ^ 448 * (boolBit b.2.2.2.2.2 + 2 * b.2.2.2.1 + variant)))

/-- One more fault folded into a stored record: REPEAT stops at 0xFFFF (R236). -/
def bumpRepeat (x : BitVec 512) : BitVec 512 :=
  BitVec.ofNat 512 (withCrc 64 (setFld x 432 16 (satInc (fld x 432 16))).toNat)

/-- A record enters the log, or is lost when it is full; either way FAULT_LOGGED is raised. The answer
is the record's number when it was stored. -/
def State.logRecord (s : State) (x : BitVec 512) : State × Option Nat :=
  let f := s.flt
  if f.prod - f.cons = 4096 then
    ({ s with flt := { f with lost := f.lost + 1, lostBit := true } }.raise evFaultLogged, none)
  else
    ({ s with flt := { f with
        ring := Smap.upsert f.ring (f.prod.toNat % 4096) x, prod := f.prod + 1 } }.raise evFaultLogged,
      some f.prod.toNat)

/-- What a fault leaves at its channel's gate: the channel is faulted, and the fault is remembered for
recovery. -/
def Gate.note (g : Gate) (r : FaultRec) (seq : W64) : Gate :=
  { g with faulted := true, faults := g.faults ++ [(r.cls, r.cause, r.location, seq)] }

/-- Count TAG and QUEUE faults of a channel's cells (R105). -/
def Chan.countFault (ch : Chan) (r : FaultRec) : Chan :=
  if !r.inCell then ch
  else if r.cls = clTag then { ch with regs := { ch.regs with tagFaults := satInc ch.regs.tagFaults } }
  else if r.cls = clQueue then { ch with regs := { ch.regs with queueFaults := satInc ch.regs.queueFaults } }
  else ch

/-- The record of an earlier fault of the same class in the same cell and block. -/
def Gate.firstOf (g : Gate) (r : FaultRec) : Option (Nat × Nat × Nat) :=
  g.firsts.find? fun f => f.1 = 80 * r.y + r.x && f.2.1 = r.cls

/-- Record one fault: the first of its class in its cell and block, or one outside a cell, is a record
of its own; a further one is counted in the first's REPEAT. -/
def State.recordFault (s : State) (r : FaultRec) : State :=
  if 4 ≤ r.chan then (s.logRecord (s.faultBytes r)).1
  else
    let c := chnOf r.chan
    let seq := (s.chan c).gate.seq
    let s := s.modChan c fun ch => (ch.countFault r)
    match (if r.inCell then (s.chan c).gate.firstOf r else none) with
    | some f =>
      let s := s.modChan c fun ch => { ch with gate := ch.gate.note r seq }
      if f.2.2 < s.flt.prod.toNat && s.flt.prod.toNat ≤ f.2.2 + 4096 then
        let slot := f.2.2 % 4096
        let ring := Smap.upsert s.flt.ring slot (bumpRepeat (Smap.get 0 s.flt.ring slot))
        { s with flt := { s.flt with ring := ring } }
      else s
    | none =>
      let p := s.logRecord (s.faultBytes r)
      p.1.modChan c fun ch =>
        let g := ch.gate.note r seq
        let first := (80 * r.y + r.x, r.cls, p.2.getD (2 ^ 64))
        { ch with gate := if r.inCell then { g with firsts := g.firsts ++ [first] } else g }

/-- Order of R236: die, channel, row, physical column, unit. -/
def FaultRec.key (r : FaultRec) : Nat :=
  (((r.die * 256 + r.chan) * 256 + r.y) * 256 + r.p) * 256 + r.unit_

/-- The faults of one cycle enter the log together. -/
def State.flushFaults (s : State) : State :=
  if s.newFaults.isEmpty then s
  else (sortBy FaultRec.key s.newFaults).foldl State.recordFault { s with newFaults := [] }

/-! ### The journal (R411 to R415) -/

/-- Write an entry: bytes 0 to 47 are given; JSEQ and CRC are filled in, and the entry enters the tail
and the ring in HBM. -/
def State.journal (s : State) (x : Nat) : State :=
  let j := s.cmd.jHead.toNat
  let e := BitVec.ofNat 512 (withCrc 64 (x % 2 ^ 384 + 2 ^ 384 * j))
  let s := { s with cmd := { s.cmd with
    jHead := s.cmd.jHead + 1, jTail := Smap.upsert s.cmd.jTail (j % 256) e } }
  (s.partWrite 9 (plainWrites (s.cmd.jBase.toNat + 64 * (j % 2 ^ 20)) (bytesLE 64 e.toNat))).countJournal

/-- Bytes 0 to 47 of an entry. -/
def jrec (seq opcode origin kind status reason accept done w4 w5 : Nat) : Nat :=
  seq + 2 ^ 64 * opcode + 2 ^ 80 * origin + 2 ^ 88 * kind + 2 ^ 96 * status + 2 ^ 112 * reason +
    2 ^ 128 * accept + 2 ^ 192 * done + 2 ^ 256 * w4 + 2 ^ 320 * w5

/-- An entry of kind INTERNAL, when `JRNL_CTL.INTERNAL` enables them (R415). -/
def State.internal (s : State) (type_ d0 d1 : Nat) : State :=
  if s.cmd.jInternal then
    s.journal (jrec 0 type_ 2 3 0 0 s.tide.count.toNat s.tide.count.toNat d0 d1)
  else s

/-! ### Replies (R389 to R391) -/

/-- Entries of the reply ring: below 6 taken as 6, above 16 as 16 (R418). -/
def CmdRegs.ringSize (c : CmdRegs) : Nat := 2 ^ (min 16 (max 6 c.ringLog2.toNat))

/-- Bytes written to host memory: at once, or when the link is up again (R439). -/
def HostMem.put (h : HostMem) (up : Bool) (ws : List (Nat × Byte)) : HostMem :=
  if up then { h with bytes := ws.foldl (fun m w => Smap.put 0 m w.1 w.2) h.bytes }
  else { h with posted := h.posted ++ ws }

/-- The writes kept while the link was down are sent. -/
def HostMem.send (h : HostMem) : HostMem := HostMem.put { h with posted := [] } true h.posted

def State.hostPut (s : State) (a : Nat) (bs : List Byte) : State :=
  { s with host := s.host.put s.cxl.up (bs.zipIdx.map fun b => (a + b.2, b.1)) }

/-- The ring's header (R389). -/
def State.ringHeader (s : State) : State :=
  if s.cmd.enable then
    let c := s.cmd
    s.hostPut c.ringBase.toNat (bytesLE 8 (c.next - 1).toNat ++ bytesLE 8 c.prod.toNat ++
      bytesLE 8 c.bootId.toNat ++ bytesLE 8 c.jHead.toNat ++ List.replicate 32 0)
  else s

/-- Whether the ring has room. -/
def CmdRegs.room (c : CmdRegs) : Bool := c.enable && decide ((c.prod - c.cons).toNat < c.ringSize)

/-- Write one reply into the ring. -/
def State.putReply (s : State) (x : BitVec 512) : State :=
  let c := s.cmd
  let s := s.hostPut (c.ringBase.toNat + 64 + 64 * (c.prod.toNat % c.ringSize)) (bytesLE 64 x.toNat)
  ({ s with cmd := { s.cmd with prod := s.cmd.prod + 1 } }.ringHeader).raise evCmdReply

/-- Write the held replies for which there is room, oldest first. -/
def State.pumpReplies (s : State) : Nat → State
  | 0 => s
  | n + 1 =>
    match s.cmd.held with
    | [] => s
    | x :: xs =>
      if s.cmd.room && s.cxl.up then
        State.pumpReplies ({ s with cmd := { s.cmd with held := xs } }.putReply x) n
      else s

/-- A reply is written, or held while the ring is full or off. -/
def State.reply (s : State) (x : BitVec 512) : State :=
  State.pumpReplies { s with cmd := { s.cmd with held := s.cmd.held ++ [x] } } (s.cmd.held.length + 1)

/-! ### Status and reason codes (R392, R393) -/

def stOK : Nat := 0x0000
def stCLAMPED : Nat := 0x0001
def stABSENT : Nat := 0x0010
def stUNSUPPORTED : Nat := 0x0011
def stREJECTED : Nat := 0x0020
def stAUTH : Nat := 0x0021
def stFAULTED : Nat := 0x0030
def stABORTED : Nat := 0x0031
def stCRC : Nat := 0x0032

def rsSTATE : Nat := 0x0001
def rsNOSLOT : Nat := 0x0002
def rsNOTMANAGER : Nat := 0x0003
def rsNOSAVE : Nat := 0x0004
def rsWITHDRAWN : Nat := 0x0005
def rsRETIRED : Nat := 0x0006
def rsSHORT : Nat := 0x0007
def rsNOSPARE : Nat := 0x0008
def rsNOTHING : Nat := 0x0009
def rsHELD : Nat := 0x0010
def rsSAVEFAILED : Nat := 0x0011
def rsRECOVERY : Nat := 0x0012
def rsHOSTDMA : Nat := 0x0013
def rsHANDOVER : Nat := 0x0014

/-! ### Accepted commands (R392, R396) -/

def State.modCmd (s : State) (seq : W64) (f : Cmd → Cmd) : State :=
  { s with cmd := { s.cmd with accepted := s.cmd.accepted.map fun c => if c.seq = seq then f c else c } }

/-- OK, or OK_CLAMPED when a field was clamped. -/
def Cmd.okStatus (c : Cmd) : Nat := if c.clamp = 0 then stOK else stCLAMPED

/-- A command has reached the moment at which it completes, with its status and reason; its reply
follows at COMMAND_COMPLETE. -/
def State.finishCmd (s : State) (seq : W64) (status reason : Nat) (result : BitVec 192) : State :=
  s.modCmd seq fun c => { c with
    begun := true
    finished := true
    status := BitVec.ofNat 16 (if status = stOK then c.okStatus else status)
    reason := BitVec.ofNat 16 reason
    result := result }

/-- RESULT with no field that applies (R390). -/
def resNone : BitVec 192 := BitVec.allOnes 192

/-- Put `n` bytes at reply byte `off` of a RESULT. -/
def resSet (r : BitVec 192) (off n v : Nat) : BitVec 192 := setFld r (8 * (off - 32)) (8 * n) (BitVec.ofNat (8 * n) v)

/-- A RESULT of one field. -/
def resOne (off n v : Nat) : BitVec 192 := resSet resNone off n v

/-- The opcode of an accepted packet, and `n` parameter bytes from byte `a` (R385). Bytes at or beyond
PLEN, clamped to 192, read as 0 (R386). -/
def Cmd.opcode (c : Cmd) : Nat := fldN c.packet 64 16
def packetPlen (x : BitVec 2048) : Nat := fldN x 96 16
def Cmd.plen (c : Cmd) : Nat := min 192 (packetPlen c.packet)
def Cmd.par (c : Cmd) (a n : Nat) : Nat := (fldN c.packet 256 1536 % 2 ^ (8 * c.plen)) >>> (8 * a) % 2 ^ (8 * n)
def Cmd.hasMark (c : Cmd) : Bool := bitAt c.packet 80
def Cmd.mark (c : Cmd) : W64 := fld c.packet 128 64

def opSTART : Nat := 0x0020
def opSAVE : Nat := 0x0023
def opRESUME : Nat := 0x0024
def opRETIRE : Nat := 0x0040
def opTIDEROLE : Nat := 0x0070

def Cmd.open_ (c : Cmd) : Bool := c.begun && !c.finished

/-- Finish a command that has done what it was asked. -/
def Cmd.succeed (c : Cmd) : Cmd :=
  { c with finished := true, status := BitVec.ofNat 16 c.okStatus, reason := 0 }

def Cmd.fail (c : Cmd) (status reason : Nat) : Cmd :=
  { c with finished := true, status := BitVec.ofNat 16 status, reason := BitVec.ofNat 16 reason, result := resNone }

def State.mapCmds (s : State) (f : Cmd → Cmd) : State :=
  { s with cmd := { s.cmd with accepted := s.cmd.accepted.map f } }

/-- A command that completes at releases keeps in `memo` the channels released, [3:0], and those it
waits for, [7:4]. -/
def Cmd.waitsFor (c : Cmd) (n : Nat) : Bool :=
  c.open_ && (c.opcode = opSTART || c.opcode = opRESUME || c.opcode = opRETIRE) && bitAt c.memo (4 + n) &&
    !bitAt c.memo n

/-- A block is released in channel `n` (R398, R399): START answers its lowest channel's number. -/
def Cmd.noteRelease (c : Cmd) (n : Nat) (seq : W64) : Cmd :=
  if c.waitsFor n then
    let low := (List.range 4).find? fun i => bitAt c.memo (4 + i)
    let c := { c with
      memo := setBit c.memo n true
      result := if c.opcode = opSTART && decide (low = some n) then resOne 32 8 seq.toNat else c.result }
    if fldN c.memo 0 4 = fldN c.memo 4 4 then c.succeed else c
  else c

def State.noteRelease (s : State) (c : Chn) (seq : W64) : State := s.mapCmds fun m => m.noteRelease c.val seq

/-- A stop overtakes what waits for the channel's release, and a SAVE that has not begun (R397). -/
def State.noteStop (s : State) (c : Chn) : State :=
  let early := !s.recov.saveActive
  let lost := fun (m : Cmd) => !m.finished && m.opcode = opSAVE && early
  let s := if s.cmd.accepted.any lost then
      { s with recov := { s.recov with saveDue := false, saveStop := false } } else s
  s.mapCmds fun m => if m.waitsFor c.val || lost m then m.fail stABORTED rsWITHDRAWN else m

def opSTOP : Nat := 0x0021
def opSTOPAFTER : Nat := 0x0022
def opRESET : Nat := 0x0042

/-- A reset or a retirement overtakes a STOP_AFTER_BLOCK that names the channel; a retirement a reset
too. -/
def State.noteGone (s : State) (c : Chn) (retired : Bool) : State :=
  s.mapCmds fun m =>
    if m.open_ && (m.opcode = opSTOPAFTER || (retired && m.opcode = opRESET)) && bitAt m.packet (256 + c.val) then
      m.fail stABORTED rsWITHDRAWN
    else m

/-- A fault that holds the channel spoils what waits for its release. -/
def State.noteHold (s : State) (c : Chn) : State :=
  s.mapCmds fun m => if m.waitsFor c.val then m.fail stFAULTED rsHELD else m

/-- Every unfinished SAVE ends with the save point (R365): number and tick, or SAVE_FAILED. -/
def State.noteSave (s : State) (number : Option W64) : State :=
  s.mapCmds fun m =>
    if m.open_ && m.opcode = opSAVE then
      match number with
      | some n => { m with result := resSet (resOne 32 8 n.toNat) 40 8 s.tide.count.toNat }.succeed
      | none => m.fail stFAULTED rsSAVEFAILED
    else m

/-- An unfinished SET_TIDE_ROLE ends with the role in force, or with a reason (R407). -/
def State.noteRole (s : State) (ok : Bool) : State :=
  s.mapCmds fun m =>
    if m.open_ && m.opcode = opTIDEROLE then
      if ok then { m with result := resOne 32 1 s.tide.role.toNat }.succeed else m.fail stFAULTED rsHANDOVER
    else m

end Sys2Proof.Machine
end

