-- ==== Sys2Proof/Machine/Firmware.lean ====
section
/-! DEFINITION. Firmware images and slots (R478 to R480), their verification, the measurements in force
and how they change unit by unit (R492, R513), and the digests that receipts and reports take of the
part (R267, R490). -/
namespace Sys2Proof.Machine

/-! ### The header (R478) -/

/-- `n` bytes of an image from offset `a`, as a number. -/
def fwField (bs : List Byte) (a n : Nat) : Nat := ofBytesLE ((bs.drop a).take n)

def fwVersion (bs : List Byte) : W64 := w64 (fwField bs 8 8)
def fwSvn (bs : List Byte) : Nat := fwField bs 16 1
def fwKey (bs : List Byte) : Nat := fwField bs 17 1
def fwAdvance (bs : List Byte) : Bool := decide (fwField bs 18 1 % 2 = 1)
def fwCount (bs : List Byte) : Nat := fwField bs 19 1
def fwPayload (bs : List Byte) : Nat := fwField bs 20 4

/-- Component `i`: type, offset in the payload, length, measurement. -/
def fwComp (bs : List Byte) (i : Nat) : Nat × Nat × Nat × BitVec 512 :=
  let a := 64 + 80 * i
  (fwField bs a 1, fwField bs (a + 8) 4, fwField bs (a + 12) 4, BitVec.ofNat 512 (fwField bs (a + 16) 64))

def fwComps (bs : List Byte) : List (Nat × Nat × Nat × BitVec 512) :=
  (List.range (min 16 (fwCount bs))).map (fwComp bs)

/-- The measurement of the first component of a type. -/
def fwMeasure (bs : List Byte) (type_ : Nat) : BitVec 512 :=
  match (fwComps bs).find? fun c => c.1 = type_ with
  | some c => c.2.2.2
  | none => 0

/-! ### Verification (R479) -/

/-- The SVN floor: bits blown in `FUSE_SVN`. -/
def State.svnFloor (s : State) : Nat :=
  (List.range 64).foldl (fun n i => n + boolBit (bitAt s.sec.svnBits i)) 0

/-- MAGIC and every offset and length are valid. -/
def fwShapeOk (bs : List Byte) : Bool :=
  bs.take 8 = asciiBytes "VT8FWIMG" && decide (fwSvn bs ≤ 64) && decide (fwKey bs < 4) &&
    decide (1 ≤ fwCount bs) && decide (fwCount bs ≤ 16) && decide (fwPayload bs ≤ 48 * 2 ^ 20) &&
    decide (bs.length = 4096 + fwPayload bs + 132) &&
    (fwComps bs).all fun c => decide (c.2.1 + c.2.2.1 ≤ fwPayload bs)

def fwMeasuresOk (bs : List Byte) : Bool :=
  (fwComps bs).all fun c => sha512 ((bs.drop (4096 + c.2.1)).take c.2.2.1) = c.2.2.2

/-- The signature after the payload, r and then s, over the signed hash. -/
def fwSigned (bs : List Byte) : Bool :=
  let n := 4096 + fwPayload bs
  ecdsaVerify (Config.fwKey (fwKey bs)) (sha512Bytes (bs.take n)) (fwField bs n 66) (fwField bs (n + 66) 66)

/-- The first check of R479 that a slot's bytes fail, in the order of the rule: 1 MAGIC or shape,
2 revoked key, 3 SVN, 4 measurement, 5 signature. -/
def State.fwCheck (s : State) (bs : List Byte) : Nat :=
  if bs.isEmpty || !fwShapeOk bs then 1
  else if bitAt s.sec.revoked (fwKey bs) then 2
  else if fwSvn bs < s.svnFloor then 3
  else if !fwMeasuresOk bs then 4
  else if fwSigned bs then 0
  else 5

/-! ### Slots and activation records (R480) -/

def State.slotBytes (s : State) (b : Bool) : List Byte := if b then s.sec.flashB.bytes else s.sec.flashA.bytes

/-- The newest valid activation record. -/
def State.newestRecord (s : State) : Option (W64 × Bool) :=
  s.sec.records.foldl (fun best r =>
    match best with
    | some b => if b.1.toNat < r.1.toNat then some r else best
    | none => some r) none

/-- The slot that the newest record names; A when there is none. -/
def State.activeSlot (s : State) : Bool :=
  match s.newestRecord with
  | some r => r.2
  | none => false

/-! ### Measurements in force (R492) -/

/-- The ten fuse records and the serial number, hashed; the records of absent dies are zeros. -/
def State.dieIds (s : State) : BitVec 512 :=
  let recs := (List.range 10).flatMap fun i =>
    if !s.four && (i = 7 || i = 8) then List.replicate 32 0
    else bytesLE 32 (s.sec.fuseRecs.getD i 0).toNat
  sha512 (recs ++ bytesLE 16 s.sec.serial.toNat)

/-- The firmware configuration, measurement 17. -/
def State.fwConfig (s : State) : BitVec 512 :=
  sha512 (bytesLE 1 s.svnFloor ++ bytesLE 1 s.sec.revoked.toNat ++ bytesLE 1 (boolBit s.sec.slotB) ++
    bytesLE 8 s.sec.fwVer.toNat)

/-- Measurement `n`; `none` for an index whose unit the grade lacks. -/
def State.measurement (s : State) (n : Nat) : Option (BitVec 512) :=
  if n = 1 then some Config.romMeasure
  else if n = 2 then some s.sec.mSec
  else if n = 3 then some s.sec.mMgmt
  else if 4 ≤ n && n ≤ 7 then
    if s.hasChan (chnOf (n - 4)) then some (s.sec.mChan.getD (n - 4) 0) else none
  else if 8 ≤ n && n ≤ 15 then
    if n - 8 < (if s.four then 8 else 6) then some (s.sec.mMsd.getD (n - 8) 0) else none
  else if n = 16 then some s.dieIds
  else if n = 17 then some s.sec.mCfg
  else if n = 18 then some s.job.meas
  else none

/-- M_1 to M_17 side by side, absent ones left out. -/
def State.measureBytes (s : State) (lo hi : Nat) : List Byte :=
  (List.range (hi + 1 - lo)).flatMap fun i =>
    match s.measurement (lo + i) with
    | some m => bytesLE 64 m.toNat
    | none => []

/-- The firmware of a channel's control core and of its two memory-side dies becomes that of the
active slot (R513). -/
def State.switchUnits (s : State) (c : Chn) : State :=
  let bs := s.slotBytes s.activeSlot
  let m := fwMeasure bs 4
  let s : State := { s with
    sec := { s.sec with
      mChan := s.sec.mChan.set! c.val (fwMeasure bs 3)
      mMsd := (s.sec.mMsd.set! (2 * c.val) m).set! (2 * c.val + 1) m }
    job := { s.job with fwChanged := true } }
  s.modChan c fun ch => { ch with regs2 := { ch.regs2 with fwDue := false } }

end Sys2Proof.Machine
end

