-- ==== Sys2Proof/Machine/Gates.lean ====
section
/-! DEFINITION. Timed blocks and gates (R211 to R229): block table entries, code sets, the state at image
load (R541), what a gate gathers, compares and clears (R218), block records (R261 to R264), replays
(R258), slack windows as a gate takes them (R504 to R507), stops, the gate check and the release. -/
namespace Sys2Proof.Machine

/-! ### The block of a gate -/

/-- The lowest set bit of a channel set; 8 when it is empty. -/
def lowestBit (m : BitVec 4) : Nat := ((List.range 4).find? fun i => bitAt m i).getD 8

/-- The channels of a block's set. -/
def State.setOf (s : State) (b : BEntry) : List Chn := s.channels.filter fun c => bitAt (beChset b) c.val

/-- The block that the gate will open: the one GATE named, or the one to be replayed. -/
def Gate.target (g : Gate) : Option BEntry := if g.restarted then g.block else g.next
def Gate.targetIdx (g : Gate) : Nat := if g.restarted then g.blockIdx else g.nextIdx

def State.modGate (s : State) (c : Chn) (f : Gate → Gate) : State :=
  s.modChan c fun ch => { ch with gate := f ch.gate }

/-! ### Code sets (R211, R219) -/

def Cell.setPage (c : Cell) (page : Bool) (v : Smap Bundle) : Cell :=
  if page then { c with page1 := v } else { c with page0 := v }

/-- The band stewards fill a page slot of the named bands' cells; a cell the code set does not give
holds filler bundles. -/
def Chan.loadCode (ch : Chan) (cs : Smap (Smap (BitVec 256))) (bands : Nat → Bool) (page : Bool) : Chan :=
  let cleared := ch.cells.map fun e => if bands (e.1 / 320) then (e.1, e.2.setPage page []) else e
  { ch with cells := cs.foldl (fun m e =>
      if bands (e.1 / 320) then
        Smap.upsert m e.1 ((Smap.get Cell.reset m e.1).setPage page
          (e.2.map fun b => (b.1, Coded.ofData b.2)))
      else m) cleared }

/-- The code set resident in a slot of a band: slot and band together are the key. -/
def residentKey (page : Bool) (band : Nat) : Nat := 8 * boolBit page + band

def Chan.codeReady (ch : Chan) (c : Chn) (b : BEntry) : Bool :=
  (List.range 8).all fun band => !beBand b c band ||
    decide (Smap.find? ch.resident (residentKey (bePage b) band) = some (beCodeset b))

/-- Load the code set of the block to open, once the slot is not the running block's. -/
def State.loadNext (s : State) (c : Chn) : State :=
  let ch := s.chan c
  match ch.gate.target with
  | none => s
  | some b =>
    let busy := ch.gate.st = .running || ch.gate.phase = .closing
    let same := match ch.gate.block with
      | some r => decide (bePage r = bePage b)
      | none => false
    if ch.codeReady c b || (busy && same) then s
    else
      match s.part.codeSets[beCodeset b]? with
      | none => s
      | some cs => s.modChan c fun ch =>
        let ch := ch.loadCode (cs.cells.get c) (beBand b c) (bePage b)
        let resident := (List.range 8).foldl (fun m band =>
          if beBand b c band then Smap.upsert m (residentKey (bePage b) band) (beCodeset b) else m) ch.resident
        { ch with resident := resident }

/-! ### The state at image load (R541, R542) -/

def memOf (bs : List Byte) : Mem := Mem.empty.write 0 bs

def Core.loaded (p : Option ChanProgram) : Core :=
  match p with
  | none => Core.reset
  | some p => { Core.reset with
      regs := Core.reset.regs.set! 31 (w64 returnAddr)
      pc := p.entry
      imem := memOf (p.text.flatMap fun w => bytesLE 4 w.toNat)
      dmem := memOf p.data }

/-- A queue emptied at image load: reads on their way come back and are dropped (R330, R332). -/
def StreamQ.emptied (q : StreamQ) (cap : Nat) : StreamQ :=
  { StreamQ.reset with cap := cap, reads := q.reads.map fun r => { r with dropped := true } }

def capsTo {α : Type} {n : Nat} (reset : α) (set_ : α → Nat → α) (caps : List Nat) : Vector α n :=
  Vector.ofFn fun i => set_ reset (caps.getD i.val 0)

/-- The channel as image load leaves it; registers that count or control, the digest chain, and the
core's clock stay. DESIGN CHOICE (log 81): a pending CLEAR_NEXT is dropped. DESIGN CHOICE (log 82): the
ledger's counters are 0, but CR_ISSUED counts the reads that are still to return their credits, so that
identity 0x22 holds (R332). -/
def Chan.loaded (ch : Chan) (p : ImagePart) (c : Chn) : Chan := { ch with
  cells := []
  links := []
  sums := []
  dues := []
  drainOut := []
  lends := []
  edgeDone := []
  barriers := (p.barriers.get c).map fun e => (e.1, ⟨e.2, [], none⟩)
  trees := (p.trees.get c).map fun e => (e.1, ⟨e.2, [], []⟩)
  core := { Core.loaded (p.programs.get c) with evin := ch.core.evin }
  gate := { Gate.reset with st := .loaded, slackPassed := ch.gate.slackPassed }
  sq := Vector.ofFn fun i => (ch.sq.getD i.val StreamQ.reset).emptied ((p.sqCaps.get c).getD i.val 0)
  dq := capsTo DrainQ.reset (fun q n => { q with cap := n }) (p.dqCaps.get c)
  ledger := (Vector.replicate 18 0).set! (ldCrIssued - 1)
    (w64 (ch.sq.foldl (fun n q => n + q.reads.length) 0))
  resident := []
  regs := { ch.regs with clearNext := false } }

/-- The sync side of a channel's start state: its home counters 0, none of its waits left. -/
def State.clearSync (s : State) (c : Chn) : State :=
  { s with sync := { s.sync with
    counts := s.sync.counts.filter fun e => decide (e.1 / 32768 ≠ c.val)
    ops := s.sync.ops.filter fun o => decide (o.src ≠ .endpoint c.val)
    waits := s.sync.waits.filter fun w => decide (w.endpoint ≠ c.val) } }

/-- Home counters of a channel went to 0: waits of other channels that this satisfies are served
(R286). -/
def State.serveHome (s : State) (c : Chn) : State :=
  (s.sync.waits.map SyncWait.counter).eraseDups.foldl (fun s n => if homeOf n = c then s.serveWaits n else s) s

/-- Put channel `c` into the state of image load; its port opens. -/
def State.loadChan (s : State) (c : Chn) : State :=
  let p := s.part
  (((((s.closePort c.val).clearSync c).modChan c fun ch => ch.loaded p c)).serveHome c).openPort c.val

/-- Save points of the image become invalid in every channel (R516). -/
def State.dropSaves (s : State) : State :=
  let s : State := { s with recov := { s.recov with slots := Vector.replicate 8 none } }
  s.channels.foldl (fun s c => s.modChan c fun ch => { ch with
    regs2 := { ch.regs2 with aValid := false, bValid := false } }) s

/-- Compute cycles in which a reset clears the scratchpads (R515). -/
def resetCycles : Nat := 1024

/-- RESET_CHANNEL acts (R360, R515, R516): the channel is as at image load, and held in reset with its
port closed; STATE shows the state it was in. -/
def State.resetChan (s : State) (c : Chn) : State :=
  let st := (s.chan c).gate.st
  let s := ((((s.loadChan c).dropSaves).noteGone c false).closePort c.val).modChan c fun ch => { ch with
    gate := { ch.gate with st := st, inReset := some (s.cy + resetCycles) }
    regs2 := { ch.regs2 with reproduced := false } }
  { s with job := { s.job with active := false } }

/-- The reset of a channel ends: it is LOADED and its port opens. -/
def State.endReset (s : State) (c : Chn) : State :=
  match (s.chan c).gate.inReset with
  | some n =>
    if n ≤ s.cy then (s.modGate c fun g => { g with st := .loaded, inReset := none }).openPort c.val else s
  | none => s

/-! ### Stopping, holding, opening (R218 steps 7, 10, 11) -/

/-- Step 7 on a fault: the channel is held; its digest parts are discarded. -/
def State.holdChan (s : State) (c : Chn) : State :=
  ((s.modGate c fun g => { g with st := .held, phase := .none, ready := false, parts := [] }).noteHold c).raise
    (evChan c 0)

def State.stopChan (s : State) (c : Chn) (cause : BitVec 3) : State :=
  ((s.modGate c fun g => { g with
    st := .stopped, phase := .none, ready := false, stopCause := cause, halted := false,
    stopNow := false }).noteStop c).raise (evChan c 7)

def CoreWait.isGate : CoreWait → Bool
  | .gate _ _ => true
  | _ => false

/-- Step 11: wait for GATE, then for the conditions of R219. -/
def State.enterOpening (s : State) (c : Chn) : State :=
  let ch := s.chan c
  let phase : GatePhase := if ch.core.wait.isGate || ch.gate.restarted then .opening else .waitGate
  (s.modGate c fun g => { g with st := .gate, phase := phase, openTicks := 0, longSaid := false }).loadNext c

/-- The stop condition that holds in step 10, the first of R225; 0 when none does. -/
def Chan.stopWhy (ch : Chan) : BitVec 3 :=
  if ch.gate.halted then 1
  else if ch.regs.stopAfter ≠ ones64 && ch.regs.stopAfter = ch.gate.seq - 1 then 2
  else if ch.gate.stopNow then 3
  else 0

/-- Steps 10 and 11, after a slack window or without one. A reset that waits for the gate acts as a
stop (R397). -/
def State.afterSlack (s : State) (c : Chn) : State :=
  let ch := s.chan c
  if ch.gate.faulted then s.holdChan c
  else if ch.gate.resetDue then (s.stopChan c 3).resetChan c
  else if ch.stopWhy ≠ 0 then s.stopChan c ch.stopWhy
  else s.enterOpening c

/-! ### Slack windows at a gate (R504 to R507) -/

/-- The channels that a task needs (R460, R505). -/
def State.taskNeeds (s : State) (t : SlackTask) : List Chn :=
  let present := s.channels.filter fun c => (s.chan c).gate.st ≠ .retired
  match t with
  | .calibrate r =>
    if r.val = 36 then present.filter s.seamOpen
    else
      let c := chnOf (r.val / 9)
      present.filter fun d => d = c || (r.val % 9 = 7 && d = midPeer c)
  | .substitute c _ => present.filter fun d => d = c
  | _ => []

/-- The tasks of the open window. -/
def State.windowTasks (s : State) : List Task :=
  match s.svc.openMark with
  | some m => s.svc.tasks.filter fun t => t.mark = m
  | none => []

def taskIsCal : SlackTask → Bool
  | .calibrate _ => true
  | _ => false

/-- A task can start: its channels have entered, no other recalibration that shares a channel runs or
comes first, and a firmware switch waits for a rollback or retirement in progress (R512). -/
def State.canStart (s : State) (t : Task) : Bool :=
  (s.taskNeeds t.task).all (fun c => (s.chan c).regs2.slackEntered) &&
    !(t.task = .firmware && s.flt.recovering) &&
    !(taskIsCal t.task && s.windowTasks.any fun u => taskIsCal u.task && u.started &&
      (s.taskNeeds u.task).any fun c => (s.taskNeeds t.task).contains c)

/-- The order in which tasks start: recalibrations by ascending region. -/
def taskOrder : SlackTask → Nat
  | .calibrate r => r.val
  | _ => 0

/-- What a task does when it starts (R511, R512). -/
def State.beginTask (s : State) (t : SlackTask) : State :=
  match t with
  | .retrain n => s.modMsd n.val fun d => { d with retraining := true }
  | .firmware =>
    let s : State := { s with svc := { s.svc with mgmtSwitch := true } }
    [4, 5, 6, 7].foldl (fun s i => s.closePort i) s
  | .calibrate r => { s with pwr := { s.pwr with
      regions := s.pwr.regions.set! r.val { s.pwr.regions.getD r.val ⟨0, false, false, 0⟩ with calibrating := true } } }
  | .substitute _ _ => s

def State.startTasks (s : State) : State :=
  (sortBy (fun t : Task => taskOrder t.task) (s.windowTasks.filter fun t => !t.started)).foldl
    (fun s t =>
      if s.canStart t then
        let s := s.beginTask t.task
        { s with svc := { s.svc with tasks := s.svc.tasks.map fun u => if u = t then { u with started := true } else u } }
      else s) s

/-- A channel leaves the window once no task needs it (R506); its gate goes on to step 10. -/
def State.leaveIfFree (s : State) (c : Chn) : State :=
  let ch := s.chan c
  if !ch.regs2.slackEntered then s
  else
    let mine := s.windowTasks.filter fun t => (s.taskNeeds t.task).contains c
    if mine.isEmpty then
      let s := s.modChan c fun ch => { ch with
        regs2 := { ch.regs2 with slackEntered := false, slackWaiting := false } }
      if ch.gate.st = .gate && ch.gate.phase = .slack then s.afterSlack c
      else if ch.gate.resetDue then s.resetChan c
      else s
    else s.modChan c fun ch => { ch with
        regs2 := { ch.regs2 with slackWaiting := mine.any fun t => !t.started } }

/-- Start what can start, and let channels that no task needs leave. -/
def State.slackMove (s : State) : State :=
  let s := s.startTasks
  s.channels.foldl State.leaveIfFree s

/-- A channel enters the open window. -/
def State.enterSlack (s : State) (c : Chn) : State :=
  let s := s.modChan c fun ch => { ch with
    regs2 := { ch.regs2 with slackEntered := true, slackWindows := satInc ch.regs2.slackWindows }
    gate := { ch.gate with slackPassed := true } }
  s.slackMove

/-- Whether the window of the last mark is due for a channel at this gate: it takes it at its first gate
at or after the mark, even past the span (R38, R504). -/
def State.slackDue (s : State) (c : Chn) : Bool := !(s.chan c).gate.slackPassed

/-- Step 9: each channel's units switch when a firmware switch waits (R513), and the channel takes the
window that is due. -/
def State.stepSlack (s : State) (c : Chn) : State :=
  let s := s.modGate c fun g => { g with phase := .slack }
  let s := if (s.chan c).regs2.fwDue then s.switchUnits c else s
  if s.slackDue c then s.enterSlack c else s.afterSlack c

/-! ### Block records (R261 to R264) -/

/-- P_h × G^(h + 1) over the handles of the block. -/
def State.blockDigest (s : State) (parts : Smap W128) : W128 :=
  parts.foldl (fun acc p => acc ^^^ gfMul p.2 (gfPow s.job.g (p.1 + 1))) 0

/-- The record of pending blocks and this one (R263). -/
def State.blockRecord (s : State) (c : Chn) (p : Pending) : BitVec 512 :=
  let g := (s.chan c).gate
  BitVec.ofNat 512 (withCrc 64 (
    g.seq.toNat + 2 ^ 64 * g.blockIdx + 2 ^ 96 * c.val + 2 ^ 104 * s.img.variant + 2 ^ 112 * p.folded +
    2 ^ 128 * p.digest.toNat + 2 ^ 256 * p.checked.toNat + 2 ^ 320 * p.unchecked.toNat +
    2 ^ 384 * s.tide.count.toNat + 2 ^ 448 * min g.attempt 0xFFFF))

/-- Add a record to the chain, the ring and the counts. -/
def Chain.add (ch : Chain) (r : BitVec 512) (p : Pending) : Chain := { ch with
  parts := ch.parts ++ [fld r 0 384]
  ring := Smap.upsert ch.ring ch.ringPos r
  ringPos := (ch.ringPos + 1) % 65536
  pend := Pending.reset
  segChecked := ch.segChecked + p.checked
  segUnchecked := ch.segUnchecked + p.unchecked
  segRecords := ch.segRecords + 1 }

/-- Where a channel's region of a pair ring begins (R271). -/
def pairRegion (ring : W64) (c : Chn) : Nat := ring.toNat + 64 + 262144 * c.val

/-- The host byte behind a device virtual address that the window table maps to the host (R34, R270). -/
def State.hostOf (s : State) (va : Nat) (write : Bool) : Option Nat :=
  match s.useEntry (Smap.get 0 s.mem.wtab (wtIndex va)) va write with
  | .ok true a => some a
  | _ => none

/-- DMA writes of bytes at device virtual addresses; a page that is not mapped to the host loses them. -/
def State.vaPut (s : State) (va : Nat) (bs : List Byte) : State :=
  { s with host := s.host.put s.cxl.up (bs.zipIdx.filterMap fun b =>
      (s.hostOf (va + b.2) true).map fun a => (a, b.1)) }

/-- `n` bytes at a device virtual address, as a number; bytes of other pages read as 0. -/
def State.vaGet (s : State) (va n : Nat) : Nat :=
  ofBytesLE ((List.range n).map fun i => match s.hostOf (va + i) false with
    | some a => Smap.get 0 s.host.bytes a
    | none => 0)

/-- A pair member writes the record into its ring, then PRODUCED; the ring is full at 4,096. -/
def State.pairPut (s : State) (c : Chn) (r : BitVec 512) : State :=
  let x := (s.chan c).regs2
  if x.pairMember then
    let s := s.vaPut (pairRegion x.pairRing c + 64 * (x.pairProduced.toNat % 4096)) (bytesLE 64 r.toNat)
    let s := s.vaPut (x.pairRing.toNat + 8 * c.val) (bytesLE 8 (x.pairProduced + 1).toNat)
    s.modChan c fun ch => { ch with regs2 := { ch.regs2 with
      pairProduced := ch.regs2.pairProduced + 1
      ringFull := decide (4096 ≤ (ch.regs2.pairProduced + 1 - ch.regs2.pairConsumed).toNat) } }
  else s

/-- Make a record of `p`. -/
def State.makeRecord (s : State) (c : Chn) (p : Pending) : State :=
  let r := s.blockRecord c p
  let s := s.modChan c fun ch => { ch with
    chain := ch.chain.add r p
    regs2 := { ch.regs2 with digRecs := ch.regs2.digRecs + 1 } }
  s.pairPut c r

/-- The block's digest and lanes join the pending record, and a record is made when the plan or the
count asks for one; its parts enter the accumulators. Without a job none of this happens (R403). -/
def State.digestGate (s : State) (c : Chn) (b : BEntry) : State :=
  if !s.job.active then s else
  let g := (s.chan c).gate
  let s : State := { s with job := { s.job with
    accum := g.parts.foldl (fun m p => Smap.upsert m p.1 (Smap.get 0 m p.1 ^^^ p.2)) s.job.accum } }
  let old := (s.chan c).chain.pend
  let p : Pending := ⟨old.folded + 1, old.digest ^^^ s.blockDigest g.parts,
    old.checked + g.checkedLanes, old.unchecked + g.uncheckedLanes⟩
  if bitAt (s.part.digestPlan.getD (beDplan b) 0) 0 || decide (65535 ≤ p.folded) then s.makeRecord c p
  else s.modChan c fun ch => { ch with chain := { ch.chain with pend := p } }

/-! ### The closing phase (R218 steps 1 to 6) -/

/-- Nothing of the ended block is under way in the channel's cells. -/
def Chan.quiet (ch : Chan) : Bool :=
  ch.dues.isEmpty && ch.links.isEmpty && ch.sums.isEmpty && ch.lends.isEmpty && ch.drainOut.isEmpty &&
    ch.barriers.all fun b => b.2.releaseAt.isNone

/-- Step 1 is done: the channel's cells are quiet, their sync operations have landed, and every beat
it pushed has been written. -/
def State.closed (s : State) (c : Chn) : Bool :=
  let ch := s.chan c
  ch.gate.st = .gate && ch.gate.phase = .closing && ch.quiet && s.drainsDone c &&
    s.sync.ops.all fun o => match o.src with
      | .cell d _ => decide (d ≠ c.val)
      | .endpoint _ => true

def State.gateFault (s : State) (c : Chn) (cls cause unit_ : Nat) (d0 d1 : W64) : State :=
  s.fault { FaultRec.ofChan c cls cause unit_ d0 d1 with gate := true }

/-- Step 2: flag words are gathered (R164). A 1 written to RUN_OR in the cycle of the gather comes before it
(R167; DESIGN CHOICE, log 88). -/
def Chan.gather (ch : Chan) : Chan :=
  let v : Byte := ch.cells.foldl (fun acc e => acc ||| e.2.flags) 0
  { ch with regs := { ch.regs with gateOr := v, runOr := ch.regs.runOr ||| v } }

/-- The value held in a counter of the ledger by its code. -/
def Chan.led (ch : Chan) (code : Nat) : W64 := ch.ledger.getD (code - 1) 0

/-- Entries in the channel's cell queues. -/
def Chan.occupancy (ch : Chan) : Nat :=
  ch.cells.foldl (fun n e => n + (e.2.qin.toList ++ e.2.qout.toList).foldl (fun n q => n + q.length) 0) 0

/-- The sum of the counters homed in a channel. -/
def State.homeTokens (s : State) (c : Chn) : W64 :=
  s.sync.counts.foldl (fun acc e => if e.1 / 32768 = c.val then acc + countWord e.2 else acc) 0

/-- The identities of R299: code, expected and counted. -/
def State.identities (s : State) (c : Chn) : List (Nat × W64 × W64) :=
  let ch := s.chan c
  [(0x20, ch.led ldPushed - ch.led ldPopped, w64 ch.occupancy),
   (0x21, ch.led ldHomeSig - ch.led ldHomeTake + ch.led ldHomeSet, s.homeTokens c),
   (0x22, ch.led ldCrIssued - ch.led ldCrReturned, w64 ch.creditsOut),
   (0x23, ch.led ldMsgArrived - ch.led ldMsgRecv - ch.led ldMsgDisc, w64 (s.port c.val).inbox.length)]

/-- Growth against the declared totals: code, declared and counted. -/
def State.growth (s : State) (c : Chn) (b : BEntry) : List (Nat × W64 × W64) :=
  let ch := s.chan c
  let t := s.part.totals.getD (beLedger b) 0
  (List.range 6).map fun i =>
    (i + 1, fld t (64 * i) 64, ch.led (i + 1) - ch.gate.ledgerBase.getD i 0)

/-- Step 3: every comparison that fails raises LEDGER. -/
def State.checkLedger (s : State) (c : Chn) (b : BEntry) : State :=
  (s.growth c b ++ s.identities c).foldl
    (fun s e => if e.2.1 = e.2.2 then s else s.gateFault c clLedger e.1 0xFF e.2.1 e.2.2) s

/-- Step 4: a latch that is still set raises SYNC (R93). -/
def State.checkLatches (s : State) (c : Chn) : State :=
  (s.chan c).barriers.foldl (fun s g => g.2.latched.foldl
    (fun s m => s.gateFault c clSync scLATCH unTree (w64 g.1) (w64 m)) s) s

/-- The unchecked lanes against the tally plan (R255). -/
def State.checkCoverage (s : State) (c : Chn) (b : BEntry) : State :=
  let limit := fldN (s.part.tallyPlan.getD (beTplan b) 0) 0 32
  if limit ≠ 0xFFFFFFFF && decide (limit < (s.chan c).gate.uncheckedLanes.toNat) then
    { s with job := { s.job with coverage := true } }.raise evTallyCoverage
  else s

def State.closeChecks (s : State) (c : Chn) (b : BEntry) : State :=
  (((s.modChan c Chan.gather).checkLedger c b).checkLatches c).checkCoverage c b

/-- Step 5 in one cell. -/
def Cell.gateClear (flags : Bool) (c : Cell) : Cell := { c with
  tiles := []
  actBuf := none
  scaleBuf := none
  halfAt := none
  masks := Vector.replicate 8 (BitVec.allOnes 32)
  flags := if flags then 0 else c.flags
  seq := Seq.reset }

/-- Step 5, and step 6 when `land` says so: a replay keeps broadcasts and the clear request for its
own gate. -/
def Chan.gateClear (ch : Chan) (land : Bool) : Chan :=
  let clear := land && (ch.regs.clearNext || ch.regs.clearEvery)
  let ch : Chan := { ch with
    cells := ch.cells.map fun e => (e.1, e.2.gateClear clear)
    barriers := ch.barriers.map fun b => (b.1, { b.2 with latched := [] })
    trees := ch.trees.map fun t => (t.1, { t.2 with set_ := [], history := [] })
    regs := { ch.regs with clearNext := ch.regs.clearNext && !land } }
  if land then ch.landBcasts else ch

/-! ### Replay (R257 to R259) -/

def Cell.snap (c : Cell) : CellSnap :=
  ⟨c.pushCtr, c.activeB, c.bankA.written, c.bankB.written, c.index, c.bc, c.flags⟩

def Cell.unsnap (c : Cell) (p : CellSnap) : Cell := { c with
  pushCtr := p.pushCtr
  activeB := p.activeB
  bankA := { c.bankA with written := p.writtenA }
  bankB := { c.bankB with written := p.writtenB }
  index := p.index
  bc := p.bc
  flags := p.flags }

/-- The snapshot of a replayable block's first attempt. -/
def Chan.takeSnap (ch : Chan) : Replay where
  cells := ch.cells.map fun e => (e.1, e.2.snap)
  streams := ⟨ch.sq.toList.zipIdx.map fun q => (q.2, q.1.saved), ch.dq.toList.zipIdx.map fun q => (q.2, q.1.saved)⟩

def savedOf (l : List (Nat × List Strm)) (q : Nat) : List Strm :=
  match l.find? fun e => e.1 = q with
  | some e => e.2
  | none => []

/-- Restore the snapshot: fetched beats discarded with their credits, streams and cells as at the
release, with what the program has opened and cancelled since (R258 steps 1 to 3). -/
def State.unwind (s : State) (c : Chn) (r : Replay) : State :=
  let sq := (List.range 64).map (savedOf r.streams.streams)
  let dq := (List.range 32).map (savedOf r.streams.drains)
  let s := (List.range 64).foldl (fun s q => s.cancelSq c q) s
  let s := s.reopen c sq dq
  s.modChan c fun ch => { ch with cells := ch.cells.map fun e =>
    (e.1, e.2.unsnap (Smap.get Cell.reset.snap r.cells e.1)) }

/-- The faulted attempt leaves; the same block opens again as attempt 1. -/
def State.replayChan (s : State) (c : Chn) : State :=
  let s := match (s.chan c).gate.replay with
    | some r => s.unwind c r
    | none => s
  let s := s.modChan c fun ch => { ch with
    gate := { ch.gate with
      restarted := true, attempt := 1, faulted := false, faults := [], firsts := [], parts := []
      checkedLanes := 0, uncheckedLanes := 0 }
    regs2 := { ch.regs2 with replays := satInc ch.regs2.replays } }
  (s.enterOpening c).raise (evChan c 6)

/-- Whether the faults of a block's set are answered by a replay. -/
def State.mayReplay (s : State) (set_ : List Chn) : Bool :=
  set_.all fun c =>
    let g := (s.chan c).gate
    g.attempt = 0 && g.replay.isSome && (g.faults.all fun f => f.1 = clTally) &&
      match g.block with
      | some b => beReplayable b
      | none => false

/-! ### The decision (R218 steps 7 to 10) -/

/-- The channel set that the image in force binds (R361). -/
def State.bound (s : State) : List Chn := s.channels.filter fun c =>
  bitAt s.part.chset c.val && (s.chan c).gate.st ≠ .noImage && (s.chan c).gate.st ≠ .retired

/-- A save point is to be written before this channel's next block (R361): in step 8, or in step 11 when
GATE names that block only there (log 45). Where the save failed at this gate, the next save block
retries (R363). -/
def State.saveWanted (s : State) (c : Chn) : Bool :=
  let g := (s.chan c).gate
  s.recov.saveDue && g.st = .gate && (g.phase = .saving || g.phase = .opening) && !g.restarted &&
    !g.saveMissed &&
    match g.next with
    | some b => !beNoSave b && s.setOf b = s.bound
    | none => false

/-- The save waited for in step 8 will not be written at this gate: it is no longer due, or a bound
channel stands still or waits for another block. -/
def State.saveStuck (s : State) (c : Chn) : Bool :=
  !s.saveWanted c || s.bound.any fun d =>
    let g := (s.chan d).gate
    match g.st, g.phase with
    | .running, _ => false
    | .gate, .opening => !s.saveWanted d
    | .gate, _ => false
    | _, _ => true

/-- Step 8: a channel with a save point to write waits for it; another goes on with step 9. -/
def State.stepSave (s : State) (c : Chn) : State :=
  let s := s.modGate c fun g => { g with phase := .saving }
  if s.saveStuck c then s.stepSlack c else s

/-- The gate passes step 7: digests, the sequence number, and the fields of one block start anew. -/
def State.passChan (s : State) (c : Chn) (b : BEntry) : State :=
  let s := s.digestGate c b
  let s := s.modGate c fun g => { g with
    seq := g.seq + 1, faults := [], firsts := [], parts := [], checkedLanes := 0, uncheckedLanes := 0
    replay := none, restarted := false }
  s.stepSave c

/-- Steps 2 to 11 of a gate, for every channel of the block's set at once. -/
def State.closeGate (s : State) (c : Chn) : State :=
  let s := s.flushFaults
  match (s.chan c).gate.block with
  | none => s
  | some b =>
    let set_ := s.setOf b
    if set_.all s.closed then
      let s := (set_.foldl (fun s d => s.closeChecks d (((s.chan d).gate.block).getD b)) s).flushFaults
      let bad := set_.any fun d => (s.chan d).gate.faulted
      let replay := bad && s.mayReplay set_
      let s := set_.foldl (fun s d => s.modChan d fun ch => ch.gateClear !replay) s
      if replay then set_.foldl State.replayChan s
      else if bad then
        set_.foldl (fun s d =>
          let s := s.holdChan d
          if (s.chan d).gate.resetDue && !(s.chan d).regs2.slackEntered then s.resetChan d else s) s
      else set_.foldl (fun s d => s.passChan d (((s.chan d).gate.block).getD b)) s
    else s

/-- Block cycle L: the gate begins (R213). -/
def State.endBlock (s : State) (c : Chn) : State :=
  let g := (s.chan c).gate
  match g.block with
  | some b =>
    if g.st = .running && decide (g.releaseCy + beLen b ≤ s.cy) then
      s.modGate c fun g => { g with st := .gate, phase := .closing }
    else s
  | none => s

def execBlockEnd (c : Chn) (s : State) : Host.Outcome State Fault Refusal :=
  s.onChan c fun s => s.endBlock c

/-! ### GATE (R222, R300) -/

/-- The interval's counts against its declared totals. -/
def State.intervalFaults (s : State) (c : Chn) : List (Nat × W64 × W64) :=
  let ch := s.chan c
  match ch.gate.interval with
  | none => []
  | some (base, t) =>
    [(ldCcSig, 384, 32), (ldCcTake, 416, 32), (ldMsgSent, 448, 16), (ldMsgRecv, 464, 16)].filterMap
      fun f =>
        let want := fldN t f.2.1 f.2.2
        let got := ch.led f.1 - base.getD (f.1 - 1) 0
        if want = 2 ^ f.2.2 - 1 || w64 want = got then none else some (f.1, w64 want, got)

/-- What is wrong with the entry a GATE names: cause, DETAIL0, DETAIL1. -/
def State.badEntry (s : State) (c : Chn) (idx : W64) : Option (Nat × W64 × W64) :=
  match s.part.blocks[idx.toNat]? with
  | none => some (scBADBLOCK, idx, ones64)
  | some b =>
    if !crcGood 64 b.toNat then some (scBADBLOCK, idx, ones64)
    else if !bitAt (beChset b) c.val || decide (beLeader b ≠ lowestBit (beChset b)) then
      some (scJOINT, w64 (beJoint b), w64 (beJoint b))
    else none

/-- A fault at GATE: a gate that already waits is held at once, another at its step 7. -/
def State.gateRefused (s : State) (c : Chn) : State :=
  let g := (s.chan c).gate
  if g.st = .gate && g.phase = .waitGate then s.flushFaults.holdChan c else s.flushFaults

def gateRow (s : State) (c : Chn) (w : W32) : State :=
  if s.sync.ops.any fun o => o.src = .endpoint c.val then s
  else
    let idx := s.sreg c (insA w)
    let pc := (s.chan c).core.pc
    let miss := s.intervalFaults c
    let s := miss.foldl (fun s e => s.coreFault c clLedger e.1 pc e.2.1 e.2.2) s
    let s := s.modGate c fun g => { g with interval := none }
    match s.badEntry c idx with
    | some (cause, d0, d1) =>
      ((s.coreFault c clSync cause pc d0 d1).coreResult c w ones64).gateRefused c
    | none =>
      let s := s.coreNext c fun k => { k with wait := .gate idx.toNat (BitVec.ofNat 5 (insD w)) }
      let s := s.modGate c fun g => { g with
        next := s.part.blocks[idx.toNat]?
        nextIdx := idx.toNat
        phase := if g.phase = .waitGate then .opening else g.phase }
      let s := s.loadNext c
      if miss.isEmpty then s
      else
        let s := s.flushFaults
        if (s.chan c).gate.st = .gate && (s.chan c).gate.phase = .opening && !(s.chan c).gate.restarted then
          s.holdChan c
        else s

def execGate (c : Chn) (s : State) : Host.Outcome State Fault Refusal :=
  s.onChan c fun s => s.coreRow c .gate gateRow

/-! ### The gate check (R219, R221, R225) -/

def State.waitStream (s : State) (c : Chn) (b : BEntry) : Bool :=
  (s.gateList b).any fun e => !e.2.1 && decide ((s.sqOf c e.1).beats.length < e.2.2)

def State.waitDrain (s : State) (c : Chn) (b : BEntry) : Bool :=
  (s.gateList b).any fun e => e.2.1 &&
    decide ((s.dqOf c e.1).cap < (s.dqOf c e.1).beats.length + e.2.2)

/-- The part holds for tide at or after the halt marks of R57 to R60. -/
def State.waitBits (s : State) (c : Chn) : BitVec 7 :=
  let ch := s.chan c
  match ch.gate.st, ch.gate.phase, ch.gate.target with
  | .gate, .opening, some b =>
    let joint := decide (1 < (s.setOf b).length)
    let peer := joint && !(s.setOf b).all fun d => d = c ||
      ((s.chan d).gate.ready && !(s.chan d).gate.faulted && match (s.chan d).gate.target with
        | some e => beJoint e = beJoint b
        | none => false)
    BitVec.ofNat 7 (boolBit (s.waitStream c b) + 2 * boolBit (s.waitDrain c b) +
      4 * boolBit (!ch.codeReady c b) +
      8 * boolBit (beMarkReq b && decide (s.tide.count.toNat < ch.regs.gateMark.toNat)) +
      16 * boolBit s.tide.hold + 32 * boolBit (!ch.gate.restarted && !ch.core.bcasts.isEmpty) + 64 * boolBit peer)
  | _, _, _ => 0

/-- No wait but the ones named, no save point to write, no full pair ring, and no save set still being
copied back (R367). -/
def State.mayPass (s : State) (c : Chn) (mask : BitVec 7) : Bool :=
  let ch := s.chan c
  ch.gate.st = .gate && ch.gate.phase = .opening && ch.gate.target.isSome &&
    (s.waitBits c &&& mask = 0) && !s.saveWanted c && !ch.regs2.ringFull && !ch.gate.faulted && !s.hasHeld 7

/-- JOINT_MISMATCH in both channels; neither releases (R221). -/
def State.jointMismatch (s : State) (leader c : Chn) (want got : Nat) : State :=
  let f := fun (d : Chn) => FaultRec.ofChan d clSync scJOINT unSyncFab (w64 want) (w64 got)
  ((((s.fault (f leader)).fault (f c)).flushFaults).holdChan leader).holdChan c

/-- A channel of a joint block that is not its leader reports ready, once its own conditions hold. -/
def State.reportReady (s : State) (c : Chn) : State :=
  match (s.chan c).gate.target with
  | none => s
  | some b =>
    let l := chnOf (beLeader b)
    if beLeader b < 4 && decide (l ≠ c) && s.mayPass c 0b0110111 && !(s.chan c).gate.ready then
      let s := s.modGate c fun g => { g with ready := true }
      match (s.chan l).gate.st, (s.chan l).gate.phase, (s.chan l).gate.target with
      | .gate, .opening, some e =>
        if bitAt (beChset e) c.val && decide (beJoint e ≠ beJoint b) then
          s.jointMismatch l c (beJoint e) (beJoint b)
        else s
      | _, _, _ => s
    else s

/-- A channel of the leader's set that is ready for another JOINT_ID. -/
def State.wrongPeer (s : State) (c : Chn) (b : BEntry) : Option (Chn × Nat) :=
  (s.setOf b).findSome? fun d =>
    match (s.chan d).gate.target with
    | some e => if d ≠ c && (s.chan d).gate.ready && beJoint e ≠ beJoint b then some (d, beJoint e) else none
    | none => none

/-- The stop tested again as the check passes: a halt, or a STOP at once. -/
def Gate.lateStop (g : Gate) : BitVec 3 := if g.halted then 1 else if g.stopNow then 3 else 0

/-- The gate waits in step 8, or in step 11 for GATE or for its conditions. -/
def Gate.waits (g : Gate) : Bool :=
  g.st = .gate && (g.phase = .opening || g.phase = .waitGate || g.phase = .saving)

/-- A stop as the gate check passes. A halted channel takes the window that is due first (R41). -/
def State.lateStopChan (s : State) (c : Chn) : State :=
  let g := (s.chan c).gate
  if g.resetDue then (s.stopChan c 3).resetChan c
  else if g.lateStop = 1 && s.slackDue c then s.stepSlack c
  else s.stopChan c g.lateStop

/-- The gate check passes: the release delay starts, or a stop acts. With a fault recorded since step 7,
such as one of SOPEN or of the control core, the gate does not open and the channel is held as in
step 7; a reset that is due acts without waiting for the conditions; a save that cannot be written at this
gate is not waited for. -/
def State.checkPass (s : State) (c : Chn) : State :=
  let s := s.flushFaults
  let g := (s.chan c).gate
  if g.waits && g.faulted then
    let s := s.holdChan c
    if g.resetDue then s.resetChan c else s
  else if g.waits && g.resetDue then (s.stopChan c 3).resetChan c
  else if g.phase = .saving then if s.saveStuck c then s.stepSlack c else s
  else
  match (s.chan c).gate.target with
  | none => s
  | some b =>
    if decide (beLeader b ≠ c.val) then s
    else
      match s.wrongPeer c b with
      | some (d, id) => if (s.chan c).gate.phase = .opening then s.jointMismatch c d (beJoint b) id else s
      | none =>
        if s.mayPass c (BitVec.allOnes 7) then
          let set_ := s.setOf b
          let stops := set_.filter fun d => (s.chan d).gate.lateStop ≠ 0
          if stops.isEmpty then
            let at_ := s.cy + if set_.length = 1 then 16 else 24
            set_.foldl (fun s d => s.modGate d fun g => { g with phase := .delay at_ }) s
          else stops.foldl State.lateStopChan s
        else s

/-! ### Release (R211, R214, R220, R222) -/

def seqStart (b : BEntry) (cy : Nat) : Seq :=
  { Seq.reset with running := true, page := bePage b, addr := beStart b, nextAt := cy }

/-- Every cell of the named bands starts; the others stay as the gate left them. -/
def Chan.startCells (ch : Chan) (c : Chn) (b : BEntry) (cy : Nat) : Chan :=
  let bands := (List.range 8).filter (beBand b c)
  { ch with cells := bands.foldl (fun m band => (List.range 320).foldl (fun m i =>
      let n := 320 * band + i
      Smap.upsert m n { Smap.get Cell.reset m n with seq := seqStart b cy }) m) ch.cells }

/-- The gate's fields for the block just released. -/
def Gate.released (g : Gate) (b : BEntry) (idx : Nat) (ledger : Vector W64 18) (t : BitVec 512)
    (snap : Replay) (cy : Nat) (log : W64) : Gate :=
  let a := g.nextAttempt
  { g with
    st := .running
    phase := .none
    block := some b
    blockIdx := idx
    lastSeq := g.seq
    next := if g.restarted then g.next else none
    releaseCy := cy
    ready := false
    attempt := a
    attemptMax := max g.attemptMax a
    highest := match g.highest with
      | some h => some (if h.toNat < g.seq.toNat then g.seq else h)
      | none => some g.seq
    saved := false
    saveMissed := false
    restarted := false
    openTicks := 0
    longSaid := false
    logFrom := log
    ledgerBase := ledger
    interval := if g.restarted then g.interval else some (ledger, t)
    firsts := []
    parts := []
    checkedLanes := 0
    uncheckedLanes := 0
    replay := if beReplayable b && a = 0 then some snap else none }

/-- GATE returns the block's sequence number. -/
def Core.gateReturn (k : Core) (seq : W64) (cy : Nat) : Core :=
  match k.wait with
  | .gate _ d => { k.setReg d.toNat seq with wait := .none, readyAt := cy + 1 }
  | _ => k

def State.releaseChan (s : State) (c : Chn) : State :=
  let ch := s.chan c
  match ch.gate.target with
  | none => s
  | some b =>
    let t := s.part.totals.getD (beLedger b) 0
    let s := s.noteRelease c ch.gate.seq
    s.modChan c fun ch =>
      let ch2 := ch.startCells c b s.cy
      { ch2 with
        gate := ch.gate.released b ch.gate.targetIdx ch.ledger t ch.takeSnap s.cy s.flt.prod
        core := if ch.gate.restarted then ch.core else ch.core.gateReturn ch.gate.seq s.cy }

/-- The release cycle: every channel of the set starts its cells. -/
def State.releaseBlock (s : State) (c : Chn) : State :=
  match (s.chan c).gate.phase, (s.chan c).gate.target with
  | .delay at_, some b =>
    if at_ ≤ s.cy then (s.flushFaults.setOf b).foldl State.releaseChan s.flushFaults else s
  | _, _ => s

def execBlockRelease (c : Chn) (s : State) : Host.Outcome State Fault Refusal :=
  s.onChan c fun s => s.releaseBlock c

/-! ### Long waits and clears (R228, R164) -/

/-- An opening phase longer than `CHn_GWLIM` says so once. -/
def State.gateLong (s : State) (c : Chn) : State :=
  let ch := s.chan c
  let lim := ch.regs.gwLim.toNat
  if ch.gate.st = .gate && lim ≠ 0 && decide (lim < ch.gate.openTicks) && !ch.gate.longSaid then
    let d0 := c.val + 256 * (s.waitBits c).toNat
    ((s.modGate c fun g => { g with longSaid := true }).internal 0x8001 d0 ch.gate.seq.toNat).raise (evChan c 4)
  else s

def execGateWaitLong (c : Chn) (s : State) : Host.Outcome State Fault Refusal :=
  s.onChan c fun s => s.gateLong c

/-- A 1 written to `CHn_VFLGCTL.CLEAR_NEXT`. -/
def State.requestClear (s : State) (c : Chn) : State :=
  s.modChan c fun ch => { ch with regs := { ch.regs with clearNext := true } }

def execClearNext (c : Chn) (s : State) : Host.Outcome State Fault Refusal :=
  s.onChan c fun s => s.requestClear c

end Sys2Proof.Machine
end

