-- ==== Sys2Proof/Machine/Clock.lean ====
section
/-! DEFINITION. One cycle of the compute clock (R10): what of the current cycle has not been commanded
yet happens, changes that fall due at its end take effect, and the next cycle begins. -/
namespace Sys2Proof.Machine

/-- The cell of a number in a channel. -/
def cellOf (c : Chn) (n : Nat) : CellId := ⟨c, Fin.ofNat 32 (n / 80), Fin.ofNat 80 n⟩

/-- The cells of a channel that hold anything. -/
def State.live (s : State) (c : Chn) : List CellId := (s.chan c).cells.map fun e => cellOf c e.1

/-! ### The start of a cycle -/

/-- Resets, block ends, releases, barrier releases and ends of IDLE that fall on this cycle. -/
def State.cycleStart (s : State) (c : Chn) : State :=
  let s := ((s.endReset c).endBlock c).releaseBlock c
  let s := s.modChan c fun ch => ch.barriers.foldl (fun ch g => ch.releaseGroup g.1 s.cy) ch
  (s.live c).foldl State.endIdle s

/-- Every slot of the bundle issued in this cycle that has not acted yet. -/
def State.runSlots (s : State) (k : CellId) : State :=
  let s := s.runOut k slMX unMX (fun _ => true) fun e l o => mxRun (fldN l.mx 0 4) e l o
  let s := s.runOut k slVX unVX (fun _ => true) fun _ l o => vxRun (fldN l.vx 0 6) l (vxWord l.vx) o
  let s := s.lrandSlot k
  let s := s.runOut k slLS unLS (fun _ => true) fun e l o => lsRun (lsOp l.ls) none e l o
  let s := s.runOut k slRT unRT (fun _ => true) routeRun
  s.runSlot k slCT (fun _ => true) fun s l => ctRun (ctOp l.ct) k s l

/-- Issue and act. -/
def State.cycleCells (s : State) (c : Chn) : State :=
  let s := (s.live c).foldl State.issue s
  (s.live c).foldl State.runSlots s

def State.cycleEdges (s : State) (c : Chn) : State :=
  (List.range (s.edgePlan c).length).foldl (fun s i => s.edgeRun c i) s

/-- Counter operations that arrive in this cycle. -/
def State.cycleSync (s : State) : State :=
  let now := (s.sync.ops.filter fun o => decide (o.at_ ≤ s.cy)).foldl (fun l o => insertNat l o.counter) []
  now.foldl State.arriveAt s

/-! ### Sums that no operation took (R132, R139) -/

/-- The bundle a fault of a cell's inputs names: the one issued in this cycle. -/
def Cell.now (c : Cell) (cy : Nat) : Latched :=
  match c.seq.cur with
  | some l => if l.at_ = cy then l else ⟨0, 0x1FF, true, 0, 0, 0, cy, 0⟩
  | none => ⟨0, 0x1FF, true, 0, 0, 0, cy, 0⟩

def State.straySum (s : State) (c : Chn) (b : SumOnLane) : State :=
  let k := cellOf c b.cell
  let cell := s.cell k
  if b.at_ = s.cy && !b.taken && !(strandOf cell.cfg).isOpen then
    s.fault (s.cellRec k (s.envOf k).off (cell.now s.cy)
      ⟨clShutter, shSTRAYSUM, unSumLane, w64 (boolBit cell.activeB + 16 * boolBit b.beat.parity),
        (cell.now s.cy).idx⟩)
  else s

/-! ### The end of a cycle (R68, R69, R145) -/

/-- Pops made in the cycle leave their queues. -/
def popMarked (qs : Vector (List QEntry) 8) (marks : BitVec 8) : Vector (List QEntry) 8 :=
  Vector.ofFn fun i => if bitAt marks i.val then (qs.getD i.val []).tail else qs.getD i.val []

def Cell.endPops (c : Cell) : Cell := { c with
  qin := popMarked c.qin c.qinPop
  qout := popMarked c.qout c.qoutPop
  qinPop := 0
  qoutPop := 0 }

/-- A push that finds its queue full (R69, R240). -/
def State.pushFull (s : State) (c : Chn) (d : Due) (queue : Nat) : State :=
  let k := cellOf c d.cell
  s.fault { s.cellRec k (s.envOf k).off ⟨0, d.addr, decide (d.page = 1), 0, 0, 0, s.cy, 0⟩
      ⟨clQueue, 2, d.unit_, w64 queue, d.idx⟩ with
    srctag := d.srctag }

/-- A change takes effect. -/
def State.takeDue (s : State) (c : Chn) (d : Due) : State :=
  let ch := s.chan c
  let x := ch.cell d.cell
  let put := fun (v : Cell) => s.setChan c (ch.setCell d.cell v)
  match d.effect with
  | .line a v => put { x with pad := Smap.put Coded.zero x.pad a v }
  | .half a hi v => put { x with
      pad := Smap.put Coded.zero x.pad a
        ((Smap.get Coded.zero x.pad a).setPart (if hi then 4 else 0) (v : Coded 4)) }
  | .tile r v => put { x with tiles := Smap.upsert x.tiles r v }
  | .mask n v => put { x with masks := x.masks.set! n v }
  | .flags v => put { x with flags := x.flags ||| v }
  | .index v => put { x with index := v }
  | .config v => put { x with cfg := v }
  | .swap =>
    let old := x.active
    put { (x.setBank x.activeB { old with written := 0 }) with activeB := !x.activeB }
  | .push q v =>
    if (x.qout.getD q []).length < 8 then
      let e : QEntry := ⟨v, x.pushCtr.getD q 0⟩
      let y : Cell := { x with
        qout := x.qout.set! q (x.qout.getD q [] ++ [e]), pushCtr := x.pushCtr.set! q (x.pushCtr.getD q 0 + 1) }
      (put y).ledger c ldPushed 1
    else s.pushFull c d (8 + q)
  | .arrive q v =>
    if (x.qin.getD q []).length < 8 then
      (put { x with qin := x.qin.set! q (x.qin.getD q [] ++ [v]) }).ledger c ldPushed 1
    else s.pushFull c d q

def State.takeDues (s : State) (c : Chn) : State :=
  let now := (s.chan c).dues.filter fun d => decide (d.at_ ≤ s.cy)
  let s := s.modChan c fun ch => { ch with dues := ch.dues.filter fun d => decide (s.cy < d.at_) }
  now.foldl (fun s d => s.takeDue c d) s

/-- The answer to an SRD reaches its register. -/
def Core.takeBack (k : Core) (cy : Nat) : Core :=
  match k.readBack with
  | some (d, v, at_) => if at_ ≤ cy then { k.setReg d.toNat v with readBack := none } else k
  | none => k

/-- Broadcasts issued at a gate land, once its step 6 has passed (R150, R224). Those issued during an
attempt that is replayed are held for the gate after the replay (R258). -/
def Chan.landNow (ch : Chan) (cy : Nat) : Chan :=
  if ch.core.bcasts.isEmpty || ch.gate.st = .running || ch.gate.phase = .closing || ch.gate.restarted ||
    decide (cy < ch.core.landAt)
  then ch
  else ch.landBcasts

/-- Links carry a beat for one cycle; counts of cycles go up (R215, R228). -/
def Chan.endCycle (ch : Chan) (cy : Nat) (powered : Bool) : Chan := { ch with
  cells := ch.cells.map fun e => (e.1, e.2.endPops)
  links := ch.links.filter fun b => decide (cy < b.at_)
  lends := ch.lends.filter fun b => decide (cy < b.at_)
  sums := ch.sums.filter fun b => decide (cy < b.at_)
  drainOut := ch.drainOut.filter fun b => decide (cy < b.1)
  edgeDone := []
  regs := { ch.regs with
    cycles := if powered then ch.regs.cycles + 1 else ch.regs.cycles
    gwCy := if ch.gate.block.isSome && ch.gate.st ≠ .running then ch.regs.gwCy + 1 else ch.regs.gwCy } }

def State.cycleEnd (s : State) (c : Chn) : State :=
  let s := (s.chan c).sums.foldl (fun s b => s.straySum c b) s
  let s := s.modChan c fun ch => ch.endCycle s.cy (bitAt s.pwr.domains (32 + c.val))
  let s := s.takeDues c
  s.modChan c fun ch => ({ ch with core := ch.core.takeBack s.cy } : Chan).landNow s.cy

/-- One compute cycle. -/
def State.cycle (s : State) : State :=
  let cs := s.channels
  let s := cs.foldl State.cycleStart s
  let s := cs.foldl State.cycleCells s
  let s := (cs.foldl State.cycleEdges s).cycleSync
  let s := (cs.foldl State.cycleEnd s).flushFaults
  { s with cy := s.cy + 1, ev := { s.ev with raised := s.ev.raised ++ s.ev.signals, signals := [] } }

end Sys2Proof.Machine
end

