-- ==== Sys2Proof/Machine/Recovery.lean ====
section
/-! DEFINITION. Recovery (R356 to R375): save points, the decision after a fault, rollback, spare
substitution, retirement with its fallback variant, and the end of slack tasks (R506). -/
namespace Sys2Proof.Machine

/-! ### Save slots (R362, R363) -/

def slotIndex (c : Chn) (b : Bool) : Nat := 2 * c.val + boolBit b

def State.slotOf (s : State) (c : Chn) (b : Bool) : Option Slot := s.recov.slots.getD (slotIndex c b) none

def State.setSlot (s : State) (c : Chn) (b : Bool) (v : Option Slot) : State :=
  { s with recov := { s.recov with slots := s.recov.slots.set! (slotIndex c b) v } }

/-- The slot that the next save point overwrites: A first, then the one that is not the newest. -/
def Chan.nextSlot (ch : Chan) : Bool :=
  if !ch.regs2.aValid && !ch.regs2.bValid then false else !ch.regs2.newestB

/-- A cell as a save point holds it: code pages and registers that gates void are left out. -/
def Cell.saved (c : Cell) : Cell := { c with
  page0 := []
  page1 := []
  tiles := []
  masks := Vector.replicate 8 (BitVec.allOnes 32)
  actBuf := none
  scaleBuf := none
  halfAt := none
  seq := Seq.reset }

/-! ### The save set (R364) -/

/-- The 4 KiB pages of a tensor's region. -/
def regionPages (t : TDesc) : List Nat := (List.range (tdRegion t)).map fun i => tdBase t / 4096 * 4096 + 4096 * i

/-- The HDM place of a save-set page; `none` when it is absent, mapped to the host or not writable. -/
def State.savePage (s : State) (va : Nat) : Option Nat :=
  match s.useEntry (Smap.get 0 s.mem.wtab (wtIndex va)) va true with
  | .ok false a => some a
  | _ => none

/-- The pages of the save set. -/
def State.saveSetPages (s : State) : List Nat := s.part.saveSet.flatMap fun h => regionPages (s.tensor h)

/-- Bytes of a save slot (R442). -/
def slotBytes : Nat := 4032 * 2 ^ 20

/-- Whether save-set copies fit a slot beside the channel's state, whose size is not stated. -/
def savesFit (n : Nat) : Bool := decide (n = 0 ∨ n + Config.channelPart ≤ slotBytes)

/-- The bytes of the save set with the poison they carry; `none` when a page is not there or the slot does
not hold them (R364, R442). -/
def State.copySaveSet (s : State) : Option (List ByteWrite) :=
  let pages := s.saveSetPages
  if !savesFit (4096 * pages.length) then none else
  pages.foldl (fun acc va =>
    match acc, s.savePage va with
    | some l, some a => some (l ++ (List.range 4096).map fun i =>
        s.mem.hdm.marked (a + i) (va + i))
    | _, _ => none) (some [])

/-- Copy the save set back; a page that is no longer there is left out. -/
def State.putSaveSet (s : State) (ws : List ByteWrite) : State :=
  s.partWrite 7 (ws.filterMap fun w => (s.savePage w.addr).map fun a => { w with addr := a })

/-! ### Writing a save point (R361 to R363) -/

/-- No message of the bound channels is in an outbound port or a hop. -/
def State.messagesOut (s : State) : Bool :=
  s.bound.any (fun c => !(s.port c.val).out.isEmpty) ||
    s.ports.toList.any fun p => match p.input with
      | some m => s.bound.any fun c => m.src.toNat = c.val
      | none => false

/-- The HDM offset of a slot: slot A of channel C on stack 2C, slot B on stack 2C + 1 (R442, R540). -/
def State.slotBase (s : State) (c : Chn) (b : Bool) : Nat :=
  slotIndex c b * stackBytes + s.cxl.carveSave.toNat

/-- The bytes of a slot's header. -/
def State.headerBytes (s : State) (c : Chn) (b : Bool) : List Nat := (List.range 64).map (s.slotBase c b + ·)

/-- A slot's header (R363): tide count, block sequence number, save point number, the first 32 bytes of
the image measurement, and the CRC-32C over bytes 0 to 59. -/
def Slot.header (v : Slot) : Nat :=
  withCrc 64 (v.tick.toNat + 2 ^ 64 * v.seq.toNat + 2 ^ 128 * v.number.toNat + 2 ^ 192 * fldN v.meas 0 256)

/-- What a channel writes into its slot. -/
def State.makeSlot (s : State) (c : Chn) (saveSet : List ByteWrite) : Slot :=
  let ch := s.chan c
  { complete := false
    number := s.recov.nextNumber
    tick := s.tide.count
    seq := ch.gate.seq
    meas := s.job.meas
    cells := ch.cells.map fun e => (e.1, e.2.saved)
    counts := s.sync.counts.filter fun e => decide (e.1 / 32768 = c.val)
    ledger := ch.ledger
    credits := ch.creditsOut
    inbox := (s.port c.val).inbox
    sq := ch.sq.toList.map StreamQ.saved
    dq := ch.dq.toList.map DrainQ.saved
    chain := ch.chain
    accum := s.job.accum
    seals := s.job.seals
    tallyChk := ch.regs2.tallyChk
    tallyUnchk := ch.regs2.tallyUnchk
    digRecs := ch.regs2.digRecs
    regs := ch.core.regs
    pc := ch.core.pc
    dmem := ch.core.dmem
    waiting := ch.core.wait
    started := ch.core.started
    saveSet := saveSet
    poisoned := false }

/-- The channel that keeps the save-set copies: the lowest bound one. -/
def State.keeper (s : State) : Option Chn := s.bound.head?

/-- The moment at which a save point can be written: every bound channel stands before the save block, its
broadcasts have landed, no message of theirs is under way, and no stack that the save touches retrains
(R361, R366, R511). -/
def State.saveReady (s : State) : Bool :=
  s.bound.all (fun d => s.saveWanted d && (s.chan d).core.bcasts.isEmpty &&
    !s.stackWait false (s.slotBase d (s.chan d).nextSlot)) &&
    !s.messagesOut && !(s.saveSetPages.filterMap s.savePage).any (s.stackWait true)

/-- The codewords of the save set are checked as they are copied (R355). -/
def State.checkSaveSet (s : State) : State :=
  s.checkHdm ((s.saveSetPages.filterMap s.savePage).flatMap fun a => (List.range 256).map fun i => a + 16 * i)

/-- A channel writes its part of a due save point. A channel that waits in step 8 for a save that this gate
will not see goes on with step 9. -/
def State.writeSave (s : State) (c : Chn) : State :=
  if (s.chan c).gate.st = .gate && (s.chan c).gate.phase = .saving && s.saveStuck c then s.stepSlack c
  else if s.saveWanted c && s.saveReady && !(s.chan c).gate.saved then
    let b := (s.chan c).nextSlot
    let s := if s.keeper = some c then s.checkSaveSet else s
    let clear := fun (s : State) => s.modChan c fun ch => { ch with
      gate := { ch.gate with saved := true }
      regs2 := if b then { ch.regs2 with bValid := false } else { ch.regs2 with aValid := false } }
    let mark := fun (s : State) => { s with recov := { s.recov with
      saveActive := true, written := insertNat s.recov.written c.val } }
    match (if s.keeper = some c then s.copySaveSet else some []) with
    | some ws => mark (clear (s.setSlot c b (some (s.makeSlot c ws))))
    | none =>
      let s : State := mark (clear (s.setSlot c b none))
      { s with recov := { s.recov with saveFailed := true } }
  else s

/-- A save that did not complete: the previous one stays in force, and the next save block retries. -/
def State.failSave (s : State) : State :=
  if s.recov.saveActive then
    (({ s with recov := { s.recov with saveActive := false, saveFailed := false, written := [] } } : State).noteSave
      none).raise evSaveFailed
  else s

/-- A channel's header is written, last of all: the slot is the newest (R363). -/
def State.sealSlot (s : State) (c : Chn) : State :=
  let b := (s.chan c).nextSlot
  match s.slotOf c b with
  | some v =>
    let s := s.partWrite 8 (plainWrites (s.slotBase c b) (bytesLE 64 v.header))
    (s.setSlot c b (some { v with complete := true })).modChan c fun ch => { ch with
      gate := { ch.gate with attemptPrev := ch.gate.attemptMax, attemptMax := 0 }
      regs2 := { ch.regs2 with
        newestB := b
        aValid := if b then ch.regs2.aValid else true
        bValid := if b then true else ch.regs2.bValid
        saveSeq := v.seq } }
  | none => s

/-- After the save: step 9 for a channel that waited in step 8; one that waits in step 11 stops there when
the SAVE asked for that. -/
def State.afterSave (s : State) (stop : Bool) (c : Chn) : State :=
  let s := s.modGate c fun g => { g with saved := false, stopNow := g.stopNow || stop }
  let g := (s.chan c).gate
  match g.st, g.phase with
  | .gate, .saving => s.stepSlack c
  | .gate, .opening => if stop then s.lateStopChan c else s
  | _, _ => s

/-- Every bound channel has written: the save point is complete, or has failed; then the next save block
tries again (R363). -/
def State.completeSave (s : State) : State :=
  if s.recov.saveActive && s.bound.all (fun c => s.recov.written.contains c.val) then
    if s.recov.saveFailed then
      let s := s.failSave
      let s := s.bound.foldl (fun s c => s.modGate c fun g => { g with saveMissed := true }) s
      s.bound.foldl (State.afterSave · false) s
    else
      let s := s.bound.foldl State.sealSlot s
      let stop := s.recov.saveStop
      let s := s.noteSave (some s.recov.nextNumber)
      let s : State := { s with
        flt := { s.flt with saveAt := s.tide.count }
        recov := { s.recov with
          saveDue := false, saveStop := false, saveTicks := 0, saveActive := false, written := []
          nextNumber := s.recov.nextNumber + 1, fellBack := [] } }
      s.bound.foldl (State.afterSave · stop) s
  else s

def execSaveComplete (s : State) : Host.Outcome State Fault Refusal := .next s.completeSave

/-- The cadence has passed since the last save point (R361). -/
def State.cadenceDue (s : State) : State :=
  if s.flt.cadence ≠ 0 && decide (s.flt.cadence.toNat ≤ s.recov.saveTicks) then
    { s with recov := { s.recov with saveDue := true } }
  else s

def execSaveDue (s : State) : Host.Outcome State Fault Refusal := .next s.cadenceDue

/-! ### Restoring (R343, R367, R369) -/

/-- Which slot is the newest, or the other. -/
def Chan.slotName (ch : Chan) (older : Bool) : Bool := if older then !ch.regs2.newestB else ch.regs2.newestB

/-- The header in HDM reads as the slot's own, corrected where it can be. -/
def State.headerReads (s : State) (c : Chn) (b : Bool) (v : Slot) : Bool :=
  let l := s.headerBytes c b
  !l.any s.mem.hdm.isPoison && decide (ofBytesLE (l.map s.mem.hdm.goodByte) = v.header)

/-- The slot a restore reads in a channel. -/
def State.restoreSlot (s : State) (older : Bool) (c : Chn) : Option Slot :=
  let b := (s.chan c).slotName older
  match s.slotOf c b with
  | some v =>
    if v.complete && !v.poisoned && v.meas = s.job.meas && s.headerReads c b v then some v else none
  | none => none

/-- A restore reads the headers: they are checked, and a poisoned one raises CODE in the management
complex and spoils its slot (R353, R354, R369). -/
def State.readHeader (s : State) (older : Bool) (c : Chn) : State :=
  let b := (s.chan c).slotName older
  match s.slotOf c b with
  | some v =>
    let l := s.headerBytes c b
    let bad := (blocksOf 16 l).findSome? fun i => (s.mem.hdm.cw i).check.2.bad.map fun e => (16 * i, e.2.2)
    let s := s.checkHdm l
    match v.complete && !v.poisoned, bad with
    | true, some (a, syn) =>
      (s.setSlot c b (some { v with poisoned := true })).fault (FaultRec.bare clCode 4 9 unMgmt (w64 a) (w64 syn))
    | _, _ => s
  | none => s

/-- Every bound channel holds the save point asked for, with one number. -/
def State.canRestore (s : State) (older : Bool) : Option W64 :=
  match s.bound with
  | [] => none
  | c :: cs =>
    match s.restoreSlot older c with
    | none => none
    | some v => if cs.all fun d => (s.restoreSlot older d).map Slot.number = some v.number
        then some v.number else none

/-- The core as the slot holds it; it waits in GATE again. -/
def Core.restored (k : Core) (v : Slot) (cy : Nat) : Core := { k with
  regs := v.regs
  pc := v.pc
  dmem := v.dmem
  started := v.started
  returned := false
  dead := false
  wait := v.waiting
  readyAt := cy + 1
  readBack := none
  waitTicks := 0
  sendTicks := 0
  waitLong := false
  stallRaised := false
  bcasts := [] }

/-- The chain after a restore: a seal made since the save point stands (R264). -/
def Chain.restored (live : Chain) (v : Slot) (seals : Nat) : Chain :=
  if v.seals = seals then { v.chain with ring := live.ring }
  else { live with
    parts := [], ringPos := v.chain.ringPos, pend := Pending.reset
    segChecked := 0, segUnchecked := 0, segRecords := 0 }

/-- The highest attempt count released since the save point that a restore uses. -/
def Gate.attemptsSince (g : Gate) (older : Bool) : Nat :=
  if older then max g.attemptMax g.attemptPrev else g.attemptMax

/-- The gate after a restore: before the block that follows the save point (R368). -/
def Gate.restored (g : Gate) (older : Bool) (v : Slot) (blocks : List BEntry) : Gate :=
  let idx := match v.waiting with
    | .gate i _ => i
    | _ => 0
  { g with
    halted := g.halted || (g.st = .stopped && g.stopCause = 1)
    st := .gate
    phase := .opening
    seq := v.seq
    rerunTo := g.highest
    floor := g.attemptsSince older + 1
    next := blocks[idx]?
    nextIdx := idx
    ready := false
    stopCause := 3
    stopNow := false
    faulted := false
    faults := []
    firsts := []
    parts := []
    checkedLanes := 0
    uncheckedLanes := 0
    interval := none
    replay := none
    restarted := false
    saved := false
    saveMissed := false
    openTicks := 0
    longSaid := false }

/-- The ledger after a restore: the saved counters, but CR_RETURNED also counts the credits of the beats
that the save point leaves out, less those of reads still under way (R301; DESIGN CHOICE, log 86). -/
def Slot.ledgerNow (v : Slot) (out : Nat) : Vector W64 18 :=
  v.ledger.set! (ldCrReturned - 1) (v.ledger.getD (ldCrReturned - 1) 0 + w64 v.credits - w64 out)

/-- Restore a channel from its slot: cells, counters, ledger, inbox, core, digest state and streams. -/
def State.restoreChan (s : State) (older : Bool) (c : Chn) (v : Slot) : State :=
  let blocks := s.part.blocks
  let s := s.clearSync c
  let s : State := { s with sync := { s.sync with
    counts := v.counts.foldl (fun m e => Smap.put 0 m e.1 e.2) s.sync.counts } }
  let s := s.modChan c fun ch =>
    { ch with
      cells := v.cells
      links := []
      sums := []
      dues := []
      drainOut := []
      lends := []
      barriers := ch.barriers.map fun b => (b.1, { b.2 with latched := [], releaseAt := none })
      trees := ch.trees.map fun t => (t.1, { t.2 with set_ := [], history := [] })
      core := ch.core.restored v s.cy
      gate := ch.gate.restored older v blocks
      ledger := v.ledgerNow ch.creditsOut
      resident := []
      chain := ch.chain.restored v s.job.seals
      regs2 := { ch.regs2 with
        tallyChk := v.tallyChk, tallyUnchk := v.tallyUnchk, digRecs := v.digRecs } }
  let s := s.modPort c.val fun p => { p with inbox := v.inbox, input := none, isOpen := true }
  s.reopen c v.sq v.dq

/-! ### Messages on their way (R301) -/

/-- Messages in flight toward the bound channels are absorbed and counted. -/
def State.absorbFlight (s : State) : State :=
  let dst := fun (m : Msg) => s.bound.find? fun c => m.dst.toNat = c.val
  let ins := s.bound.filterMap fun c => (s.port c.val).input.map fun _ => c
  let outs := s.ports.toList.flatMap fun p => p.out.filterMap dst
  let s : State := { s with ports := s.ports.map fun p =>
    ({ p with out := p.out.filter fun m => (dst m).isNone } : MsgPort) }
  (ins ++ outs).foldl (fun s c => s.modChan c fun ch =>
    { ch with regs2 := { ch.regs2 with rollDisc := ch.regs2.rollDisc + 1 } }) s

/-! ### Spare substitution (R102, R103, R370) -/

/-- The healthy out-of-service column nearest to `p`; the one to the east when both are as near. -/
def Chan.spareFor (ch : Chan) (p : Nat) : Option Nat :=
  let far := fun (s : Nat) => if p ≤ s then s - p else p - s
  let a := ch.regs.out0.toNat
  let b := ch.regs.out1.toNat
  match ch.regs.out0Failed, ch.regs.out1Failed with
  | true, true => none
  | false, true => some a
  | true, false => some b
  | false, false => some (if far a < far b then a else b)

/-- The column map after `p` has given way to `sp`. -/
def ChRegs.substitute (r : ChRegs) (p sp : Nat) : ChRegs :=
  let keep : Nat × Bool := if r.out0.toNat = sp then (r.out1.toNat, r.out1Failed) else (r.out0.toNat, r.out0Failed)
  let lo : Nat × Bool := if p < keep.1 then (p, true) else keep
  let hi : Nat × Bool := if p < keep.1 then keep else (p, true)
  { r with
    out0 := BitVec.ofNat 7 lo.1, out0Failed := lo.2
    out1 := BitVec.ofNat 7 hi.1, out1Failed := hi.2
    substCount := satInc r.substCount }

/-- A spare map as flash keeps it: the low 20 bits of `CHn_COLMAP`. -/
def ChRegs.colmap (r : ChRegs) : BitVec 20 :=
  BitVec.ofNat 20 (r.out0.toNat + 2 ^ 7 * boolBit r.out0Failed + 2 ^ 8 * r.out1.toNat +
    2 ^ 15 * boolBit r.out1Failed + 2 ^ 16 * r.substCount.toNat)

/-- A group of codewords checked as it moves: what is stored, corrections, poisonings, and whether it
holds an uncorrectable one. -/
def movedWords {k : Nat} (c : Coded k) : Coded k × Nat × Nat × Bool :=
  let r := Coded.check c
  (r.1, r.2.ce, r.2.ue, r.2.bad.isSome)

structure Moved where
  ce : Nat
  ue : Nat
  bad : Bool
  deriving DecidableEq, Repr

def Moved.add (m : Moved) (r : Nat × Nat × Bool) : Moved := ⟨m.ce + r.1, m.ue + r.2.1, m.bad || r.2.2⟩

/-- Every codeword that a cell holds, checked and corrected (R103, R352). -/
def Cell.moved (c : Cell) : Cell × Moved :=
  let pad := c.pad.map fun e => (e.1, movedWords e.2)
  let rows := fun (b : Bank) => b.rows.map fun v => movedWords v
  let ra := rows c.bankA
  let rb := rows c.bankB
  let sa := movedWords c.bankA.scale
  let sb := movedWords c.bankB.scale
  let q := fun (qs : Vector (List QEntry) 8) => qs.map fun l => l.map fun e => (e.tag, movedWords e.beat)
  let qi := q c.qin
  let qo := q c.qout
  let pg := fun (p : Smap Bundle) => p.map fun e => (e.1, movedWords e.2)
  let p0 := pg c.page0
  let p1 := pg c.page1
  let back := fun (qs : Vector (List (BitVec 3 × Beat × Nat × Nat × Bool)) 8) =>
    qs.map fun l => l.map fun e => (⟨e.2.1, e.1⟩ : QEntry)
  let counts := pad.map (·.2.2) ++ ra.toList.map (·.2) ++ rb.toList.map (·.2) ++ [sa.2, sb.2] ++
    (qi.toList ++ qo.toList).flatMap (fun l => l.map (·.2.2)) ++ p0.map (·.2.2) ++ p1.map (·.2.2)
  ({ c with
    pad := pad.map fun e => (e.1, e.2.1)
    bankA := { c.bankA with rows := ra.map (·.1), scale := sa.1 }
    bankB := { c.bankB with rows := rb.map (·.1), scale := sb.1 }
    qin := back qi
    qout := back qo
    page0 := p0.map fun e => (e.1, e.2.1)
    page1 := p1.map fun e => (e.1, e.2.1) }, counts.foldl Moved.add ⟨0, 0, false⟩)

/-- The cells on the columns that move are checked on the way; whether one of column `p` is bad. -/
def State.moveCells (s : State) (c : Chn) (p sp : Nat) : State × Bool :=
  (s.chan c).cells.foldl (fun acc e =>
    let at_ := (s.chan c).pcol (e.1 % 80)
    if min p sp ≤ at_ && at_ ≤ max p sp then
      let m := e.2.moved
      let k : CellId := ⟨c, Fin.ofNat 32 (e.1 / 80), Fin.ofNat 80 e.1⟩
      ((acc.1.setCell k m.1).countCell k m.2.ce m.2.ue, acc.2 || (m.2.bad && decide (at_ = p)))
    else acc) (s, false)

/-- Take column `p` out of service; `none` when no healthy spare remains. The second part says that
the column's state held an uncorrectable codeword. -/
def State.substitute (s : State) (c : Chn) (p : Nat) : Option (State × Bool) :=
  match (s.chan c).spareFor p with
  | none => none
  | some sp =>
    let x := s.moveCells c p sp
    let s := x.1.modChan c fun ch => { ch with
      regs := ch.regs.substitute p sp
      regs2 := { ch.regs2 with ceCol := Smap.erase ch.regs2.ceCol p } }
    let s : State := { s with
      sec := { s.sec with spareMaps := s.sec.spareMaps.set c (s.chan c).regs.colmap }
      recov := { s.recov with subDue := s.recov.subDue.filter fun e => decide (e ≠ (c.val, p)) } }
    some (s.raise (evChan c 2), x.2)

/-! ### Retirement and fallback variants (R371 to R374) -/

def bits4 (l : List Chn) : BitVec 4 := l.foldl (fun m c => setBit m c.val true) 0

def countBits (m : BitVec 4) : Nat := ((List.range 4).filter fun i => bitAt m i).length

/-- The variant for surviving channels: the one whose set equals them, else the largest set inside,
the lowest number among equals. -/
def selectVariant (i : Image) (surviving : BitVec 4) : Option Nat :=
  let all := (List.range i.variants.length).map fun n => (n + 1, (partOf i (n + 1)).chset)
  match all.find? fun v => v.2 = surviving with
  | some v => some v.1
  | none =>
    (all.filter fun v => v.2 &&& surviving = v.2 && v.2 ≠ 0).foldl (fun best v =>
      match best with
      | some b => if countBits (partOf i b).chset < countBits v.2 then some v.1 else best
      | none => some v.1) none

/-- Bind a variant: its set is loaded, other enabled channels that are not retired are idle, its tensor
descriptors are written, and save points become invalid (R516, R517). An active job goes on (DEDUCED,
log 87). -/
def State.bindVariant (s : State) (v : Nat) : State :=
  let s := s.dropSaves
  let s : State := { s with img := { s.img with variant := v } }
  let part := s.part
  let s : State := { s with mem := { s.mem with
    tdt := part.tensorDescs.foldl (fun m e => Smap.put 0 m e.1 e.2) s.mem.tdt } }
  s.channels.foldl (fun s c =>
    if (s.chan c).gate.st = .retired then s
    else if bitAt part.chset c.val then s.loadChan c
    else
      let s := s.loadChan c
      (s.modGate c fun g => { g with st := .noImage }).closePort c.val) s

/-- Retire a channel: crossings, counters and port follow from its state (R372). -/
def State.retireChan (s : State) (c : Chn) : State :=
  let s := ((s.clearSync c).closePort c.val).noteGone c true
  let s := (s.cancelAll c).modChan c fun ch => { ch with
    core := { ch.core with started := false, wait := .none }
    gate := { ch.gate with st := .retired, phase := .none, ready := false }
    links := []
    sums := []
    dues := []
    lends := []
    drainOut := [] }
  let s : State := { s with
    job := { s.job with retired := true }
    img := { s.img with retiredSet := setBit s.img.retiredSet c.val true } }
  s.raise (evChan c 1)

/-- One entry of a restore map. -/
def State.restoreEntry (s : State) (slots : Chn → Option Slot) (e : W128) : State :=
  let src := fldN e 32 32
  let dst := fldN e 64 32
  let count := fldN e 96 32
  let d := chnOf (fldN e 16 8)
  match slots (chnOf (fldN e 8 8)) with
  | none => s
  | some v =>
    match fldN e 0 8 with
    | 1 => s.modChan d fun ch => { ch with cells := (List.range count).foldl (fun m i =>
        let own := Smap.get Cell.reset m (dst + i)
        let c := Smap.get Cell.reset v.cells (src + i)
        Smap.upsert m (dst + i) { c with page0 := own.page0, page1 := own.page1 }) ch.cells }
    | 2 => s.modChan d fun ch => { ch with cells := (List.range count).foldl (fun m i =>
        let own := Smap.get Cell.reset m ((dst + i) / 1024)
        let line := Smap.get Coded.zero (Smap.get Cell.reset v.cells ((src + i) / 1024)).pad ((src + i) % 1024)
        Smap.upsert m ((dst + i) / 1024) { own with
          pad := Smap.put Coded.zero own.pad ((dst + i) % 1024) line }) ch.cells }
    | 3 =>
      let counts := (List.range count).foldl (fun m i =>
        Smap.put 0 m (dst + i) (Smap.get 0 v.counts (src + i))) s.sync.counts
      { s with sync := { s.sync with counts := counts } }
    | 4 =>
      let len := s.lenOf d
      (List.range count).foldl (fun s i => s.modSq d (dst + i) fun q =>
        StreamQ.settle { q with cur := none, pend := v.sq.getD (src + i) [] } len) s
    | _ => s

/-- A surviving channel continues at the variant's block for the save block: its program starts, as
if GATE had named that block (log). -/
def State.resumeVariant (s : State) (slots : Chn → Option Slot) (c : Chn) : State :=
  let part := s.part
  let v := slots c
  let old := match v with
    | some v => (match v.waiting with
      | .gate i _ => i
      | _ => 0)
    | none => 0
  let idx := (Smap.find? part.resume old).getD 0
  let s := s.modChan c fun ch => { ch with
    core := { ch.core with started := true, wait := .gate idx 0 }
    gate := { ch.gate with next := part.blocks[idx]?, nextIdx := idx, seq := (v.map Slot.seq).getD 0 }
    ledger := Vector.ofFn fun i => (Smap.get [] (part.ledgerStart.get c) idx).getD i.val 0
    chain := match v with
      | some v => ch.chain.restored v s.job.seals
      | none => ch.chain
    regs2 := match v with
      | some v => { ch.regs2 with tallyChk := v.tallyChk, tallyUnchk := v.tallyUnchk, digRecs := v.digRecs }
      | none => ch.regs2 }
  s.enterOpening c

/-- The opcode that asks for a task. -/
def taskOpcode : SlackTask → Nat
  | .firmware => 0x0051
  | .retrain _ => 0x0053
  | .calibrate _ => 0x0052
  | .substitute _ _ => 0x0043

/-- A journal entry of a command that firmware issues on its own account: SEQ 0, ORIGIN INTERNAL
(R412). Its parameter digest is not stated: a free value. -/
def State.ownCmd (s : State) (opcode kind status reason accept done : Nat) : State :=
  let free := (Config.freeValue s.draw).toNat
  ({ s with draw := s.draw + 1 } : State).journal (jrec 0 opcode 2 kind status reason accept done 0 free)

/-- Firmware accepts a retirement on its own account, when it has decided for one. -/
def State.ownRetire (s : State) (c : Option Nat) : State :=
  match c with
  | some _ =>
    let s := s.ownCmd opRETIRE 0 0 0 s.tide.count.toNat (2 ^ 64 - 1)
    { s with recov := { s.recov with own := some s.tide.count } }
  | none => s

/-- A retirement of firmware's own completes. -/
def State.ownDone (s : State) (status reason : Nat) : State :=
  match s.recov.own with
  | some a =>
    let s := s.ownCmd opRETIRE 1 status reason a.toNat s.tide.count.toNat
    { s with recov := { s.recov with own := none } }
  | none => s

/-- No variant fits, or nothing can be restored: every bound channel is held, and only a reset or an
image load goes on (R369, R373). -/
def State.recoveryFailed (s : State) : State :=
  let s := s.bound.foldl (fun s c => if (s.chan c).gate.st = .held then s else s.holdChan c) s
  let s := s.bound.foldl (fun s c => s.modGate c fun g => { g with faults := [] }) s
  let s := s.mapCmds fun m =>
    if m.open_ && (m.opcode = opRESUME || m.opcode = opRETIRE) then m.fail stFAULTED rsRECOVERY else m
  let s := s.ownDone stFAULTED rsRECOVERY
  { s with
    flt := { s.flt with recovering := false }
    recov := { s.recov with rolling := .none } }.raise evRecoveryFailed

/-- Apply a variant from the save point: bind it, map the saved state, resume (R372 steps 3 to 5). -/
def State.applyVariant (s : State) (v : Nat) (slots : Chn → Option Slot) : State :=
  let accum := (s.keeper.bind slots).map Slot.accum
  let s := s.bindVariant v
  let s := s.part.restoreMap.foldl (fun s e => s.restoreEntry slots e) s
  let s : State := { s with job := { s.job with accum := accum.getD s.job.accum } }
  let s := s.bound.foldl (fun s c => s.resumeVariant slots c) s
  let s := s.mapCmds fun m =>
    if m.open_ && m.opcode = opRETIRE then
      { m with memo := w64 (16 * (bits4 s.bound).toNat)
               result := resSet (resOne 32 1 v) 33 1 (bits4 s.bound).toNat }
    else m
  let s := s.ownDone stOK 0
  { s with
    flt := { s.flt with recovering := false }
    recov := { s.recov with rolling := .none } }

/-- The channels that a variant can run on: enabled, and not retired. -/
def State.survivors (s : State) : List Chn := s.channels.filter fun d => (s.chan d).gate.st ≠ .retired

/-- Retire `c` and go on with the variant that R373 selects. -/
def State.retire (s : State) (c : Chn) : State :=
  let slots := fun (d : Chn) => s.restoreSlot false d
  let surviving := bits4 (s.survivors.filter fun d => d ≠ c)
  let ws := match s.keeper.bind slots with
    | some v => v.saveSet
    | none => []
  match s.img.image.bind fun i => selectVariant i surviving, s.canRestore false with
  | some v, some _ => ((s.retireChan c).applyVariant v slots).putSaveSet ws
  | _, _ => (s.retireChan c).recoveryFailed

/-! ### Rollback (R367 to R369) -/

/-- A bound channel is where a rollback can act on it: stopped, held, loaded, or waiting in step 11. -/
def Chan.canRoll (ch : Chan) : Bool :=
  ch.gate.inReset.isNone && match ch.gate.st, ch.gate.phase with
  | .stopped, _ => true
  | .held, _ => true
  | .loaded, _ => true
  | .gate, .waitGate => true
  | .gate, .opening => true
  | _, _ => false

/-- Substitutions that poisoning made due, done inside the rollback (R370) and journalled as firmware's own
(R412); the channel of one that found no spare, when firmware may retire it (R371). -/
def State.rollSubs (s : State) : State × Option Chn :=
  if s.flt.autoSubst then
    s.recov.subDue.foldl (fun acc e =>
      let c := chnOf e.1
      let op := taskOpcode (.substitute c e.2)
      let now := acc.1.tide.count.toNat
      let s := acc.1.ownCmd op 0 0 0 now (2 ^ 64 - 1)
      match s.substitute c e.2 with
      | some x => (x.1.ownCmd op 1 stOK 0 now now, acc.2)
      | none =>
        (({ s with recov := { s.recov with subDue := s.recov.subDue.erase e } } : State).ownCmd op 1 stABORTED
            rsNOSPARE now now,
          if acc.2.isNone && s.flt.autoRetire then some c else acc.2)) (s, none)
  else (s, none)

/-- The channel goes on before the block after the save point; a window that is due is taken first
(R510). -/
def State.rollOn (s : State) (c : Chn) : State :=
  if s.slackDue c then (s.modGate c fun g => { g with phase := .slack }).enterSlack c
  else if (s.chan c).gate.halted then s.stopChan c 1
  else s.enterOpening c

/-- Restore every bound channel from its slot and resume; a gate opens only once the save set has been
copied back (R367). -/
def State.restoreAll (s : State) (older : Bool) (slots : Chn → Option Slot) : State :=
  let keep := s.keeper.bind slots
  let s := s.bound.foldl (fun s c => match slots c with
    | some v => s.restoreChan older c v
    | none => s) s
  let s : State := match keep with
    | some v => { s with job := { s.job with accum := v.accum } }.putSaveSet v.saveSet
    | none => s
  s.bound.foldl State.rollOn s

/-- Read the headers of the save point that a restore uses, and use it when they are good. -/
def State.tryRestore (s : State) (older : Bool) : State × Option W64 :=
  let s := (s.bound.foldl (State.readHeader · older) s).flushFaults
  (s, s.canRestore older)

/-- Go on from a save point. -/
def State.rollTo (s : State) (older : Bool) (n : W64) : State :=
  let b := (s.chan (s.keeper.getD 0)).slotName older
  let s := s.restoreAll older (s.restoreSlot older)
  let s := s.bound.foldl (fun s c => s.modChan c fun ch => { ch with
    regs2 := { ch.regs2 with rollbacks := satInc ch.regs2.rollbacks } }) s
  { s with
    flt := { s.flt with recovering := false }
    recov := { s.recov with rolling := .none, lastSlotB := b, lastNumber := n }
    job := { s.job with rollback := true } }.raise evRollback

/-- Steps 2 to 6 of a rollback. -/
def State.rollBack (s : State) (older : Bool) (retire : Option Chn) : State :=
  let s := s.bound.foldl State.noteStop s.failSave
  let s := s.bound.foldl (fun s c => s.cancelAll c) s
  let s := s.absorbFlight
  let x := s.rollSubs
  let s := x.1
  let s := s.bound.foldl (fun s c => s.closePort c.val) s
  match retire.or x.2 with
  | some c => (if retire.isNone then s.ownRetire (some c.val) else s).retire c
  | none =>
    match s.tryRestore older with
    | (s, some n) => s.rollTo older n
    | (s, none) =>
      if older then s.recoveryFailed
      else
        match s.tryRestore true with
        | (s, some n) => s.rollTo true n
        | (s, none) => s.recoveryFailed

def State.runRollback (s : State) : State :=
  match s.recov.rolling with
  | .none => s
  | .rollback older retire =>
    let s := s.flushFaults
    if !s.svc.mgmtSwitch && s.bound.all (fun c => (s.chan c).canRoll) then
      s.rollBack older (retire.map chnOf)
    else s

/-! ### The decision (R359, R360, R371) -/

/-- The faults of a held channel's block, over its set. -/
def State.blockFaults (s : State) (c : Chn) : List (Nat × Nat × Nat × W64) :=
  match (s.chan c).gate.block with
  | some b => (s.setOf b).flatMap fun d => (s.chan d).gate.faults
  | none => (s.chan c).gate.faults

/-- Begin a rollback: the other bound channels stop at their next gates, and the journal says so. -/
def State.beginRollback (s : State) (older : Bool) (retire : Option Nat) (n : W64)
    (faults : List (Nat × Nat × Nat × W64)) : State :=
  let newest := s.bound.foldl (fun m c => max m (((s.chan c).gate.highest.map BitVec.toNat).getD 0)) 0
  let s := s.bound.foldl (fun s c =>
    if (s.chan c).gate.st = .running || (s.chan c).gate.st = .gate then
      s.modGate c fun g => { g with stopNow := true }
    else s) s
  let s : State := { s with
    flt := { s.flt with recovering := true }
    recov := { s.recov with rolling := .rollback older retire, lastFaults := faults } }
  s.internal 0x8002 ((bits4 s.bound).toNat + 2 ^ 8 * n.toNat) newest

/-- The rollbacks that count toward a channel's retirement. -/
def State.inWindow (s : State) (c : Chn) : Nat := (s.recov.rollTicks.filter fun e => e.1 = c.val).length

/-- RETIRE_LIMIT; 0 is taken as 1. -/
def FltRegs.limit (f : FltRegs) : Nat := max 1 f.retireLimit.toNat

/-- Channels in which a TALLY or CODE fault of the block lies. -/
def blamed (faults : List (Nat × Nat × Nat × W64)) (chans : List Chn) : List Chn :=
  chans.filter fun c => faults.any fun f =>
    (f.1 = clTally || f.1 = clCode) && decide (f.2.2.1 / 2 ^ 8 % 256 = c.val)

/-- A replayed attempt of the block faulted (R259). -/
def Gate.wasReplay (g : Gate) : Bool :=
  g.attempt = 1 && match g.rerunTo with
    | some t => decide (t.toNat < g.seq.toNat)
    | none => true

/-- A reproduced fault stops every bound channel until a command acts (R360); one that waits in step 11
stands at a gate and stops there. -/
def State.reproduced (s : State) : State :=
  let s := s.bound.foldl (fun s c => if (s.chan c).gate.waits then s.stopChan c 3 else s) s
  let s := s.bound.foldl (fun s c => s.modChan c fun ch => { ch with
    gate := { ch.gate with
      faults := [], stopNow := ch.gate.stopNow || ch.gate.st = .running || ch.gate.st = .gate }
    regs2 := { ch.regs2 with reproduced := true } }) s
  s.raise evFaultReproduced

/-- The number of the older save point that a reproduced poisoned fault may fall back to. -/
def State.olderNumber (s : State) : Option W64 :=
  let older := fun (c : Chn) => match s.slotOf c (!s.recov.lastSlotB) with
    | some v => if v.complete && v.meas = s.job.meas then some v.number else none
    | none => none
  match s.bound with
  | [] => none
  | c :: cs =>
    match older c with
    | some n => if (cs.all fun d => older d = some n) && decide (n.toNat < s.recov.lastNumber.toNat) then some n
        else none
    | none => none

/-- A rollback for faults that are not reproduced: it counts toward retirement. -/
def State.ordinaryRollback (s : State) (c : Chn) (faults : List (Nat × Nat × Nat × W64)) : State :=
  let bl := blamed faults s.bound
  let s : State := { s with recov := { s.recov with
    rollTicks := s.recov.rollTicks ++ bl.map fun d => (d.val, 0) } }
  let s := if (s.chan c).gate.wasReplay && faults.any (fun f => f.1 = clTally) then
      match (s.chan c).gate.block with
      | some b => (s.setOf b).foldl (fun s d => s.modChan d fun ch => { ch with
          regs2 := { ch.regs2 with replayFails := satInc ch.regs2.replayFails } }) s
      | none => s
    else s
  let retire := if s.flt.autoRetire then bl.find? fun d => decide (s.flt.limit ≤ s.inWindow d) else none
  (s.ownRetire (retire.map Fin.val)).beginRollback false (retire.map Fin.val) ((s.canRestore false).getD 0) faults

/-- An action whose bit is clear is left to the driver (R359). -/
def State.waitDriver (s : State) : State :=
  (s.bound.foldl (fun s d => s.modGate d fun g => { g with faults := [] }) s).raise evRecoveryWait

/-- Firmware decides for a held channel: replay was decided at the gate; here reproduced faults,
rollback, or a wait for the driver. -/
def State.decide_ (s : State) (c : Chn) : State :=
  let s := s.flushFaults
  let faults := s.blockFaults c
  if (s.chan c).gate.st ≠ .held || faults.isEmpty || s.flt.recovering || s.svc.mgmtSwitch ||
      s.cxl.quiescing || s.cxl.quiesced then s
  else
    let again := faults.filter fun f => s.recov.lastFaults.contains f
    if again.isEmpty then if s.flt.autoRollback then s.ordinaryRollback c faults else s.waitDriver
    else if again.any (fun f => f.1 = clCode && f.2.1 = 4) && !s.recov.fellBack.contains s.recov.lastNumber &&
        s.recov.fellBack.isEmpty then
      match s.olderNumber with
      | some n =>
        if !s.flt.autoRollback then s.waitDriver else
        let s : State := { s with recov := { s.recov with fellBack := s.recov.fellBack ++ [s.recov.lastNumber] } }
        let newest := s.keeper.map fun k => (s.chan k).regs2.newestB
        s.beginRollback (decide (newest = some s.recov.lastSlotB)) none n faults
      | none => s.reproduced
    else s.reproduced

def execRecoveryDecision (c : Chn) (s : State) : Host.Outcome State Fault Refusal :=
  s.onChan c fun s => s.decide_ c

/-! ### Windows of counts (R370, R371) -/

/-- The correction window passes: column and stack counts of the window restart. -/
def State.ceExpire (s : State) : State :=
  if s.flt.ceWin.toNat ≤ s.recov.ceTicks then
    let s := s.channels.foldl (fun s c => s.modChan c fun ch =>
      { ch with regs2 := { ch.regs2 with ceCol := [] } }) s
    { s with
      mem := { s.mem with msd := s.mem.msd.map fun (d : MsdRegs) => { d with ceWindow := 0 } }
      recov := { s.recov with ceTicks := 0 } }
  else s

def execCeWindowExpiry (s : State) : Host.Outcome State Fault Refusal := .next s.ceExpire

/-- Rollbacks older than `FLT_RETWIN` stop counting toward a channel's retirement. -/
def State.retireExpire (s : State) (c : Chn) : State :=
  { s with recov := { s.recov with rollTicks := s.recov.rollTicks.filter fun e =>
    !(e.1 = c.val && decide (s.flt.retWin.toNat ≤ e.2)) } }

def execRetirementWindowExpiry (c : Chn) (s : State) : Host.Outcome State Fault Refusal :=
  s.onChan c fun s => s.retireExpire c

/-- A write of `FLT_CONS`: one below its value or above `FLT_PROD` is ignored (R358). -/
def State.writeFltCons (s : State) (w : W64) : State :=
  if s.flt.cons.toNat ≤ w.toNat && w.toNat ≤ s.flt.prod.toNat then { s with flt := { s.flt with cons := w } } else s

def execFltConsWrite (w : W64) (s : State) : Host.Outcome State Fault Refusal := .next (s.writeFltCons w)

/-! ### The end of a slack task (R506) -/

/-- The window closes when its span is over and its tasks have ended. -/
def State.closeWindow (s : State) : State :=
  if s.svc.openMark.isSome && s.svc.spanOver && s.windowTasks.isEmpty then
    { s with svc := { s.svc with openMark := none, spanOver := false } }
  else s

/-- A started task of the open window. -/
def State.runningTask (s : State) (t : SlackTask) : Option Task :=
  s.windowTasks.find? fun u => u.task = t && u.started

/-- A task's work is done, with its outcome. -/
def State.taskDone (s : State) (t : SlackTask) (status reason : Nat) (result : BitVec 192) : State :=
  match s.runningTask t with
  | none => s
  | some u => { s with svc := { s.svc with tasks := s.svc.tasks.map fun x =>
      if x = u then { x with outcome := some (status, reason, result) } else x } }

/-- A task whose work is done ends: its commands have their outcome, and channels that need no
further task leave. -/
def State.endTask (s : State) (t : SlackTask) : State :=
  match s.runningTask t with
  | none => s
  | some u =>
    match u.outcome with
    | none => s
    | some (status, reason, result) =>
      let s : State := { s with svc := { s.svc with tasks := s.svc.tasks.filter fun x => decide (x ≠ u) } }
      let s := u.cmds.foldl (fun s q =>
        if q = 0 then s.ownCmd (taskOpcode t) 1 status reason u.accept.toNat s.tide.count.toNat
        else s.finishCmd q status reason result) s
      s.slackMove.closeWindow

/-- A substitution task moves its column (R103, R370). Without a healthy spare the channel is retired
when firmware may do so; a bad codeword in the column is followed by a rollback. -/
def State.substituteTask (s : State) (c : Chn) (p : Nat) : State :=
  match s.runningTask (.substitute c p) with
  | none => s
  | some u =>
    if u.outcome.isSome then s
    else
      match s.substitute c p with
      | some (s, bad) =>
        let s := s.taskDone (.substitute c p) stOK 0 (resOne 32 4 (s.chan c).regs.colmap.toNat)
        if bad && !s.flt.recovering then s.beginRollback false none ((s.canRestore false).getD 0) [] else s
      | none =>
        let s := s.taskDone (.substitute c p) stABORTED rsNOSPARE resNone
        if s.flt.autoRetire && !s.flt.recovering then
          (s.ownRetire (some c.val)).beginRollback false (some c.val) ((s.canRestore false).getD 0) []
        else s

def execColumnSubstitution (c : Chn) (p : Nat) (s : State) : Host.Outcome State Fault Refusal :=
  s.onChan c fun s => s.substituteTask c p

end Sys2Proof.Machine
end

