-- ==== Sys2Proof/Machine/Power.lean ====
section
/-! DEFINITION. Order slots (R50, R51), tasks and windows of service (R504 to R513), and clocks, power and
temperature (R457 to R477). -/
namespace Sys2Proof.Machine

/-! ### Order slots -/

def otHALT : Byte := 1
def otFREQ : Byte := 2
def otSLACK : Byte := 3
def otHANDOVER : Byte := 4

def State.orderAt (s : State) (n : Nat) : Option Order := s.tide.orders.getD n none

def State.setOrder (s : State) (n : Nat) (o : Option Order) : State :=
  { s with tide := { s.tide with orders := s.tide.orders.set! n o } }

/-- The first free `TIDE_ORDn` slot. -/
def State.freeOrder (s : State) : Option Nat := (List.range 4).find? fun n => (s.orderAt n).isNone

def State.freeOrders (s : State) : Nat := ((List.range 4).filter fun n => (s.orderAt n).isNone).length

/-- The earliest mark that R50 allows: 64 tk after the end of the second frame that carries an order
accepted now. -/
def State.earliestMark (s : State) : W64 := w64 ((s.tide.count.toNat / 4096 + 1) * 4096 + 8192 + 64)

/-- A mark that has passed acts at the next tick boundary. -/
def State.localMark (s : State) (m : W64) : W64 :=
  if m.toNat ≤ s.tide.count.toNat then s.tide.count + 1 else m

/-- Store an order of the part's own in a free slot, under an identifier of its own. -/
def State.storeOrder (s : State) (typ : Byte) (mark arg : W64) : Option State :=
  s.freeOrder.map fun n =>
    let s := s.setOrder n (some ⟨typ, s.tide.addr, s.line.nextId ||| 0x80000000, mark, arg⟩)
    { s with line := { s.line with nextId := s.line.nextId + 1 } }

/-! ### The step in force and its rail (R465, R466) -/

/-- Microvolts of the compute rail at a step. -/
def railOf (step : Nat) : Nat := 600000 + 12500 * step

/-- The lowest of the planned step and the ceilings. -/
def Power.wanted (p : Power) : Nat := min p.planned.toNat (min p.tceil.toNat p.pceil.toNat)

/-- The highest step that is known to come, under the ceilings. -/
def State.knownStep (s : State) : Nat :=
  (List.range 4).foldl (fun m n => match s.orderAt n with
    | some o => if o.typ = otFREQ then max m (min (fldN o.arg 0 5) (min s.pwr.tceil.toNat s.pwr.pceil.toNat)) else m
    | none => m) (max s.pwr.step.toNat s.pwr.wanted)

/-- One tick of the regulator: 2 mV toward the rail that is wanted. -/
def State.slewRail (s : State) : State :=
  let want := railOf s.knownStep
  let now := s.pwr.railUv
  let next := if now < want then min want (now + 2000) else max want (now - 2000)
  { s with pwr := { s.pwr with railUv := next } }

/-- At a tick boundary the lowest of the three values comes into force; a rise waits for its rail. -/
def Power.takeStep (p : Power) : Power :=
  let w := p.wanted
  if w ≤ p.step.toNat then { p with step := BitVec.ofNat 5 w, stepDue := false }
  else if railOf w ≤ p.railUv then
    { p with step := BitVec.ofNat 5 w, stepDue := false,
             stepLate := if p.stepDue then satInc p.stepLate else p.stepLate }
  else { p with stepDue := true }

def State.takeStep (s : State) : State := { s with pwr := s.pwr.takeStep }

/-- The rail has arrived for a rise that waited. -/
def State.arriveRail (s : State) : State := if s.pwr.stepDue then s.takeStep else s

def execRailArrive (s : State) : Host.Outcome State Fault Refusal := .next s.arriveRail

/-! ### Stretching (R462 to R464) -/

/-- Domain of a region (R457, R471). -/
def regionDomain (r : Nat) : Nat := if r = 36 then 40 else if r % 9 = 8 then 32 + r / 9 else 8 * (r / 9) + r % 9

/-- KMAX: 0 is taken as 1, and values above 8 as 8. -/
def Power.kmaxUsed (p : Power) : Nat := if p.kmax = 0 then 1 else min p.kmax.toNat 8

/-- One root period: the stretch changes, and is counted. DESIGN CHOICE (log 100): the picoseconds that a
period adds are rounded down. -/
def Power.droop (p : Power) (firing : BitVec 37) : Power :=
  let live := (List.range 37).foldl (fun (m : BitVec 37) r =>
    if bitAt firing r && bitAt p.domains (regionDomain r) then setBit m r true else m) 0
  let k := if live ≠ 0 then min p.kmaxUsed (p.k + 2) else p.k - 1
  { p with
    k := k
    droopSrc := p.droopSrc ||| live
    stretch := if k = 0 then p.stretch else p.stretch + 1
    stretchPs := p.stretchPs + w64 (2000 * k / (16 + p.step.toNat)) }

def execDroopStretch (firing : BitVec 37) (s : State) : Host.Outcome State Fault Refusal :=
  .next { s with pwr := s.pwr.droop firing }

/-! ### Temperatures and ceilings (R468, R469) -/

def maxT (a b : W16) : W16 := if a.toInt < b.toInt then b else a

/-- Whether a sensor's unit is on the part: VT8-3 lacks channel 3, stacks and dies 6 and 7. -/
def State.hasSensor (s : State) (i : Nat) : Bool :=
  s.four || !(27 ≤ i && i < 36 || i = 43 || i = 44 || i = 51 || i = 52)

/-- A reading of every sensor. -/
def State.readSensors (s : State) (temps : List W16) : State :=
  let ts : Vector W16 54 := Vector.ofFn fun i => if s.hasSensor i.val then temps.getD i.val 0 else 0
  let hot := fun (lo hi : Nat) (m : W16) => (List.range (hi - lo)).foldl (fun m i =>
    if s.hasSensor (lo + i) then maxT m (ts.getD (lo + i) 0) else m) m
  { s with pwr := { s.pwr with
    temps := ts, hotC := hot 0 37 s.pwr.hotC, hotS := hot 37 53 s.pwr.hotS } }

def execSensorRead (temps : List W16) (s : State) : Host.Outcome State Fault Refusal :=
  .next (s.readSensors temps)

/-- Limits as they are used, in 1/16 °C. -/
def Power.tLimit (p : Power) : Int := 16 * (min p.tstep.toNat 105 : Nat)
def Power.sLimit (p : Power) : Int := 16 * (min p.sstep.toNat 100 : Nat)
def Power.hystUsed (p : Power) : Int := 16 * (max 1 p.hyst.toNat : Nat)
def Power.capUsed (p : Power) : Nat := max 700 (min p.cap.toNat 1850)

def lower5 (x : BitVec 5) (n : Nat) : BitVec 5 := BitVec.ofNat 5 (x.toNat - n)
def raise5 (x : BitVec 5) : BitVec 5 := BitVec.ofNat 5 (min 16 (x.toNat + 1))

/-- The thermal ceiling over the interval just ended. -/
def Power.thermal (p : Power) : Power :=
  let c := p.hotC.toInt
  let st := p.hotS.toInt
  let p := { p with hotC := 0x8000, hotS := 0x8000 }
  if p.tLimit + 80 ≤ c then
    { p with tceil := lower5 p.tceil 2, tdown := if p.tceil = 0 then p.tdown else satInc p.tdown, coolRun := 0 }
  else if p.tLimit ≤ c || p.sLimit ≤ st then
    { p with tceil := lower5 p.tceil 1, tdown := if p.tceil = 0 then p.tdown else satInc p.tdown, coolRun := 0 }
  else if c < p.tLimit - p.hystUsed && st < p.sLimit - p.hystUsed then
    if 15 ≤ p.coolRun then { p with tceil := raise5 p.tceil, coolRun := 0 } else { p with coolRun := p.coolRun + 1 }
  else { p with coolRun := 0 }

/-- The power ceiling, from the interval's mean in milliwatts. -/
def Power.capping (p : Power) (mean : Nat) : Power :=
  if p.capUsed * 1000 < mean then
    { p with pceil := lower5 p.pceil 1, pdown := if p.pceil = 0 then p.pdown else satInc p.pdown, capRun := 0 }
  else if mean + p.headroom.toNat * 1000 ≤ p.capUsed * 1000 then
    if 15 ≤ p.capRun then { p with pceil := raise5 p.pceil, capRun := 0 } else { p with capRun := p.capRun + 1 }
  else { p with capRun := 0 }

/-- Firmware evaluates both ceilings at a multiple of 1,000 of the count, once at each. -/
def State.evaluate (s : State) (mean : W32) : State :=
  if s.tide.count.toNat % 1000 = 0 && s.pwr.evalAt ≠ some s.tide.count then
    let p := s.pwr.thermal.capping mean.toNat
    { s with pwr := { p with evalAt := some s.tide.count, avg := mean, peak := if p.peak.toNat < mean.toNat then mean else p.peak } }
  else s

def execCeilingEvaluate (mean : W32) (s : State) : Host.Outcome State Fault Refusal := .next (s.evaluate mean)

/-! ### Attaching tasks to windows (R507, R508) -/

/-- The earliest stored window whose mark is still ahead. -/
def State.nextWindow (s : State) : Option W64 :=
  (List.range 4).foldl (fun best n => match s.orderAt n with
    | some o =>
      if o.typ = otSLACK && decide (s.tide.count.toNat < o.mark.toNat) then
        match best with
        | some (b : W64) => if o.mark.toNat < b.toNat then some o.mark else best
        | none => some o.mark
      else best
    | none => best) none

/-- DEFLEN; 0 is taken as 1. -/
def Service.defLenUsed (v : Service) : W64 := if v.defLen = 0 then 1 else v.defLen.setWidth 64

def State.addTask (s : State) (t : Task) : State := { s with svc := { s.svc with tasks := s.svc.tasks ++ [t] } }

/-- The waiting list holds one entry for each distinct task. -/
def listTask (l : List Task) (t : Task) : List Task :=
  if l.any fun u => u.task = t.task then
    l.map fun u => if u.task = t.task then { u with cmds := u.cmds ++ t.cmds } else u
  else l ++ [t]

/-- Attach a task to the next window; without one firmware stores one at mark `at_`, or lists the
task when no slot is free. -/
def State.attachAt (s : State) (t : Task) (at_ : W64) : State :=
  match s.storeOrder otSLACK at_ s.svc.defLenUsed with
  | some s => s.addTask { t with mark := at_ }
  | none => { s with svc := { s.svc with listed := listTask s.svc.listed t } }

def State.attachTask (s : State) (t : Task) : State :=
  match s.nextWindow with
  | some m => s.addTask { t with mark := m }
  | none => s.attachAt t s.earliestMark

def State.newTask (s : State) (t : SlackTask) (cmd : W64) : Task :=
  ⟨t, 0, false, [cmd], s.tide.count, none⟩

/-- A slot has freed: firmware stores one window for every listed task. -/
def State.releaseListed (s : State) : State :=
  match s.svc.listed with
  | [] => s
  | l =>
    match s.storeOrder otSLACK s.earliestMark s.svc.defLenUsed with
    | some s1 => { s1 with svc := { s1.svc with
        listed := [], tasks := s1.svc.tasks ++ l.map fun t => { t with mark := s.earliestMark } } }
    | none => s

/-- A task of firmware's own is journalled as a command of ORIGIN INTERNAL (R412). -/
def State.ownTask (s : State) (t : SlackTask) (at_ : Option W64) : State :=
  let s := s.ownCmd (taskOpcode t) 0 0 0 s.tide.count.toNat (2 ^ 64 - 1)
  match at_ with
  | some m => s.attachAt (s.newTask t 0) m
  | none => s.attachTask (s.newTask t 0)

/-- Whether a task is attached or listed. -/
def State.hasTask (s : State) (t : SlackTask) : Bool :=
  s.svc.tasks.any (fun u => u.task = t) || s.svc.listed.any fun u => u.task = t

/-- Columns whose corrections in the window pass the limit (R370). -/
def State.columnsDue (s : State) : List (Chn × Nat) :=
  s.channels.flatMap fun c => ((s.chan c).regs2.ceCol.filter fun e =>
    decide (s.flt.colLimit.toNat < e.2.toNat)).map fun e => (c, e.1)

/-- What firmware asks of the next window by itself: columns over their limit, and stacks due for
retraining (R307, R370). -/
def State.firmwareTasks (s : State) : State :=
  let s := if s.flt.autoSubst then s.columnsDue.foldl (fun s e =>
      if s.hasTask (.substitute e.1 e.2) then s else s.ownTask (.substitute e.1 e.2) none) s
    else s
  (List.finRange 8).foldl (fun s n =>
    if (s.msd n.val).retrainDue && !s.hasTask (.retrain n) then s.ownTask (.retrain n) none else s) s

/-! ### Windows open and end (R504, R506) -/

/-- A window opens: channels that run no block enter at once; memory tasks start. -/
def State.openWindow (s : State) (mark len : W64) : State :=
  let move := fun (t : Task) => if some t.mark = s.svc.openMark then { t with mark := mark } else t
  let s : State := { s with svc := { s.svc with
    openMark := some mark, openEnd := mark + len, spanOver := false, tasks := s.svc.tasks.map move } }
  let s := s.channels.foldl (fun s c => s.modGate c fun g => { g with slackPassed := g.st = .retired }) s
  let s := s.channels.foldl (fun s c =>
    match (s.chan c).gate.st with
    | .running => s
    | .gate => s
    | .retired => s
    | _ => s.enterSlack c) s
  s.slackMove

/-- Tasks that did not start within the span go to the next window. -/
def State.deferTasks (s : State) : State :=
  let late := s.windowTasks.filter fun t => !t.started
  let s : State := { s with svc := { s.svc with
    tasks := s.svc.tasks.filter fun t => !late.contains t
    deferred := satAdd s.svc.deferred late.length } }
  late.foldl State.attachTask s

def State.endSpan (s : State) : State :=
  if s.svc.openMark.isSome && !s.svc.spanOver && decide (s.svc.openEnd.toNat ≤ s.tide.count.toNat) then
    let s : State := { s with svc := { s.svc with spanOver := true } }
    s.deferTasks.slackMove.closeWindow
  else s

def execSlackSpanEnd (s : State) : Host.Outcome State Fault Refusal := .next s.endSpan

/-! ### The tasks (R460, R461, R511 to R513) -/

/-- Regions of the grade (R457). -/
def State.hasRegion (s : State) (r : Nat) : Bool := s.four || !(27 ≤ r && r < 36)

def State.region (s : State) (r : Nat) : Region := s.pwr.regions.getD r ⟨0, false, false, 0⟩

def State.setRegion (s : State) (r : Nat) (v : Region) : State :=
  { s with pwr := { s.pwr with regions := s.pwr.regions.set! r v } }

/-- A region is calibrated to a margin. -/
def State.calibrated (s : State) (r : Nat) (margin : Byte) : State :=
  s.setRegion r ⟨margin, decide (margin.toNat < s.pwr.warn.toNat), false, satInc (s.region r).cals⟩

/-- A recalibration ends; calibration leaves at least 40 %. -/
def State.calibrateTask (s : State) (r : Fin 37) (margin : Byte) : State :=
  match s.runningTask (.calibrate r) with
  | none => s
  | some u =>
    if u.outcome.isSome then s
    else (s.calibrated r.val (if margin.toNat < 40 then 40 else margin)).taskDone (.calibrate r) stOK 0 resNone

def execPhaseCalibration (r : Fin 37) (margin : Byte) (s : State) : Host.Outcome State Fault Refusal :=
  .next (s.calibrateTask r margin)

/-- A task that waits for a later window, or for a slot, is moved to a window at `m` when a slot for one is
free. -/
def State.hurry (s : State) (t : SlackTask) (m : W64) : State :=
  let later := fun (u : Task) => u.task = t && !u.started && decide (m.toNat < u.mark.toNat)
  if s.svc.tasks.any later || s.svc.listed.any (fun u => u.task = t) then
    match s.storeOrder otSLACK m s.svc.defLenUsed with
    | some s =>
      let moved := (s.svc.listed.filter fun u => u.task = t).map fun u => { u with mark := m }
      { s with svc := { s.svc with
          tasks := (s.svc.tasks.map fun u => if later u then { u with mark := m } else u) ++ moved
          listed := s.svc.listed.filter fun u => u.task ≠ t } }
    | none => s
  else s

/-- Drift changes a region's margin; below WARN firmware asks for a calibration, below HOLD at the
next tick boundary. A region that the grade lacks has no margin. -/
def State.drift (s : State) (r : Fin 37) (margin : Byte) : State :=
  let warn := decide (margin.toNat < s.pwr.warn.toNat)
  let hold := decide (margin.toNat < s.pwr.holdMargin.toNat)
  if !s.hasRegion r.val then s
  else
    let s := s.setRegion r.val { s.region r.val with margin := margin, drift := warn }
    if s.hasTask (.calibrate r) then if hold then s.hurry (.calibrate r) (s.tide.count + 1) else s
    else if hold then s.ownTask (.calibrate r) (some (s.tide.count + 1))
    else if warn then s.ownTask (.calibrate r) none
    else s

def execClockDrift (r : Fin 37) (margin : Byte) (s : State) : Host.Outcome State Fault Refusal :=
  .next (s.drift r margin)

/-- A retraining ends, or has failed its three attempts; accesses that waited go on. -/
def State.retrainTask (s : State) (n : Fin 8) (ok : Bool) : State :=
  match s.runningTask (.retrain n) with
  | none => s
  | some u =>
    if u.outcome.isSome then s
    else
      let s := s.modMsd n.val fun d => { d with
        retraining := false, retrainDue := if ok then false else d.retrainDue }
      let s := if ok then s.taskDone (.retrain n) stOK 0 resNone
        else s.taskDone (.retrain n) stFAULTED rsSTATE (resOne 32 1 3)
      s.landReady.endFlush

def execHbmRetrainTask (n : Fin 8) (ok : Bool) (s : State) : Host.Outcome State Fault Refusal :=
  s.onMsd n fun s => s.retrainTask n ok

/-- The alias seed from CDI0 and the measurements in force (R484). -/
def State.deriveAlias (s : State) : State :=
  let m := fun (n : Nat) => bytesLE 64 ((s.measurement n).getD 0).toNat
  let cdi := hmacSha512 s.sec.cdi0 (m 3 ++ m 17)
  let seed := hmacSha512 cdi (asciiBytes "VT8-ALIAS") ++ hmacSha512 cdi (asciiBytes "VT8-ALIAS-2")
  { s with sec := { s.sec with aliasSeed := seed } }

/-- The management complex runs the staged firmware: the activation record is written, measurements 3
and 17 and the alias key change, ports open again, and each channel's units switch at its next gate,
or at once when it runs no block (R480, R484, R512, R513). -/
def State.switchMgmt (s : State) : State :=
  match s.runningTask .firmware with
  | none => s
  | some u =>
    if u.outcome.isSome then s
    else
      let slot := !s.activeSlot
      let seq := match s.newestRecord with
        | some r => r.1 + 1
        | none => 1
      let bs := s.slotBytes slot
      let s : State := { s with
        sec := { s.sec with
          records := s.sec.records ++ [(seq, slot)]
          mMgmt := fwMeasure bs 2
          fwVer := fwVersion bs
          staged := false
          activating := false
          advance := fwAdvance bs
          svn := fwSvn bs }
        job := { s.job with fwChanged := true }
        svc := { s.svc with mgmtSwitch := false } }
      let s : State := { s with sec := { s.sec with mCfg := s.fwConfig } }
      let s := s.deriveAlias
      let s : State := { s with sec := { s.sec with spdm := { s.sec.spdm with
        sessions := [], resynch := s.sec.spdm.resynch ++ s.sec.spdm.sessions.map Prod.fst } } }
      let s := [4, 5, 6, 7].foldl (fun s i => s.openPort i) s
      let s := ([0, 1, 2, 3] : List Chn).foldl (fun s c =>
        match s.hasChan c, (s.chan c).gate.st with
        | true, .running => s.modChan c fun ch => { ch with regs2 := { ch.regs2 with fwDue := true } }
        | true, .gate => s.modChan c fun ch => { ch with regs2 := { ch.regs2 with fwDue := true } }
        | _, _ => s.switchUnits c) s
      s.taskDone .firmware stOK 0 (resOne 32 8 s.sec.fwVer.toNat)

def execMgmtFwSwitch (s : State) : Host.Outcome State Fault Refusal := .next s.switchMgmt

/-! ### Power domains of a retired channel (R472, R473) -/

/-- The domains of a channel. -/
def chanDomains (c : Chn) : List Nat := (List.range 8).map (8 * c.val + ·) ++ [32 + c.val, 36 + c.val]

/-- The seam domain is off while both channels of either half are off or fused off. -/
def State.seamDomain (s : State) : Bool :=
  let gone := fun (c : Chn) => bitAt s.pwr.chOff c.val || !s.hasChan c
  !(gone 0 && gone 1) && !(gone 2 && gone 3)

/-- A retired channel is switched off: its state is lost but for its column map and the event latches of its
core, which lie in domain 41 (R432, R471); reads on their way come back and are dropped (R332). -/
def State.chanOff (s : State) (c : Chn) : State :=
  let ch := s.chan c
  if ch.gate.st = .retired && !bitAt s.pwr.chOff c.val then
    let s := s.modChan c fun ch => { Chan.reset with
      gate := { Gate.reset with st := .retired }
      core := { Core.reset with evin := ch.core.evin }
      sq := ch.sq.map fun q => q.emptied 0
      regs := { ChRegs.reset with
        out0 := ch.regs.out0, out0Failed := ch.regs.out0Failed, out1 := ch.regs.out1
        out1Failed := ch.regs.out1Failed, substCount := ch.regs.substCount } }
    let s : State := { s with pwr := { s.pwr with
      chOff := setBit s.pwr.chOff c.val true
      domains := (chanDomains c).foldl (fun m d => setBit m d false) s.pwr.domains } }
    { s with pwr := { s.pwr with domains := setBit s.pwr.domains 40 (s.seamDomain && bitAt s.pwr.domains 40) } }
  else s

/-- A write of `PWR_CHOFF`: on a channel that takes a window it acts when the window has ended. -/
def State.writeChOff (s : State) (mask : BitVec 4) : State :=
  s.channels.foldl (fun s c =>
    if !bitAt mask c.val then s
    else if (s.chan c).regs2.slackEntered then
      { s with pwr := { s.pwr with chOffDue := setBit s.pwr.chOffDue c.val true } }
    else s.chanOff c) s

def execChannelPowerOff (mask : BitVec 4) (s : State) : Host.Outcome State Fault Refusal :=
  .next (s.writeChOff mask)

/-- Switch-offs that waited for a window to end. -/
def State.dueChOff (s : State) : State :=
  s.channels.foldl (fun s c =>
    if bitAt s.pwr.chOffDue c.val && !(s.chan c).regs2.slackEntered then
      ({ s with pwr := { s.pwr with chOffDue := setBit s.pwr.chOffDue c.val false } } : State).chanOff c
    else s) s

end Sys2Proof.Machine
end

