-- ==== Sys2Proof/Machine/Link.lean ====
section
/-! DEFINITION. The CXL link (R437 to R439) and the orderly removal (R452, R453). -/
namespace Sys2Proof.Machine

/-! ### Width and rate -/

/-- Width and half for the lanes that failed: x16, x8 on the healthy half, or 0 (R438). -/
def widthFor (bad : W16) : Nat × Bool :=
  if bad = 0 then (16, false)
  else if fld bad 0 8 = 0#8 then (8, false)
  else if fld bad 8 8 = 0#8 then (8, true)
  else (0, false)

/-- A narrowed link widens only at PERST_N or by a full retrain. -/
def Cxl.trained (x : Cxl) (bad : W16) (slow : Bool) : Cxl :=
  let w := if x.narrow && !x.retrainFull && bad = 0 then (8, false) else widthFor bad
  let up := decide (w.1 ≠ 0)
  { x with
    laneBad := bad
    width := BitVec.ofNat 5 w.1
    half := w.2
    narrow := decide (w.1 ≠ 16) && (up || x.narrow)
    linked := x.linked || up
    speed := if up then (if slow then 5 else 6) else 0
    up := up
    retrainFull := false
    downTicks := 0 }

/-- The link trains once the boot ROM has ended (R447), or trains again. -/
def State.trainLink (s : State) (bad : W16) (slow : Bool) : State :=
  if s.mdl.regulators && s.mdl.perstN && !s.sec.recovery && decide (3 ≤ s.svc.phase.toNat) &&
      (!s.cxl.up || s.cxl.retrainFull) then
    let x := s.cxl.trained bad slow
    let s : State := { s with cxl := x, host := if x.up then s.host.send else s.host }
    State.pumpReplies s s.cmd.held.length
  else s

def execLinkUp (laneBad : W16) (slow : Bool) (s : State) : Host.Outcome State Fault Refusal :=
  .next (s.trainLink laneBad slow)

/-- A recovery is counted; DEG_LIMIT of them in one second narrow the link to x8. -/
def Cxl.recover (x : Cxl) : Cxl :=
  let ticks := (x.recovTicks ++ [0]).filter fun t => decide (t < 1000000)
  let x := { x with recoveries := satInc x.recoveries, recovTicks := ticks }
  if x.degLimit ≠ 0 && decide (x.degLimit.toNat ≤ ticks.length) && x.width = 16 then
    { x with width := 8, half := decide (fld x.laneBad 0 8 ≠ 0#8), narrow := true }
  else x

def execLinkRecovery (s : State) : Host.Outcome State Fault Refusal :=
  .next (if s.cxl.up then { s with cxl := s.cxl.recover } else s)

/-- Link loss clears nothing on the part but the link (R439). -/
def Cxl.lose (x : Cxl) : Cxl := { x with up := false, width := 0, speed := 0, half := false, downTicks := 0 }

def execLinkLoss (s : State) : Host.Outcome State Fault Refusal :=
  .next (if s.cxl.up then { s with cxl := s.cxl.lose } else s)

/-- Every channel is to stop at its next gate, with STOP_CAUSE 3. -/
def State.stopAll (s : State) : State :=
  s.channels.foldl (fun s c => s.modGate c fun g => match g.st with
    | .running => { g with stopNow := true }
    | .gate => { g with stopNow := true }
    | _ => g) s

/-- The link has been down for DOWN_LIMIT ticks. -/
def State.downLimitPassed (s : State) : Bool := !s.cxl.up && decide (s.cxl.downLimit.toNat ≤ s.cxl.downTicks)

def execLinkDownLimit (s : State) : Host.Outcome State Fault Refusal :=
  .next (if s.downLimitPassed && !s.cxl.linkLost then
      ({ s with cxl := { s.cxl with linkLost := true } } : State).stopAll
    else s)

/-- A 1 written to RETRAIN_FULL: it reads 1 until the link has trained again. -/
def execRetrainFull (s : State) : Host.Outcome State Fault Refusal :=
  .next { s with cxl := { s.cxl with retrainFull := true } }

/-! ### Quiesce (R452, R453) -/

/-- Nothing that a quiesce lets complete first is in progress. -/
def State.serviceIdle (s : State) : Bool :=
  s.recov.rolling = .none && !s.flt.recovering && !s.svc.mgmtSwitch && !s.windowTasks.any Task.started

/-- A drain queue has nothing left to write: its beats are out, or its stream is halted (R333). -/
def DrainQ.still (x : DrainQ) : Bool :=
  x.beats.isEmpty || x.halted || match x.cur with
    | some st => st.dead
    | none => false

/-- Steps 2 to 4 are done: channels stand, commands are complete and answered, the journal is in HBM
and no write of the part is out. -/
def State.drained (s : State) : Bool :=
  s.serviceIdle &&
    s.channels.all (fun c => (s.chan c).gate.st ≠ .running && (s.chan c).gate.st ≠ .gate) &&
    s.cmd.accepted.isEmpty && s.cmd.held.isEmpty && s.cmd.jHbmHead = s.cmd.jHead &&
    s.mem.heldWrites.isEmpty && s.host.posted.isEmpty &&
    s.channels.all fun c => (s.chan c).dq.toList.all DrainQ.still

/-- Replies and DMA that wait for a lost link are dropped (R453). -/
def State.dropHeld (s : State) : State :=
  let s := s.channels.foldl (fun s c => (List.range 32).foldl (fun s q =>
    if s.beatToHost c q then s.modDq c q fun x => { x with beats := [] } else s) s) s
  { s with cmd := { s.cmd with held := [] }, host := { s.host with posted := [] } }

/-- Every line in the snoop filters. -/
def State.snoopLines (s : State) : List Nat :=
  s.mem.msd.toList.flatMap fun d => d.snoop.flatMap fun e => e.2

/-- A quiesce goes on as far as it can. -/
def State.quiesceMove (s : State) : State :=
  if !s.cxl.quiescing then s
  else
    let s := if s.serviceIdle then s.stopAll else s
    let s := if s.downLimitPassed then s.dropHeld else s
    if !s.drained then s
    else
      let lines := s.snoopLines
      if !lines.isEmpty then lines.foldl State.issueSnoop s
      else
        { s with
          tide := { s.tide with driving := false }
          mdl := { s.mdl with rtr := true }
          cxl := { s.cxl with quiescing := false, quiesced := true } }

/-- A 1 written to `CXLP_HPCTL.QUIESCE`; a second one is ignored. -/
def State.beginQuiesce (s : State) : State :=
  if s.cxl.quiescing || s.cxl.quiesced then s
  else
    ({ s with cxl := { s.cxl with quiescing := true }, cmd := { s.cmd with examine := false } } : State).quiesceMove

def execQuiesce (s : State) : Host.Outcome State Fault Refusal := .next s.beginQuiesce

end Sys2Proof.Machine
end

