-- ==== Sys2Proof/Machine/Tide.lean ====
section
/-! DEFINITION. The tide (R35 to R64): ticks as they arrive, frames and orders, loss, lock and hold, the
manager's side, orders at their marks, and all that a tick boundary counts (R37). -/
namespace Sys2Proof.Machine

def rlSELF : BitVec 2 := 0
def rlWORKER : BitVec 2 := 1
def rlMANAGER : BitVec 2 := 2

/-! ### The tick word (R46, R47) -/

def wordIndex (w : W32) : Nat := fldN w 0 12

/-- CHECK is the XOR of the seven nibbles below it. -/
def wordCheck (w : W32) : Bool :=
  ((List.range 8).foldl (fun (x : BitVec 4) i => x ^^^ fld w (4 * i) 4) 0) = 0

def offsetOk (o : Int) : Bool := decide (-250 ≤ o) && decide (o ≤ 250)

/-- The word of a good tick; `count` is the receiver's own expected count. -/
def State.judge (s : State) (slot : Option TickSlot) (count : W64) : Option W32 :=
  match slot with
  | none => none
  | some t =>
    let ok :=
      if s.tide.locked then
        offsetOk t.offset && wordCheck t.word && decide (wordIndex t.word = count.toNat % 4096)
      else if s.line.prevMissing then wordCheck t.word
      else offsetOk t.offset && wordCheck t.word &&
        decide (s.line.lastIndex.map (fun i => (i + 1) % 4096) = some (wordIndex t.word))
    if ok then some t.word else none

/-- What the receiver keeps of one tick. -/
def TideLine.saw (l : TideLine) (good : Option W32) : TideLine :=
  match good with
  | some w => { l with missRun := 0, sinceGood := 0, lastIndex := some (wordIndex w), prevMissing := false }
  | none => { l with missRun := l.missRun + 1, sinceGood := min 16 (l.sinceGood + 1), prevMissing := true }

/-- `TIDE_STAT.LINE_ACTIVE`. -/
def TideLine.active (l : TideLine) : Bool := decide (l.sinceGood < 16)

/-! ### Frames (R48) -/

/-- The two frame bytes of a tick word. -/
def wordBytes (w : W32) : List Byte := [fld w 12 8, fld w 20 8]

/-- Gather a frame's payload: a frame begins at INDEX 0, and after its 64 ticks it is ready or bad.
The second part says that a frame is discarded. DESIGN CHOICE (log 79): a receiver that is not locked
and missed a frame's INDEX 0 counts that frame as discarded when a good INDEX 63 shows its end. -/
def TideLine.gather (l : TideLine) (good : Option W32) (locked : Bool) (count : W64) : TideLine × Bool :=
  let idx := good.map wordIndex
  if idx = some 0 then
    ({ l with frame := (good.map wordBytes).getD [], frameGood := true, frameCount := some count,
              sinceFirst := 0, frameReady := false }, !l.frame.isEmpty)
  else if l.frame.isEmpty then
    (l, if locked then decide (count.toNat % 4096 = 63) else decide (idx = some 63))
  else
    let pos := l.sinceFirst + 1
    let ok := l.frameGood && decide (idx = some pos)
    let frame := if ok then l.frame ++ (good.map wordBytes).getD [] else l.frame
    if pos < 63 then ({ l with frame := frame, frameGood := ok, sinceFirst := pos }, false)
    else if ok then ({ l with frame := frame, sinceFirst := pos, frameReady := true }, false)
    else ({ l with frame := [], frameGood := false, sinceFirst := pos }, true)

def TideLine.dropFrame (l : TideLine) : TideLine :=
  { l with frame := [], frameGood := false, frameReady := false }

def frameField (f : List Byte) (a n : Nat) : Nat := ofBytesLE ((f.drop a).take n)

/-- Order slot `i` of a frame (R49). -/
def frameOrder (f : List Byte) (i : Nat) : Order :=
  let a := 16 + 24 * i
  ⟨BitVec.ofNat 8 (frameField f a 1), BitVec.ofNat 8 (frameField f (a + 1) 1),
    BitVec.ofNat 32 (frameField f (a + 4) 4), w64 (frameField f (a + 8) 8), w64 (frameField f (a + 16) 8)⟩

/-- The frame is one that a receiver accepts. -/
def State.goodFrame (s : State) : Bool :=
  let f := s.line.frame
  let count := frameField f 0 8
  decide (f.length = 128) && crcGood 128 (ofBytesLE f) && decide (count % 4096 = 0) &&
    (!s.tide.locked || decide (s.line.frameCount = some (w64 count)))

/-- An order that R49 has the part ignore. -/
def Order.bad (o : Order) : Bool :=
  decide (4 < o.typ.toNat) || (o.typ = otFREQ && decide (16 < fldN o.arg 0 5)) ||
    (o.typ = otSLACK && decide (fldN o.arg 0 16 = 0)) || (o.typ = otHANDOVER && decide (fldN o.arg 0 8 = 0xFF))

/-- An order slot holds the ORDER_ID. -/
def State.holdsOrder (s : State) (id : W32) : Bool := (List.range 4).any fun n => (s.orderAt n).any fun o => o.id = id

/-- One order of an accepted frame whose first tick has count `first` (R49, R51). -/
def State.takeOrder (s : State) (first : Nat) (o : Order) : State :=
  if o.typ = 0 then s
  else if o.bad then { s with tide := { s.tide with ordBad := satInc s.tide.ordBad } }
  else if o.target ≠ s.tide.addr && o.target ≠ 0xFF then s
  else if s.holdsOrder o.id then s
  else if o.mark.toNat < first + 63 + 64 then
    { s with tide := { s.tide with ordLate := satInc s.tide.ordLate, lateOrder := true } }.raise evOrderLate
  else
    match s.freeOrder with
    | some n => s.setOrder n (some o)
    | none => s

/-- A worker knows the manager's pending orders from its frames (R62). -/
def State.learn (s : State) (f : List Byte) : State :=
  if s.tide.role = rlWORKER then
    let os : Vector (Option Order) 4 := Vector.ofFn fun i =>
      let o := frameOrder f i.val
      if o.typ = 0 || o.bad then none else some o
    let top := os.toList.foldl (fun m o => match o with
      | some o => max m (o.id.toNat + 1)
      | none => m) s.line.nextId.toNat
    { s with line := { s.line with
      sending := os, placed := Vector.replicate 4 0, nextId := BitVec.ofNat 32 top } }
  else s

def State.takeOrders (s : State) (f : List Byte) (first : Nat) : State :=
  (List.range 4).foldl (fun s i => s.takeOrder first (frameOrder f i)) (s.learn f)

/-! ### Lock, loss and hold (R56 to R60) -/

/-- An INTERNAL entry of type TIDE (R415). -/
def State.tideEntry (s : State) (loss relock : Bool) : State :=
  s.internal 0x8003 (boolBit loss + 2 * boolBit relock + 4 * s.tide.role.toNat) s.tide.count.toNat

/-- The receiver locks, its count going up to `v`; a hold ends at the next frame boundary. -/
def State.lockAt_ (s : State) (first : Nat) (v : W64) : State :=
  let s : State := { s with
    tide := { s.tide with count := v, locked := true, loss := false, ahead := false, lockAt := v }
    line := { s.line with
      neverLocked := false, missRun := 0
      releaseAt := if s.tide.hold then some (w64 (first + 4096)) else none } }
  if s.tide.hold then (s.tideEntry false true).raise evTideRelock else s

/-- A frame is accepted or discarded whole. A promoted device takes none before its jump (R36, R61). -/
def State.takeFrame (s : State) : State :=
  if !s.line.frameReady then s
  else if s.line.resume.isSome then { s with line := s.line.dropFrame }
  else
    let f := s.line.frame
    let ok := s.goodFrame
    let first := frameField f 0 8
    let v := w64 (first + s.line.sinceFirst)
    let s : State := { s with line := s.line.dropFrame }
    if !ok then { s with tide := { s.tide with frameBad := satInc s.tide.frameBad } }
    else if s.tide.locked then s.takeOrders f first
    else if v.toNat < s.tide.count.toNat then
      if s.tide.ahead then s else { s with tide := { s.tide with ahead := true } }.raise evTideAhead
    else (s.lockAt_ first v).takeOrders f first

def execTideFrame (s : State) : Host.Outcome State Fault Refusal := .next s.takeFrame

def isHandover : Option Order → Bool
  | some o => o.typ = otHANDOVER
  | none => false

/-- A locked worker has seen 16 missing ticks in a row. -/
def State.lose (s : State) : State :=
  if s.tide.role = rlWORKER && s.tide.locked && decide (16 ≤ s.line.missRun) then
    let s : State := { s with
      tide := { s.tide with
        locked := false, loss := true, hold := true, lossAt := s.tide.count
        orders := s.tide.orders.map fun o => if isHandover o then none else o }
      line := { s.line.dropFrame with releaseAt := none } }
    ((s.tideEntry true false).raise evTideLoss).releaseListed
  else s

def execTideLoss (s : State) : Host.Outcome State Fault Refusal := .next s.lose

/-- The first frame boundary after the lock frame has come. -/
def State.releaseHold (s : State) : State :=
  match s.line.releaseAt with
  | some r =>
    if r.toNat ≤ s.tide.count.toNat then
      { s with tide := { s.tide with hold := false }, line := { s.line with releaseAt := none } }
    else s
  | none => s

def execTideHoldRelease (s : State) : Host.Outcome State Fault Refusal := .next s.releaseHold

/-! ### The manager's side (R50, R61 to R63) -/

/-- A manager accepts an order for the line: its mark moves later when R50 asks, and it enters the next
frame. The second part says whether the mark moved. -/
def State.placeOrder (s : State) (typ target : Byte) (mark arg : W64) : Option (State × Bool) :=
  ((List.range 4).find? fun n => (s.line.sending.getD n none).isNone).map fun n =>
    let m := if mark.toNat < s.earliestMark.toNat then s.earliestMark else mark
    ({ s with line := { s.line with
        sending := s.line.sending.set! n (some ⟨typ, target, s.line.nextId, m, arg⟩)
        placed := s.line.placed.set! n (s.tide.count.toNat / 4096 + 1)
        nextId := s.line.nextId + 1 } }, decide (m ≠ mark))

/-- Whether the frame that begins at `first` carries the order in slot `n`. -/
def State.carries (s : State) (first n : Nat) : Option Order :=
  match s.line.sending.getD n none with
  | some o =>
    if s.line.placed.getD n 0 ≤ first / 4096 && first + 63 + 64 ≤ o.mark.toNat then some o else none
  | none => none

def orderBytes : Option Order → List Byte
  | some o => [o.typ, o.target, 0, 0] ++ bytesLE 4 o.id.toNat ++ bytesLE 8 o.mark.toNat ++ bytesLE 8 o.arg.toNat
  | none => List.replicate 24 0

/-- The frame that a manager is sending (R48). -/
def State.frameOut (s : State) : List Byte :=
  let first := s.tide.count.toNat / 4096 * 4096
  let body := bytesLE 8 first ++ [s.tide.addr, BitVec.ofNat 8 (boolBit s.line.firstFrame)] ++
    List.replicate 6 0 ++ (List.range 4).flatMap (fun n => orderBytes (s.carries first n)) ++
    List.replicate 12 0
  body ++ bytesLE 4 (crc32c body).toNat

/-- The tick word on TIDE_OUT; `none` while the part sends none (R44), as before the tick that follows a
handover (R62). -/
def State.tideOut (s : State) : Option W32 :=
  if !s.tide.driving || decide (s.tide.count.toNat < s.line.sendFrom.toNat) then none
  else
    let i := s.tide.count.toNat % 4096
    let pay := if i < 64 then frameField s.frameOut (2 * i) 2 else 0
    let w : BitVec 28 := BitVec.ofNat 28 (i + 4096 * pay)
    let check := (List.range 7).foldl (fun (x : BitVec 4) j => x ^^^ fld w (4 * j) 4) 0
    some (check ++ w)

/-- The part becomes a manager that drives the line, its first word that of tick `first`. -/
def State.driveLine (s : State) (first : W64) : State :=
  { s with
    tide := { s.tide with role := rlMANAGER, driving := true }
    line := { s.line with sendFrom := first } }

/-- HALT orders that wait for room in the frame enter it, oldest first (R50, R272). -/
def State.placeHalts (s : State) : State :=
  if s.tide.role ≠ rlMANAGER then s
  else s.line.halts.foldl (fun s a => match s.placeOrder otHALT a s.earliestMark 0 with
    | some (t, _) => { t with line := { t.line with halts := t.line.halts.drop 1 } }
    | none => s) s

/-- Slots of the frame whose mark has passed become free, for orders that wait; the FIRST flag lasts one
frame. -/
def State.ageSending (s : State) : State :=
  let sending := s.line.sending.map fun o => match o with
    | some (x : Order) => if x.mark.toNat ≤ s.tide.count.toNat then none else o
    | none => none
  let first := s.line.firstFrame && decide (s.tide.count.toNat % 4096 ≠ 0)
  ({ s with line := { s.line with sending := sending, firstFrame := first } } : State).placeHalts

/-- The resume count of a promoted device (R61). -/
def State.resumeCount (s : State) : W64 :=
  w64 ((s.tide.count.toNat + s.tide.advance.toNat + 4095) / 4096 * 4096)

/-- The promoted device has jumped: it drives a frame with FIRST set. -/
def State.promoted (s : State) : State :=
  let s : State := ({ s with
    tide := { s.tide with locked := false }
    line := { s.line.dropFrame with
      resume := none, firstFrame := true, sending := Vector.replicate 4 none, releaseAt := none } } : State).driveLine s.tide.count
  (s.tideEntry false false).noteRole true

/-- The old manager of a handover looks at tick mark + 1, and takes the role back without it; it drives
again from tick mark + 2 (R63). -/
def State.checkHandover (s : State) (good : Bool) : State :=
  if !s.line.pendingFail then s
  else
    let s : State := { s with line := { s.line with pendingFail := false } }
    if good then s.noteRole true
    else
      let s : State := { s with
        tide := { s.tide with handoverFail := true, role := rlMANAGER }
        line := { s.line with driveDue := true, sendFrom := s.tide.count + 1 } }
      ((s.tideEntry false false).raise evHandoverFail).noteRole false

/-! ### Orders at their marks (R38 to R42) -/

/-- A worker that has not locked since it took the role; it acts on no order (R60). -/
def State.unlocked (s : State) : Bool := s.tide.role = rlWORKER && s.line.neverLocked

/-- An order whose mark has come or passed. -/
def State.dueOrder (s : State) (n : Nat) : Option Order :=
  match s.orderAt n with
  | some o => if !s.unlocked && decide (o.mark.toNat ≤ s.tide.count.toNat) then some o else none
  | none => none

def State.dueOrders (s : State) : List Order := (List.range 4).filterMap s.dueOrder

/-- The order in slot `n` acts now: it has this type, is due, and nothing that R41 puts before it is
due. -/
def State.actsNow (s : State) (n : Nat) (typ : Byte) : Option Order :=
  match s.dueOrder n with
  | some o => if o.typ = typ && s.dueOrders.all (fun d => decide (typ.toNat ≤ d.typ.toNat)) then some o else none
  | none => none

/-- An order has acted: its slot is free. -/
def State.freeSlot (s : State) (n : Nat) : State := (s.setOrder n none).releaseListed

/-- The channels that a HALT names. -/
def haltMask (arg : W64) : BitVec 4 := if fld arg 0 4 = 0#4 then 15 else fld arg 0 4

/-- A halt reaches a channel that runs, is in a gate, is held, or stands still for a rollback. -/
def State.haltChan (s : State) (c : Chn) : State :=
  s.modGate c fun g => match g.st with
    | .running => { g with halted := true }
    | .gate => { g with halted := true }
    | .held => { g with halted := true }
    | .stopped => if s.flt.recovering then { g with halted := true } else g
    | _ => g

def State.haltMark (s : State) (n : Nat) : State :=
  match s.actsNow n otHALT with
  | some o =>
    ((s.channels.filter fun c => bitAt (haltMask o.arg) c.val).foldl State.haltChan s).freeSlot n
  | none => s

def execHaltAtMark (n : Fin 4) (s : State) : Host.Outcome State Fault Refusal := .next (s.haltMark n.val)

/-- A later step among those due, or one of the same mark with a higher identifier. -/
def Order.beats (d o : Order) : Bool :=
  decide (o.mark.toNat < d.mark.toNat) || (d.mark = o.mark && decide (o.id.toNat < d.id.toNat))

def State.freqMark (s : State) (n : Nat) : State :=
  match s.actsNow n otFREQ with
  | some o =>
    if s.dueOrders.any fun d => d.typ = otFREQ && d.beats o then s.freeSlot n
    else
      let s : State := { s with pwr := { s.pwr with planned := BitVec.ofNat 5 (min 16 (fldN o.arg 0 5)) } }
      s.takeStep.freeSlot n
  | none => s

def execFreqStepAtMark (n : Fin 4) (s : State) : Host.Outcome State Fault Refusal := .next (s.freqMark n.val)

/-- Windows of one mark are one window, of the larger length (R507). DESIGN CHOICE (log 80): overdue
windows of different marks open in the order of their slots, each in place of the one before. -/
def State.slackMark (s : State) (n : Nat) : State :=
  match s.actsNow n otSLACK with
  | some o =>
    let same := fun (d : Order) => d.typ = otSLACK && d.mark = o.mark
    let len := s.dueOrders.foldl (fun m d => if same d then max m (fldN d.arg 0 16) else m) 0
    let s : State := { s with tide := { s.tide with orders := s.tide.orders.map fun d => match d with
      | some (x : Order) => if same x then none else d
      | none => none } }
    (s.openWindow o.mark (w64 len)).releaseListed
  | none => s

def execSlackWindowOpen (n : Fin 4) (s : State) : Host.Outcome State Fault Refusal := .next (s.slackMark n.val)

/-- The manager role passes between the mark and the next tick. -/
def State.handoverMark (s : State) (n : Nat) : State :=
  match s.actsNow n otHANDOVER with
  | some o =>
    let s := s.freeSlot n
    let me := decide (fldN o.arg 0 8 = s.tide.addr.toNat)
    if s.tide.role = rlMANAGER && !me then
      let s : State := { s with
        tide := { s.tide with role := rlWORKER, driving := false, hold := s.tide.hold || !s.tide.locked }
        line := { s.line with pendingFail := true, neverLocked := !s.tide.locked } }
      s.tideEntry false false
    else if s.tide.role = rlMANAGER then s.noteRole true
    else if s.tide.role = rlWORKER && me && s.tide.locked && s.tide.eligible then
      let s : State := ({ s with line := { s.line with
        firstFrame := false
        sending := s.line.sending.map fun d => if d.any fun x => x.id = o.id then none else d } } : State).driveLine
        (s.tide.count + 1)
      s.tideEntry false false
    else s
  | none => s

def execHandoverAtMark (n : Fin 4) (s : State) : Host.Outcome State Fault Refusal := .next (s.handoverMark n.val)

/-- Due halts, steps and windows, in the order of R41. -/
def State.applyMarks (s : State) : State :=
  let s := (List.range 4).foldl State.haltMark s
  let s := (List.range 4).foldl State.freqMark s
  (List.range 4).foldl State.slackMark s

/-- All due orders, in the order of R41. -/
def State.applyDue (s : State) : State := (List.range 4).foldl State.handoverMark s.applyMarks

/-! ### What a tick boundary counts (R37) -/

def incIf {w : Nat} (b : Bool) (x : BitVec w) : BitVec w := if b then x + 1 else x

/-- Gate waits (R228), and waits of the control core (R288, R294). -/
def State.tickChan (s : State) (c : Chn) : State :=
  let ch := s.chan c
  let w := s.waitBits c
  let inGate := decide (ch.gate.st = .gate)
  let five := decide (w &&& 0b0011111 ≠ 0)
  let opening := inGate && match ch.gate.phase with
    | .opening => true
    | .waitGate => true
    | _ => false
  let sending := match ch.core.wait with
    | .send _ => true
    | _ => false
  s.modChan c fun ch => { ch with
    regs := { ch.regs with
      gwStream := incIf (bitAt w 0) ch.regs.gwStream
      gwDrain := incIf (bitAt w 1) ch.regs.gwDrain
      gwCode := incIf (bitAt w 2) ch.regs.gwCode
      gwMark := incIf (bitAt w 3) ch.regs.gwMark
      gwHold := incIf (bitAt w 4) ch.regs.gwHold
      gwOther := incIf ((inGate || ch.regs2.slackEntered) && !five) ch.regs.gwOther }
    gate := { ch.gate with openTicks := if opening then ch.gate.openTicks + 1 else ch.gate.openTicks }
    core := { ch.core with
      waitTicks := if ch.core.wait.isLong then ch.core.waitTicks + 1 else ch.core.waitTicks
      sendTicks := if sending then ch.core.sendTicks + 1 else ch.core.sendTicks } }

/-- Timers of the part, each one boundary further. -/
def State.tickTimers (s : State) : State := { s with
  recov := { s.recov with
    saveTicks := s.recov.saveTicks + 1
    ceTicks := s.recov.ceTicks + 1
    rollTicks := s.recov.rollTicks.map fun e => (e.1, e.2 + 1) }
  ev := { s.ev with evs := s.ev.evs.map fun e =>
    (e.1, if e.2.seen && !e.2.pend then { e.2 with ticks := e.2.ticks + 1 } else e.2) }
  sync := { s.sync with mgmt := s.sync.mgmt.map fun k =>
    if k.sending.isSome then { k with sendTicks := k.sendTicks + 1 } else k }
  cxl := { s.cxl with
    downTicks := if s.cxl.up || !s.cxl.linked then 0 else s.cxl.downTicks + 1
    recovTicks := s.cxl.recovTicks.map (· + 1) } }

/-- PRODUCED of a channel in a pair ring, and CONSUMED (R271). -/
def State.pairProd (s : State) (ring : W64) (c : Chn) : W64 := w64 (s.vaGet (ring.toNat + 8 * c.val) 8)
def State.pairCons (s : State) (ring : W64) (c : Chn) : W64 := w64 (s.vaGet (ring.toNat + 32 + 8 * c.val) 8)

/-- A compare slot that is on counts for each side the ticks for which its PRODUCED has not advanced while
the other side has entries waiting (R273). -/
def State.watchSlot (s : State) (p : PairSlot) : PairSlot :=
  if s.cxl.up && (p.state = 1 || p.state = 3) then
    s.channels.foldl (fun (p : PairSlot) c =>
      let a := s.pairProd p.ringA c
      let b := s.pairProd p.ringB c
      { p with
        prodA := p.prodA.set c a
        prodB := p.prodB.set c b
        sinceA := p.sinceA.set c
          (if a = p.prodA.get c && b ≠ s.pairCons p.ringB c then p.sinceA.get c + 1 else 0)
        sinceB := p.sinceB.set c
          (if b = p.prodB.get c && a ≠ s.pairCons p.ringA c then p.sinceB.get c + 1 else 0) }) p
  else p

def State.pairWatch (s : State) : State := { s with job := { s.job with pairs := s.job.pairs.map s.watchSlot } }

/-- What fell due at the boundary before and was not commanded: it acts before the next one. -/
def State.settle (s : State) : State :=
  let s := s.takeFrame.lose.releaseHold
  let s := s.applyDue.arriveRail.slackMove.endSpan
  s.dueChOff.flushFaults.quiesceMove

/-! ### The tick (R35, R36) -/

/-- The receiver judges the tick slot of the new count. -/
def State.tickSlot (s : State) (slot : Option TickSlot) : State :=
  let good := s.judge slot s.tide.count
  let missing := good.isNone && s.tide.locked
  let line := s.line.saw good
  let g := if s.tide.role = rlSELF then (line, false) else line.gather good s.tide.locked s.tide.count
  let s : State := { s with
    line := g.1
    tide := { s.tide with
      missing := if missing then satInc s.tide.missing else s.tide.missing
      frameBad := if g.2 then satInc s.tide.frameBad else s.tide.frameBad } }
  s.checkHandover good.isSome

/-- An old manager that took its role back drives the line again (R63). -/
def State.driveAgain (s : State) : State :=
  if s.line.driveDue then
    { s with
      tide := { s.tide with driving := s.tide.role = rlMANAGER }
      line := { s.line with driveDue := false } }
  else s

/-- The boundary itself: the count advances by one, or jumps to the resume count of a promotion. -/
def State.advance (s : State) : State :=
  match s.line.resume with
  | some r => ({ s with tide := { s.tide with count := r } } : State).promoted
  | none => ({ s with tide := { s.tide with count := s.tide.count + 1 } } : State).driveAgain.ageSending

/-- What follows in the tick of the new count, whose slot on TIDE_IN is given. -/
def State.afterBoundary (s : State) (slot : Option TickSlot) : State :=
  let s := s.tickSlot slot
  let s := s.slewRail.takeStep.tickTimers.pairWatch
  let s := s.channels.foldl State.tickChan s
  s.firmwareTasks

/-- A tick boundary passes. -/
def State.tick (s : State) (slot : Option TickSlot) : State := s.settle.advance.afterBoundary slot

/-- The count runs from phase 2 on (R501). -/
def State.tideRuns (s : State) : Bool := decide (2 ≤ s.svc.phase.toNat)

def execTideTick (slot : Option TickSlot) (s : State) : Host.Outcome State Fault Refusal :=
  .next (if s.tideRuns then s.tick slot else s)

/-- The next local tick boundary of a promoted device: it drives the line, and sees its own word come
back on TIDE_IN (R43, R61). -/
def State.promoteJump (s : State) : State :=
  let s := s.settle.advance
  s.afterBoundary (s.tideOut.map fun w => ⟨0, w⟩)

def execTidePromoteJump (s : State) : Host.Outcome State Fault Refusal :=
  .next (if s.tideRuns && s.line.resume.isSome then s.promoteJump else s)

end Sys2Proof.Machine
end

