-- ==== Sys2Proof/Machine/Trust.lean ====
section
/-! DEFINITION. The security core (16): boot, device keys and certificates, the identity block, reports
and receipts, SPDM over DOE 1, and the recovery window of the sideband. -/
namespace Sys2Proof.Machine

/-! ### Keys (R484, R485) -/

def udsBytes : List Byte := bytesLE 64 Config.uds.toNat

def udsMac (label : String) : List Byte := hmacSha512 udsBytes (asciiBytes label)

/-- The seed of the device key. -/
def deviceSeed : List Byte := udsMac "VT8-DEVICEID" ++ udsMac "VT8-DEVICEID-2"

/-- The boot ROM derives CDI0 from the UDS and measurements 1 and 2. -/
def State.deriveCdi0 (s : State) : State :=
  let m := fun (n : Nat) => bytesLE 64 ((s.measurement n).getD 0).toNat
  { s with sec := { s.sec with
    cdi0 := hmacSha512 (udsMac "VT8-CDI") (m 1 ++ m 2), udsLocked := true } }

/-- The certificate chain; the alias certificate alone when no DeviceID certificate is intact. -/
def State.certChain (s : State) : List Byte :=
  let alias_ := Config.aliasCert s.sec.aliasSeed deviceSeed (s.measureBytes 1 17)
  if s.sec.certMissing then alias_ else Config.deviceCerts ++ alias_

/-- A signature as it is stored: r and s, 66 bytes each (R267, R486). -/
def signed (seed msg : List Byte) : List Byte :=
  let r := ecdsaSign seed msg
  bytesLE 66 r.1 ++ bytesLE 66 r.2

/-! ### Boot (R480 to R482) -/

/-- Dies whose fuse record fails its CRC; absent dies have none (R491). -/
def State.badFuses (s : State) : BitVec 10 :=
  (List.range 10).foldl (fun m d =>
    if (s.four || (d ≠ 7 && d ≠ 8)) && !crcGood 32 (s.sec.fuseRecs.getD d 0).toNat then setBit m d true else m) 0

/-- `SEC_BOOTSTAT.FAIL_A` and FAIL_B: a measurement and a signature share one value. -/
def failCode (n : Nat) : BitVec 3 := BitVec.ofNat 3 (min n 4)

def State.noteFail (s : State) (slot : Bool) (n : Nat) : State :=
  { s with sec := if slot then { s.sec with failB := failCode n } else { s.sec with failA := failCode n } }

/-- The part runs the firmware of a slot: every unit's measurement is its component's, and the keys
follow. -/
def State.runFirmware (s : State) (slot : Bool) : State :=
  let bs := s.slotBytes slot
  let s : State := { s with sec := { s.sec with
    slotB := slot
    recovery := false
    mSec := fwMeasure bs 1
    mMgmt := fwMeasure bs 2
    mChan := Vector.replicate 4 (fwMeasure bs 3)
    mMsd := Vector.replicate 8 (fwMeasure bs 4)
    fwVer := fwVersion bs
    advance := fwAdvance bs
    svn := fwSvn bs
    certMissing := !Config.certIntact } }
  let s : State := { s with sec := { s.sec with mCfg := s.fwConfig } }
  s.deriveCdi0.deriveAlias

/-- The boot ROM: the fuse records, the slot of the newest activation record, the other slot, or
recovery. -/
def State.boot (s : State) : State :=
  let s : State := { s with sec := { s.sec with
    fuseBad := s.badFuses
    fallback := false, failA := 0, failB := 0
    healthy := true, rngFail := false, drbgs := Vector.replicate 5 ⟨0, false⟩
    staged := false, fwStaged := 0, activating := false, transfer := [] } }
  let first := s.activeSlot
  let n := s.fwCheck (s.slotBytes first)
  if n = 0 then s.runFirmware first
  else
    let s := s.noteFail first n
    let m := s.fwCheck (s.slotBytes (!first))
    let s : State := { s with sec := { s.sec with fallback := true } }
    if m = 0 then s.runFirmware (!first)
    else
      let s := s.noteFail (!first) m
      { s with sec := { s.sec with recovery := true } }

/-- READY reached: the SVN floor rises to the running image's SVN when it asks (R481). -/
def State.advanceFloor (s : State) : State :=
  if s.sec.advance && decide (s.svnFloor < s.sec.svn) then
    let bits := (List.range 64).foldl (fun (a : W64 × Nat) i =>
      if a.2 = 0 || bitAt a.1 i then a else (setBit a.1 i true, a.2 - 1)) (s.sec.svnBits, s.sec.svn - s.svnFloor)
    { s with sec := { s.sec with svnBits := bits.1 } }
  else s

/-! ### Identity, report and receipt (R266, R267, R494, R497) -/

def State.chEn (s : State) : Nat := if s.four then 0xF else 0x7
def State.grade (s : State) : Nat := if s.four then 4 else 3

def State.fuseBytes (s : State) : List Byte :=
  (List.range 10).flatMap fun d =>
    if !s.four && (d = 7 || d = 8) then List.replicate 32 0 else bytesLE 32 (s.sec.fuseRecs.getD d 0).toNat

/-- The identity block. -/
def State.identityBlock (s : State) : List Byte :=
  let body := bytesLE 4 1 ++ bytesLE 4 512 ++ bytesLE 2 Config.vendorId.toNat ++ bytesLE 2 0x0008 ++ [0xB0] ++
    bytesLE 1 s.grade ++ [0xB0] ++ bytesLE 1 s.chEn ++ bytesLE 16 s.sec.serial.toNat ++ s.fuseBytes ++
    sha512Bytes (ecPublic deviceSeed) ++ bytesLE 8 s.sec.fwVer.toNat ++ bytesLE 8 s.sec.fwStaged.toNat ++
    bytesLE 1 (boolBit s.sec.slotB) ++ bytesLE 1 s.svnFloor ++ List.replicate 74 0
  body ++ bytesLE 4 (crc32c body).toNat

/-- The DMTF type of a measurement. -/
def measureType (n : Nat) : Nat := if n = 1 then 0 else if n < 16 then 1 else if n = 16 then 2 else 3

/-- The indices that the part reports. -/
def State.reported (s : State) : List Nat := ((List.range 18).map (· + 1)).filter fun n => (s.measurement n).isSome

/-- The attestation report over a nonce. -/
def State.report (s : State) (nonce : List Byte) : List Byte :=
  let ms := s.reported
  let chain := s.certChain
  let len := 64 + 72 * ms.length + chain.length + 132
  let body := bytesLE 4 1 ++ bytesLE 4 len ++ nonce ++ bytesLE 8 s.tide.count.toNat ++
    bytesLE 8 s.cmd.bootId.toNat ++ bytesLE 4 ms.length ++ bytesLE 4 chain.length ++
    ms.flatMap (fun n => bytesLE 1 n ++ bytesLE 1 (measureType n) ++ List.replicate 6 0 ++
      bytesLE 64 ((s.measurement n).getD 0).toNat) ++ chain
  body ++ signed s.sec.aliasSeed body

/-- D_h: the accumulator, with the word count and the handle (R261). -/
def State.tensorDigest (s : State) (h : Nat) (acc : W128) : W128 :=
  acc ^^^ BitVec.ofNat 128 (s.tdWords (s.tensor h) + 2 ^ 64 * h)

/-- A channel's finished chain. -/
def chainHash (c : Chain) : List Byte := sha512Bytes (c.parts.flatMap fun p => bytesLE 48 p.toNat)

/-- DIGEST_HASH over the job's channels and the tensors that received a part (R266). -/
def State.digestHash (s : State) (set_ : List Chn) : List Byte :=
  sha512Bytes (set_.flatMap (fun c => chainHash (s.chan c).chain) ++
    s.job.accum.flatMap fun e => bytesLE 8 e.1 ++ bytesLE 8 (s.tdWords (s.tensor e.1)) ++
      bytesLE 16 (s.tensorDigest e.1 e.2).toNat)

/-- FLAGS of the segment's receipt. -/
def Job.flags (j : Job) : Nat :=
  boolBit j.pair + 2 * boolBit j.retired + 4 * boolBit j.rollback + 8 * boolBit j.prev.isSome +
    16 * boolBit j.coverage + 32 * boolBit j.fwChanged + 64 * boolBit j.imageChanged

/-- The receipt of a segment that ends at `tick`, once every pending record has been made (R267). -/
def State.receipt (s : State) (set_ : List Chn) (tick : W64) : List Byte :=
  let sum := fun (f : Chain → W64) => set_.foldl (fun acc c => acc + f (s.chan c).chain) 0
  let body := bytesLE 4 1 ++ bytesLE 4 s.job.flags ++ bytesLE 8 (s.job.rcptSeq + 1).toNat ++
    bytesLE 8 s.job.start.toNat ++ bytesLE 8 tick.toNat ++ s.digestHash set_ ++ bytesLE 64 s.job.meas.toNat ++
    sha512Bytes (s.measureBytes 1 17) ++ bytesLE 64 s.dieIds.toNat ++
    bytesLE 64 (s.job.prev.getD 0).toNat ++ bytesLE 8 (sum Chain.segChecked).toNat ++
    bytesLE 8 (sum Chain.segUnchecked).toNat ++ bytesLE 8 (sum Chain.segRecords).toNat ++ List.replicate 8 0
  body ++ signed deviceSeed body ++ List.replicate 12 0

/-! ### SPDM on DOE 1 (R495) -/

/-- An answer stands in a mailbox for the host to read. -/
def State.answer (s : State) (m : Nat) (bs : List Byte) : State :=
  { s with cxl := { s.cxl with mailboxes := s.cxl.mailboxes.set! m ⟨bs, false⟩ } }

def State.spdmError (s : State) (code : Byte) : State := s.answer 1 [0x7F, code]

def spInvalidRequest : Byte := 0x01
def spInvalidSession : Byte := 0x02
def spUnexpected : Byte := 0x04
def spUnspecified : Byte := 0x05
def spDecryptError : Byte := 0x06
def spResynch : Byte := 0x43

def State.setSpdm (s : State) (f : Spdm → Spdm) : State := { s with sec := { s.sec with spdm := f s.sec.spdm } }

/-- A connection starts anew, in versions 1.2 and 1.3. -/
def execGetVersion (s : State) : Host.Outcome State Fault Refusal :=
  .next ((s.setSpdm fun p => { p with versioned := true, capable := false, negotiated := false }).answer 1
    [0x04, 2, 0x00, 0x12, 0x00, 0x13])

/-- Certificates, challenges, signed measurements, sessions; no mutual authentication. -/
def execGetCapabilities (s : State) : Host.Outcome State Fault Refusal :=
  .next (if s.sec.spdm.versioned then
      (s.setSpdm fun p => { p with capable := true }).answer 1 ([0x61] ++ bytesLE 4 0x2D6)
    else s.spdmError spUnexpected)

/-- The part selects, of what is offered, only the algorithms it has. -/
def execNegotiateAlgorithms (algs : SpdmAlgs) (s : State) : Host.Outcome State Fault Refusal :=
  .next (if s.sec.spdm.capable then
      (s.setSpdm fun p => { p with
        negotiated := algs.ecdsaP521 && algs.sha512
        keyAgreed := algs.secp521r1 && algs.aes256gcm }).answer 1
        [0x63, BitVec.ofNat 8 (boolBit algs.ecdsaP521 + 2 * boolBit algs.sha512 + 4 * boolBit algs.secp521r1 +
          8 * boolBit algs.aes256gcm)]
    else s.spdmError spUnexpected)

def State.onSpdm (s : State) (f : State → State) : State :=
  if s.sec.spdm.negotiated then f s else s.spdmError spUnexpected

def execGetDigests (s : State) : Host.Outcome State Fault Refusal :=
  .next (s.onSpdm fun s => s.answer 1 ([0x01, 1] ++ sha512Bytes s.certChain))

/-- A portion of the chain in slot 0, with what remains after it. -/
def State.certPortion (s : State) (slot : Byte) (off len : Nat) : State :=
  let chain := s.certChain
  if slot ≠ 0 || decide (chain.length < off) then s.spdmError spInvalidRequest
  else
    let part := (chain.drop off).take len
    s.answer 1 ([0x02, 0] ++ bytesLE 2 part.length ++ bytesLE 2 (chain.length - off - part.length) ++ part)

def execGetCertificate (slot : Byte) (off len : W16) (s : State) : Host.Outcome State Fault Refusal :=
  .next (s.onSpdm fun s => s.certPortion slot off.toNat len.toNat)

/-- An answer with a nonce of the part's own, signed with the alias key over the requester's nonce and
the answer. -/
def State.signedAnswer (s : State) (head : List Byte) (nonce : BitVec 256) : State :=
  let d := s.drbgDraw 4
  match d.2 with
  | none => d.1.spdmError spUnspecified
  | some own =>
    let body := head ++ bytesLE 32 own.toNat
    d.1.answer 1 (body ++ signed s.sec.aliasSeed (bytesLE 32 nonce.toNat ++ body))

def execChallenge (slot : Byte) (nonce : BitVec 256) (s : State) : Host.Outcome State Fault Refusal :=
  .next (s.onSpdm fun s =>
    if slot ≠ 0 then s.spdmError spInvalidRequest
    else s.signedAnswer ([0x03, 0] ++ sha512Bytes s.certChain) nonce)

/-- One measurement, all of them (0xFF), or their number (0). -/
def State.measureAnswer (s : State) (index : Byte) : Option (List Byte) :=
  let one := fun (n : Nat) => bytesLE 1 n ++ bytesLE 1 (measureType n) ++ bytesLE 64 ((s.measurement n).getD 0).toNat
  if index = 0 then some (bytesLE 1 s.reported.length)
  else if index = 0xFF then some (bytesLE 1 s.reported.length ++ s.reported.flatMap one)
  else if s.reported.contains index.toNat then some (bytesLE 1 1 ++ one index.toNat)
  else none

def State.giveMeasures (s : State) (index : Byte) (sign : Bool) (nonce : BitVec 256) : State :=
  match s.measureAnswer index with
  | none => s.spdmError spInvalidRequest
  | some bs => if sign then s.signedAnswer ([0x60] ++ bs) nonce else s.answer 1 ([0x60] ++ bs)

def execGetMeasurements (index : Byte) (sign : Bool) (nonce : BitVec 256) (s : State) :
    Host.Outcome State Fault Refusal :=
  .next (s.onSpdm fun s => s.giveMeasures index sign nonce)

/-- A session opens; its identifier, which SPDM forms from both sides' halves, is a free value. -/
def State.exchangeKeys (s : State) (slot : Byte) (exchange : List Byte) : State :=
  if slot ≠ 0 then s.spdmError spInvalidRequest
  else if !s.sec.spdm.keyAgreed then s.spdmError spUnexpected
  else
    let d := s.drbgDraw 4
    match d.2 with
    | none => d.1.spdmError spUnspecified
    | some _ =>
      let id : W32 := fld (Config.freeValue d.1.draw) 0 32
      let body := [0x64] ++ bytesLE 4 id.toNat ++ Config.ecdheReply s.draw exchange
      let s1 : State := { d.1 with draw := d.1.draw + 1 }
      (s1.setSpdm fun p => { p with sessions := p.sessions ++ [(id, false)] }).answer 1
        (body ++ signed s.sec.aliasSeed (exchange ++ body))

def execKeyExchange (slot : Byte) (exchange : List Byte) (s : State) : Host.Outcome State Fault Refusal :=
  .next (s.onSpdm fun s => s.exchangeKeys slot exchange)

/-- The answer to a message of a session that is not open. -/
def State.noSession (s : State) (id : W32) : State :=
  s.spdmError (if s.sec.spdm.resynch.contains id then spResynch else spInvalidSession)

def dropSession (id : W32) (l : List (W32 × Bool)) : List (W32 × Bool) := l.filter fun e => decide (e.1 ≠ id)

/-- FINISH establishes the session when its MAC verifies; else the session ends. -/
def execFinish (session : W32) (verified : Bool) (s : State) : Host.Outcome State Fault Refusal :=
  .next (
    if !s.sec.spdm.sessions.any fun e => e.1 = session then s.noSession session
    else if verified then
      (s.setSpdm fun p => { p with sessions := dropSession session p.sessions ++ [(session, true)] }).answer 1 [0x65]
    else
      (s.setSpdm fun p => { p with sessions := dropSession session p.sessions }).spdmError spDecryptError)

def execEndSession (session : W32) (s : State) : Host.Outcome State Fault Refusal :=
  .next (
    if s.sec.spdm.sessions.any fun e => e.1 = session then
      (s.setSpdm fun p => { p with sessions := dropSession session p.sessions }).answer 1 [0x6C]
    else s.noSession session)

/-! ### Noise and the recovery window (R488, R496) -/

def execNoiseHealthFail (s : State) : Host.Outcome State Fault Refusal :=
  .next { s with sec := { s.sec with healthy := false, rngFail := true } }

/-- A write of the recovery window: bytes at ascending image offsets; offset 0xFFFF_FFFF ends the
transfer, and the boot ROM boots again. Bytes that the writes leave out are free. -/
def State.recoveryWrite (s : State) (off : W32) (data : List Byte) : State :=
  if !s.sec.recovery then s
  else if off = BitVec.allOnes 32 then
    ({ s with sec := { s.sec with flashA := ⟨s.sec.transfer, false⟩ } } : State).boot
  else if off.toNat < s.sec.transfer.length then s
  else
    let gap := off.toNat - s.sec.transfer.length
    let fill := (List.range gap).map fun i => fld (Config.freeValue (s.draw + i)) 0 8
    { s with draw := s.draw + gap, sec := { s.sec with transfer := s.sec.transfer ++ fill ++ data.take 252 } }

end Sys2Proof.Machine
end

