-- ==== Sys2Proof/Machine/Bringup.lean ====
section
/-! DEFINITION. The module and its power (R450, R454, R470, R522 to R524), device reset (R503), the
phases of bring-up (R500 to R502) and the debug TAP (R530). -/
namespace Sys2Proof.Machine

def phOFF : BitVec 4 := 0
def phREGULATORS : BitVec 4 := 1
def phBOOT_ROM : BitVec 4 := 2
def phMGMT : BitVec 4 := 3
def phMSD_UP : BitVec 4 := 4
def phHBM_TRAIN : BitVec 4 := 5
def phPHASE_CAL : BitVec 4 := 6
def phSPARE_MAP : BitVec 4 := 7
def phREADY : BitVec 4 := 8
def phFAILED : BitVec 4 := 0xF

/-! ### Losing state -/

/-- What fuses and the flash devices keep. -/
def Sec.kept (x : Sec) : Sec := { Sec.reset with
  flashA := x.flashA
  flashB := x.flashB
  records := x.records
  spareMaps := x.spareMaps
  fuseRecs := x.fuseRecs
  serial := x.serial
  svnBits := x.svnBits
  revoked := x.revoked }

/-- All state on the module is lost but fuses and flash (R365, R523); what lies outside the module
stays. -/
def State.lost (s : State) : State := { State.reset with
  four := s.four
  cy := s.cy
  draw := s.draw
  pending := s.pending
  host := { s.host with posted := [] }
  mdl := s.mdl
  sec := s.sec.kept }

/-- Power is gone: phase OFF. -/
def State.powerDown (s : State) : State :=
  let s := s.lost
  { s with mdl := { s.mdl with controllerOn := false, regulators := false, rtr := false, tap := .idcode } }

/-! ### Insertion, power and trips -/

def execModuleInsert (ample : Bool) (s : State) : Host.Outcome State Fault Refusal :=
  .next (if s.mdl.inserted then s
    else
      let s := s.lost
      { s with mdl := { Module.reset with inserted := true, ample := ample, perstN := s.mdl.perstN } })

/-- The controller charges the input capacitance and the regulators ramp. -/
def State.ramp (s : State) : State :=
  if s.mdl.inserted && s.mdl.ample && s.mdl.pwrEn && !s.mdl.controllerOn && !s.mdl.latchedOff && !s.mdl.thermtrip then
    { s with mdl := { s.mdl with controllerOn := true }, svc := { s.svc with phase := phREGULATORS } }
  else s

def execPwrEnAssert (s : State) : Host.Outcome State Fault Refusal :=
  .next (if s.mdl.inserted && !s.mdl.pwrEn then
      ({ s with mdl := { s.mdl with pwrEn := true, thermtrip := false } } : State).ramp
    else s)

/-- A deassertion of more than 1 ms; a latched turn-off clears (R523). -/
def execPwrEnDeassert (s : State) : Host.Outcome State Fault Refusal :=
  .next (if s.mdl.pwrEn then
      let s := s.powerDown
      { s with mdl := { s.mdl with pwrEn := false, latchedOff := false } }
    else s)

def execInputReaches46v (s : State) : Host.Outcome State Fault Refusal :=
  .next (({ s with mdl := { s.mdl with ample := true } } : State).ramp)

/-- Undervoltage and overvoltage turn the controller off until the input is right again; overcurrent
latches it off. -/
def execInputFault (trip : InputTrip) (s : State) : Host.Outcome State Fault Refusal :=
  .next (
    let s := if s.mdl.controllerOn then s.powerDown else s
    match trip with
    | .current => { s with mdl := { s.mdl with latchedOff := s.mdl.latchedOff || s.mdl.pwrEn } }
    | _ => { s with mdl := { s.mdl with ample := false } })

/-- A comparator trips: the regulators shut down and the trip is latched. -/
def execThermtrip (sensor : Fin 54) (s : State) : Host.Outcome State Fault Refusal :=
  .next (if s.mdl.regulators && s.hasSensor sensor.val then
      let s := s.powerDown
      { s with mdl := { s.mdl with thermtrip := true } }
    else s)

def execSurpriseRemoval (s : State) : Host.Outcome State Fault Refusal :=
  .next (if s.mdl.inserted then { s.powerDown with mdl := Module.reset } else s)

/-! ### Reset (R503) -/

/-- Counts kept since power-up go on through a device reset: receipts, deferred tasks, windows and
calibrations. -/
def State.sincePower (s old : State) : State :=
  let s : State := { s with
    job := { s.job with rcptSeq := old.job.rcptSeq }
    svc := { s.svc with deferred := old.svc.deferred }
    pwr := { s.pwr with regions := Vector.ofFn fun i =>
      { s.pwr.regions.getD i.val ⟨0, false, false, 0⟩ with cals := (old.region i.val).cals } } }
  ([0, 1, 2, 3] : List Chn).foldl (fun s c => s.modChan c fun ch => { ch with
    regs2 := { ch.regs2 with slackWindows := (old.chan c).regs2.slackWindows } }) s

/-- PERST_N is asserted: a device reset; bring-up waits before phase 2. -/
def execDeviceReset (s : State) : Host.Outcome State Fault Refusal :=
  .next (
    if s.mdl.regulators then
      let t := s.lost.sincePower s
      { t with
        mdl := { t.mdl with perstN := false, rtr := true, tap := .idcode }
        pwr := { t.pwr with domains := s.pwr.domains &&& (0xFFF#80 <<< 68) }
        svc := { t.svc with phase := phREGULATORS } }
    else { s with mdl := { s.mdl with perstN := false } })

/-- Phase 2 starts: the count runs from 0. -/
def State.startBoot (s : State) : State :=
  { s with
    mdl := { s.mdl with rtr := false }
    svc := { s.svc with phase := phBOOT_ROM } }

def execPerstNDeassert (s : State) : Host.Outcome State Fault Refusal :=
  .next (
    if s.mdl.perstN then s
    else
      let s : State := { s with mdl := { s.mdl with perstN := true } }
      if s.mdl.regulators then s.startBoot else s)

/-! ### The phases (R500 to R502) -/

/-- Present domains of the I/O die, the memory side and the compute die (R471, R474). -/
def ioDomains : List Nat := (List.range 12).map (68 + ·)

def State.msdDomains (s : State) : List Nat :=
  (List.range (if s.four then 8 else 6)).flatMap fun n => [44 + n, 52 + n, 60 + n]

def State.computeDomains (s : State) : List Nat := s.channels.flatMap chanDomains ++ [40, 41, 42, 43]

def State.domainsOn (s : State) (ds : List Nat) : State :=
  { s with pwr := { s.pwr with domains := ds.foldl (fun m d => setBit m d true) s.pwr.domains } }

/-- The phase in progress has ended at this tick count; the next begins. -/
def State.nextPhase (s : State) : State :=
  { s with svc := { s.svc with
    phaseAt := if s.svc.phase.toNat < 8 then s.svc.phaseAt.set! s.svc.phase.toNat s.tide.count else s.svc.phaseAt
    phase := s.svc.phase + 1 } }

/-- Bring-up ends in FAILED; a failure in phase 2 leaves the part in recovery. -/
def State.failPhase (s : State) (die : BitVec 4) : State :=
  let boot := s.svc.phase = phBOOT_ROM
  { s with
    svc := { s.svc with failPhase := s.svc.phase, failUnit := die, phase := phFAILED }
    sec := { s.sec with recovery := s.sec.recovery || boot } }

/-- The boot ROM's phase: fuse records, firmware, keys, and the boot identifier. -/
def State.bootPhase (s : State) : State :=
  let s := s.boot
  if s.sec.fuseBad ≠ 0 then
    s.failPhase (BitVec.ofNat 4 (((List.range 10).find? fun d => bitAt s.sec.fuseBad d).getD 0xF))
  else if s.sec.recovery then s.failPhase 0xF
  else
    let d := s.drbgDraw 4
    let id : W64 := match d.2 with
      | some v => fld v 0 64
      | none => 0
    ({ d.1 with cmd := { d.1.cmd with bootId := id } } : State).nextPhase

/-- Management firmware starts: tables cleared, carve-outs set, its ports open. -/
def State.mgmtPhase (s : State) : State :=
  let s : State := { s with
    mem := { s.mem with wtab := [], wtabLow := [], tdt := [] }
    flt := { s.flt with ring := [], prod := 0, cons := 0, lost := 0, lostBit := false }
    cmd := { s.cmd with winBase := 0x0E80000000, jBase := 0x0E84000000 }
    cxl := { s.cxl with
      carvePeer := 0x0E88000000, carveImage := 0x0EC0000000, carveSave := 0x0F00000000 } }
  (([4, 5, 6, 7] : List Nat).foldl (fun s i => s.openPort i) s).nextPhase

def State.msdPhase (s : State) : State :=
  let s := s.domainsOn s.msdDomains
  let s := (List.finRange 8).foldl (fun s n =>
    if s.hasMsd n then s.modMsd n.val fun d => { d with ringOk := true } else s) s
  s.nextPhase

/-- Every present stack is trained and zeroed; Breakwater and the snoop filters are cleared. -/
def State.trainPhase (s : State) (tries : BitVec 2) : State :=
  let s := (List.finRange 8).foldl (fun s n =>
    if s.hasMsd n then s.modMsd n.val fun d => { d with trained := true, bwLines := [], snoop := [] } else s) s
  ({ s with
    mem := { s.mem with hdm := Mem.empty }
    svc := { s.svc with trainTries := tries } } : State).nextPhase

/-- Compute domains on, the root at step 16, every region calibrated; calibration leaves 40 % at
least. -/
def State.calPhase (s : State) (margins : List Byte) : State :=
  let s := s.domainsOn s.computeDomains
  let s : State := { s with pwr := { s.pwr with step := 16, railUv := railOf 16 } }
  let s := (List.range 37).foldl (fun s r =>
    if s.hasRegion r then
      let m := margins.getD r 40
      s.calibrated r (if m.toNat < 40 then 40 else m)
    else s) s
  s.nextPhase

/-- A spare map from flash as the channel's column map. -/
def ChRegs.applyMap (r : ChRegs) (m : BitVec 20) : ChRegs := { r with
  out0 := fld m 0 7
  out0Failed := bitAt m 7
  out1 := fld m 8 7
  out1Failed := bitAt m 15
  substCount := fld m 16 4 }

/-- Spare maps apply, cells are written with clean zeros, and the part is ready (R501). -/
def State.sparePhase (s : State) : State :=
  let s := s.channels.foldl (fun s c => s.modChan c fun ch => { ch with
    cells := [], regs := ch.regs.applyMap (s.sec.spareMaps.get c) }) s
  let s := s.nextPhase
  ({ s with
    cmd := { s.cmd with ready := true, examine := true }
    cxl := { s.cxl with memActive := true } } : State).advanceFloor

/-- The regulators are up; phase 2 starts once PERST_N is deasserted too. -/
def State.regulatorPhase (s : State) : State :=
  if s.mdl.regulators then s
  else
    let s := ({ s with mdl := { s.mdl with regulators := true, rtr := !s.mdl.perstN } } : State).domainsOn ioDomains
    if s.mdl.perstN then s.startBoot else s

def State.endPhase (s : State) (env : BringupEnv) : State :=
  if s.svc.phase = phREGULATORS then s.regulatorPhase
  else if s.svc.phase = phBOOT_ROM then s.bootPhase
  else if s.svc.phase = phMGMT then s.mgmtPhase
  else if s.svc.phase = phMSD_UP then s.msdPhase
  else if s.svc.phase = phHBM_TRAIN then s.trainPhase env.tries
  else if s.svc.phase = phPHASE_CAL then s.calPhase env.margins
  else if s.svc.phase = phSPARE_MAP then s.sparePhase
  else s

def execBringupPhaseEnd (env : BringupEnv) (s : State) : Host.Outcome State Fault Refusal :=
  .next (s.endPhase env)

/-- A phase exceeds its limit or fails. -/
def execBringupFailed (die : BitVec 4) (s : State) : Host.Outcome State Fault Refusal :=
  .next (if 1 ≤ s.svc.phase.toNat && s.svc.phase.toNat ≤ 7 then s.failPhase die else s)

/-! ### The recovery window (R482, R496) -/

/-- A write of the recovery window; when a transfer has ended with firmware that boots, bring-up goes
on from phase 2. -/
def State.sidebandWrite (s : State) (off : W32) (data : List Byte) : State :=
  let t := s.recoveryWrite off data
  if s.sec.recovery && !t.sec.recovery then
    { t with svc := { t.svc with phase := phBOOT_ROM, failPhase := 0, failUnit := 0 } }
  else t

def execSidebandRecoveryWrite (off : W32) (data : List Byte) (s : State) : Host.Outcome State Fault Refusal :=
  .next (s.sidebandWrite off data)

/-! ### The TAP (R530) -/

/-- In recovery or FAILED every instruction is honoured; at other times only BYPASS and IDCODE. -/
def State.tapLoad (s : State) (op : TapOp) : TapOp :=
  if s.sec.recovery || s.svc.phase = phFAILED then op
  else match op with
    | .idcode => .idcode
    | _ => .bypass

def execTapInstruction (op : TapOp) (s : State) : Host.Outcome State Fault Refusal :=
  .next { s with mdl := { s.mdl with tap := s.tapLoad op } }

end Sys2Proof.Machine
end

