-- ==== Sys2Proof/Machine/Events.lean ====
section
/-! DEFINITION. The event controller (R420 to R434): occurrences, coalescing, vectors and their MSI-X
messages, claims, and writes of its set, clear and window addresses. -/
namespace Sys2Proof.Machine

/-! ### An event's entry -/

def State.evOf (s : State) (e : Nat) : Ev := Smap.get Ev.reset s.ev.evs e

/-- Whether a number has an entry: all but the spurious number, of which only the pending and the mask bit
of word 31 are kept (R430). -/
def evValid (e : Nat) : Bool := decide (e < 0x3FF)

def State.modEv (s : State) (e : Nat) (f : Ev → Ev) : State :=
  if e < 0x400 then { s with ev := { s.ev with evs := Smap.upsert s.ev.evs e (f (s.evOf e)) } } else s

/-- COUNT; 0 is taken as 1. -/
def Ev.countUsed (v : Ev) : Nat := max 1 v.count.toNat

def Ev.deliverable (v : Ev) : Bool := v.pend && !v.masked

/-- The count restarts: no occurrence is kept. -/
def Ev.forget (v : Ev) : Ev := { v with occ := 0, first := 0, seen := false, ticks := 0 }

def Ev.clear (v : Ev) : Ev := { v.forget with pend := false }

/-- One occurrence on the host path (R423). -/
def Ev.occur (v : Ev) (tick : W64) : Ev :=
  if v.enable then
    let occ := satInc v.occ
    { v with
      occ := occ
      first := if v.seen then v.first else tick
      seen := true
      ticks := if v.seen then v.ticks else 0
      pend := v.pend || decide (v.countUsed ≤ occ.toNat) }
  else v

/-! ### Vectors (R425, R426) -/

/-- Vectors whose set of deliverable events is not empty; the spurious number is delivered by none. -/
def State.fullVectors (s : State) : BitVec 64 :=
  s.ev.evs.foldl (fun (m : BitVec 64) e => if evValid e.1 && e.2.deliverable then setBit m e.2.vector.toNat true else m) 0

/-- A 32-bit word of the MSI-X table; a vector's control word comes out of reset masked. -/
def Events.msixWord (e : Events) (i : Nat) : W32 :=
  match Smap.find? e.msixTable i with
  | some w => w
  | none => if i % 4 = 3 then 1 else 0

/-- The MSI-X capability and the vector's own mask let a message go. -/
def Events.mayGo (e : Events) (v : Nat) : Bool :=
  e.msixEnable && !e.msixMask && !bitAt (e.msixWord (4 * v + 3)) 0

/-- A vector whose set has become non-empty sends a message, or holds it in the pending bit array
while it is masked; a vector whose set is empty holds none. -/
def State.deliverEvents (s : State) : State :=
  let full := s.fullVectors
  let want := (s.ev.msixPba &&& full) ||| (full &&& ~~~ s.ev.full)
  let go := (List.range 64).filter fun v => bitAt want v && s.ev.mayGo v
  { s with ev := { s.ev with
    full := full
    msixPba := go.foldl (fun m v => setBit m v false) want
    sent := s.ev.sent ++ go } }

/-! ### Occurrences and timeouts (R422, R423, R432) -/

/-- One occurrence on the management path: its count, its pending bit, and the latch of the control
core's input it is routed to. -/
def State.manage (s : State) (e : Nat) : State :=
  let m := Smap.get ⟨0, false⟩ s.ev.mgmt e
  let s : State := { s with ev := { s.ev with mgmt := Smap.upsert s.ev.mgmt e ⟨m.occ + 1, true⟩ } }
  match Smap.find? s.ev.routes e with
  | some r => s.modChan (chnOf (r.toNat / 8)) fun ch =>
      { ch with core := { ch.core with evin := setBit ch.core.evin (r.toNat % 8) true } }
  | none => s

/-- The occurrence raised first and not yet counted reaches both paths. -/
def State.occur (s : State) : State :=
  match s.ev.raised with
  | [] => s
  | e :: rest =>
    let s : State := { s with ev := { s.ev with raised := rest } }
    ((s.manage e).modEv e fun v => v.occur s.tide.count).deliverEvents

def execEventOccurrence (s : State) : Host.Outcome State Fault Refusal := .next s.occur

/-- TIMEOUT boundaries have passed since the first occurrence. -/
def Ev.timedOut (v : Ev) : Bool := v.seen && v.timeout ≠ 0 && decide (v.timeout.toNat ≤ v.ticks)

def State.expireEvent (s : State) (e : Nat) : State :=
  if (s.evOf e).timedOut then (s.modEv e fun v => { v with pend := true }).deliverEvents else s

def execEventTimeout (e : Nat) (s : State) : Host.Outcome State Fault Refusal := .next (s.expireEvent e)

/-! ### Claims (R427) -/

/-- The lowest deliverable event of a vector. -/
def State.claimable (s : State) (v : Nat) : Option (Nat × Ev) :=
  List.find? (fun (e : Nat × Ev) => evValid e.1 && e.2.deliverable && decide (e.2.vector.toNat = v)) s.ev.evs

/-- `EVC_HCLAIMv` as a claim returns it. -/
def claimWord (e occ : Nat) (first : W64) : W64 := w64 (e + 2 ^ 16 * occ + 2 ^ 32 * (first.toNat % 2 ^ 32))

/-- BAR0 offset of `EVC_HCLAIMv`. -/
def claimOffset (v : Nat) : Nat := 0x00050400 + 8 * v

/-- A claim: the value read, and the state after. -/
def State.claim (s : State) (v : Nat) : State × W64 :=
  match s.claimable v with
  | some (e, x) => ((s.modEv e Ev.clear).deliverEvents, claimWord e x.occ.toNat x.first)
  | none => ({ s with ev := { s.ev with spur := satInc s.ev.spur } }, claimWord 0x3FF 0 0)

/-- A read of 4 bytes claims too and latches the high word. -/
def execEventClaim (v : Fin 64) (wide : Bool) (s : State) : Host.Outcome State Fault Refusal :=
  let r := s.claim v.val
  .next (if wide then { r.1 with cxl := { r.1.cxl with readData := r.2 } }
    else { r.1 with cxl := { r.1.cxl with
      readData := r.2 &&& 0xFFFFFFFF
      latched := Smap.upsert r.1.cxl.latched (claimOffset v.val + 4) (fld r.2 32 32) } })

/-! ### Set, clear and window addresses (R428, R430) -/

/-- Change the events of word `k` by their bits of `w`. -/
def State.evWord (s : State) (k : Nat) (w : W32) (f : Bool → Ev → Ev) : State :=
  ((List.range 32).foldl (fun s j => s.modEv (32 * k + j) (f (bitAt w j))) s).deliverEvents

def Ev.setPend (b : Bool) (v : Ev) : Ev := if b then { v with pend := true } else v
def Ev.clrPend (b : Bool) (v : Ev) : Ev := if b then v.clear else v
def Ev.setMask (b : Bool) (v : Ev) : Ev := if b then { v with masked := true } else v
def Ev.clrMask (b : Bool) (v : Ev) : Ev := if b then { v with masked := false } else v
def Ev.putPend (b : Bool) (v : Ev) : Ev := if b then { v with pend := true } else v.clear
def Ev.putMask (b : Bool) (v : Ev) : Ev := { v with masked := b }

def execEvcPendSet (k : Fin 32) (w : W32) (s : State) : Host.Outcome State Fault Refusal :=
  .next (s.evWord k.val w Ev.setPend)
def execEvcPendClr (k : Fin 32) (w : W32) (s : State) : Host.Outcome State Fault Refusal :=
  .next (s.evWord k.val w Ev.clrPend)
def execEvcMaskSet (k : Fin 32) (w : W32) (s : State) : Host.Outcome State Fault Refusal :=
  .next (s.evWord k.val w Ev.setMask)
def execEvcMaskClr (k : Fin 32) (w : W32) (s : State) : Host.Outcome State Fault Refusal :=
  .next (s.evWord k.val w Ev.clrMask)
def execEvcPendWindowWrite (k : Fin 32) (w : W32) (s : State) : Host.Outcome State Fault Refusal :=
  .next (s.evWord k.val w Ev.putPend)
def execEvcMaskWindowWrite (k : Fin 32) (w : W32) (s : State) : Host.Outcome State Fault Refusal :=
  .next (s.evWord k.val w Ev.putMask)

/-! ### Configuration (R433) -/

/-- `EVC_CFGe` as it reads. -/
def Ev.config (v : Ev) : W64 :=
  w64 (v.count.toNat + 2 ^ 16 * v.timeout.toNat + 2 ^ 48 * v.vector.toNat + 2 ^ 54 * boolBit v.enable)

/-- Its fields written; a 0 put into ENABLE clears PEND and OCC. -/
def Ev.configure (put : Bool) (w : W64) (v : Ev) : Ev :=
  let v : Ev := { v with
    count := fld w 0 16, timeout := fld w 16 32, vector := fld w 48 6, enable := bitAt w 54 }
  if v.enable || !put then v else v.clear

/-- A write of `EVC_CFGe`; `put` says that it reaches ENABLE (R536). The entry of 0x3FF is reserved. -/
def State.writeCfg (s : State) (e : Nat) (put : Bool) (w : W64) : State :=
  if evValid e then (s.modEv e (Ev.configure put w)).deliverEvents else s

def State.configEvent (s : State) (e : Nat) (w : W64) : State := s.writeCfg e true w

def execEvcCfgWrite (e : Nat) (w : W64) (s : State) : Host.Outcome State Fault Refusal := .next (s.configEvent e w)

/-! ### The management cores' side (R422, R431) -/

/-- A management core claims the lowest event that is pending on the management path. -/
def State.mgmtClaim (s : State) (e : Nat) : State :=
  { s with ev := { s.ev with mgmt := Smap.upsert s.ev.mgmt e ⟨0, false⟩ } }

/-- A sleeping management core wakes once some event is pending on the management path, for any of the four
cores and whatever its own interrupt mask; with its mask clear it takes an interrupt too. An awake one
claims one event, and executes its wait-for-event instruction when none is pending (DESIGN CHOICE, log 89).
Nothing is claimed while the management complex switches. -/
def State.wake (s : State) (n : Nat) : State :=
  let next := List.find? (fun (e : Nat × MgmtEv) => e.2.pend) s.ev.mgmt
  if bitAt s.ev.asleep n then
    if next.isSome then
      { s with ev := { s.ev with
        asleep := setBit s.ev.asleep n false
        mgmtIrq := if bitAt s.ev.mgmtMask n then s.ev.mgmtIrq else setBit s.ev.mgmtIrq n true } }
    else s
  else if s.svc.mgmtSwitch then s
  else
    match next with
    | some e => s.mgmtClaim e.1
    | none => { s with ev := { s.ev with
        asleep := setBit s.ev.asleep n true, mgmtIrq := setBit s.ev.mgmtIrq n false } }

def execMgmtWake (core : Fin 4) (s : State) : Host.Outcome State Fault Refusal := .next (s.wake core.val)

end Sys2Proof.Machine
end

