-- ==== Sys2Proof/Machine/Accept.lean ====
section
/-! DEFINITION. The command window (R380 to R397): writes that reach it, the watch, the clamps of a
packet's fields, absent units, resources, the order in which commands begin, and completion. -/
namespace Sys2Proof.Machine

/-! ### Parameter fields (R394, R395, R398 to R400) -/

/-- A parameter: byte offset, bytes, least and greatest value. -/
structure PField where
  off : Nat
  size : Nat
  lo : Nat
  hi : Nat
  deriving DecidableEq, Repr

/-- A parameter that every value fits, and one with a greatest value. -/
def pAny (off size : Nat) : PField := ⟨off, size, 0, 2 ^ (8 * size) - 1⟩
def pMax (off size hi : Nat) : PField := ⟨off, size, 0, hi⟩

def PField.clamp (f : PField) (v : Nat) : Nat := max f.lo (min f.hi v)

/-- VARIANT of ADOPT_FALLBACK: 0 to 4, or 0xFF; another value goes to the nearer of the two. -/
def clampAdopt (v : Nat) : Nat := if v ≤ 4 || v = 0xFF then v else if v ≤ 129 then 4 else 0xFF

def opIDENTIFY : Nat := 0x0001
def opFEATURES : Nat := 0x0002
def opLOAD : Nat := 0x0010
def opVERIFY : Nat := 0x0011
def opBIND : Nat := 0x0012
def opATTEST : Nat := 0x0060
def opSEAL : Nat := 0x0061
def opEVENT : Nat := 0x0080
def opCLEAR : Nat := 0x0081
def opDUMP : Nat := 0x0082
def opSTREAM : Nat := 0x0025
def opADOPT : Nat := 0x0041
def opPAIR : Nat := 0x0071
def opFREQ : Nat := 0x0030
def opSLACK : Nat := 0x0031
def opSUBST : Nat := 0x0043
def opSTAGE : Nat := 0x0050
def opACTIVATE : Nat := 0x0051
def opCALIBRATE : Nat := 0x0052
def opRETRAIN : Nat := 0x0053

/-- The parameters of an opcode, in the order in which its clamp bits count; `none` for an opcode that
the tables do not list. -/
def Cmd.fields (c : Cmd) : Option (List PField) :=
  let op := c.opcode
  if op = opIDENTIFY || op = opFEATURES || op = opSEAL then some [pAny 0 8, pAny 8 4]
  else if op = opLOAD || op = opVERIFY || op = opSTAGE then some [pAny 0 8, pAny 8 8]
  else if op = opBIND then some [pMax 0 1 4]
  else if op = opATTEST then some [pAny 0 8, pAny 8 4, pAny 16 32]
  else if op = opEVENT then some [pMax 0 2 0x3FE, ⟨2, 2, 1, 65535⟩, pAny 4 4, pMax 8 2 63, pMax 10 1 1]
  else if op = opCLEAR || op = opRESUME || op = opACTIVATE then some []
  else if op = opDUMP then some [pMax 0 1 3, pAny 1 1, pAny 8 8, pAny 16 8]
  else if op = opSTART then some [pAny 0 1, pAny 8 32]
  else if op = opSTOP then some [pAny 0 1, pMax 1 1 1, pAny 2 1]
  else if op = opSTOPAFTER then some [pAny 0 1, pAny 8 8]
  else if op = opSAVE then some [pMax 0 1 1]
  else if op = opSTREAM then some [pMax 0 1 3, pMax 1 1 (if c.par 2 1 = 0 then 63 else 31), pMax 2 1 1]
  else if op = opRETIRE then some [pMax 0 1 3]
  else if op = opADOPT then some [pAny 0 1]
  else if op = opRESET then some [pAny 0 1]
  else if op = opPAIR then some [pMax 0 1 2, pMax 1 1 7, pMax 2 1 0xFE, pMax 3 1 0xFE, pAny 8 8, pAny 16 8]
  else if op = opFREQ then some ([pMax 0 1 4, pMax 1 1 1, pAny 2 1] ++
    (List.range (min 4 (c.par 0 1))).flatMap fun i => [pAny (8 + 16 * i) 8, pMax (16 + 16 * i) 1 16])
  else if op = opSLACK then some [pAny 0 2, pMax 2 1 1, pAny 3 1]
  else if op = opTIDEROLE then some [pMax 0 1 2, pMax 1 1 1, pMax 2 1 0xFE]
  else if op = opSUBST then some [pMax 0 1 3, pMax 1 1 81]
  else if op = opCALIBRATE then some [pMax 0 1 36]
  else if op = opRETRAIN then some [pMax 0 1 7]
  else none

/-- Parameter `i`, clamped. -/
def Cmd.arg (c : Cmd) (i : Nat) : Nat :=
  match (c.fields.getD [])[i]? with
  | some f => if c.opcode = opADOPT then clampAdopt (c.par f.off f.size) else f.clamp (c.par f.off f.size)
  | none => 0

/-- The clamp bits that the packet alone decides: fields outside their ranges, and PLEN. -/
def Cmd.packetClamp (c : Cmd) : W32 :=
  let m := (c.fields.getD []).zipIdx.foldl (fun (m : W32) f =>
    if c.arg f.2 = c.par f.1.off f.1.size then m else setBit m f.2 true) 0
  setBit m 31 (decide (192 < packetPlen c.packet))

/-! ### Absent units (R3, R392, R394) -/

/-- Events of units that VT8-3 lacks (R420). -/
def absentEvent (e : Nat) : Bool :=
  (0x040 ≤ e && e ≤ 0x04F) || (0x068 ≤ e && e ≤ 0x06F) || (0x1C0 ≤ e && e ≤ 0x1FF)

/-- A STOP whose order goes on the line names no channel of this part. -/
def Cmd.lineStop (c : Cmd) : Bool := c.opcode = opSTOP && c.hasMark && decide (c.arg 1 = 1)

def State.namesAbsent (s : State) (c : Cmd) : Bool :=
  let op := c.opcode
  if op = opSTART || op = opSTOP || op = opSTOPAFTER || op = opRESET then
    !c.lineStop && (List.range 4).any fun i => c.arg 0 / 2 ^ i % 2 = 1 && !bitAt (BitVec.ofNat 8 s.chEn) i
  else if op = opDUMP || op = opSTREAM || op = opRETIRE || op = opSUBST then !s.hasChan (chnOf (c.arg 0))
  else if op = opCALIBRATE then !s.hasRegion (c.arg 0)
  else if op = opRETRAIN then !s.hasStack (c.arg 0)
  else if op = opEVENT then !s.four && absentEvent (c.arg 0)
  else false

/-! ### Resources and order (R396) -/

/-- The channels that a mask names. -/
def State.named (s : State) (m : Nat) : List Chn := s.channels.filter fun c => bitAt (BitVec.ofNat 4 m) c.val

def rcIMG : Nat := 0
def rcFLASH : Nat := 1
def rcFW : Nat := 2
def rcTIDE : Nat := 3
def rcPAIR : Nat := 4
def rcSTK (n : Nat) : Nat := 8 + n
def rcCH (c : Chn) : Nat := 16 + c.val

/-- What a command holds. -/
def State.holds (s : State) (c : Cmd) : List Nat :=
  let op := c.opcode
  let all := s.bound.map rcCH
  if op = opLOAD || op = opBIND || op = opRETIRE || op = opADOPT then rcIMG :: all
  else if op = opSEAL || op = opSAVE || op = opRESUME then all
  else if op = opSTART || op = opRESET then (s.named (c.arg 0)).map rcCH
  else if op = opSUBST then [rcCH (chnOf (c.arg 0))]
  else if op = opPAIR then [rcPAIR]
  else if op = opFREQ || op = opSLACK || op = opTIDEROLE then [rcTIDE]
  else if op = opSTAGE then [rcFLASH]
  else if op = opACTIVATE then [rcFW, rcFLASH]
  else if op = opRETRAIN then [rcSTK (c.arg 0)]
  else []

/-- Commands that write a host buffer; they wait while the link is down (R439). -/
def Cmd.needsHost (c : Cmd) : Bool :=
  c.opcode = opIDENTIFY || c.opcode = opFEATURES || c.opcode = opATTEST || c.opcode = opSEAL || c.opcode = opDUMP

/-- A rollback under way: commands that restore do not begin before it ends (log 47). -/
def State.rollingNow (s : State) : Bool := s.recov.rolling ≠ .none

def Cmd.restores (c : Cmd) : Bool := c.opcode = opRESUME || c.opcode = opRETIRE || c.opcode = opADOPT

/-- A reset or a retirement overtakes a START or RESUME that waits for its release, and a SAVE whose save
point has not begun (R397). -/
def State.overtakes (s : State) (c e : Cmd) : Bool :=
  (c.opcode = opRESET || c.opcode = opRETIRE) && e.begun &&
    (e.opcode = opSTART || e.opcode = opRESUME || (e.opcode = opSAVE && !s.recov.saveActive))

/-- Whether a command may begin after those before it. -/
def State.mayBegin (s : State) (before : List Cmd) (c : Cmd) : Bool :=
  !c.begun && !c.finished && (s.cxl.up || !c.needsHost) && !(c.restores && s.rollingNow) &&
    before.all fun e => e.finished || s.overtakes c e || (s.holds e).all fun r => !(s.holds c).contains r

/-- The command that begins next: the first in acceptance order that may. -/
def State.firstFree (s : State) : List Cmd → List Cmd → Option Cmd
  | _, [] => none
  | before, c :: cs => if s.mayBegin before c then some c else State.firstFree s (before ++ [c]) cs

/-- Commands wait while the management complex switches its firmware (R512). -/
def State.nextCmd (s : State) : Option Cmd :=
  if s.svc.mgmtSwitch then none else s.firstFree [] s.cmd.accepted

/-- Begin the command of sequence `seq` with opcode `op`, when it is its turn. -/
def State.onCmd (s : State) (op : Nat) (seq : W64) (f : State → Cmd → State) : State :=
  match s.nextCmd with
  | some c =>
    if c.seq = seq && c.opcode = op then f (s.modCmd seq fun c => { c with begun := true }) { c with begun := true }
    else s
  | none => s

/-- A command completes with a status, a reason and a result. -/
def State.finish (s : State) (c : Cmd) (status reason : Nat) (result : BitVec 192) : State :=
  s.modCmd c.seq fun _ => { c with
    begun := true
    finished := true
    status := BitVec.ofNat 16 status
    reason := BitVec.ofNat 16 reason
    result := result }

def State.done (s : State) (c : Cmd) (result : BitVec 192) : State := s.finish c c.okStatus 0 result

def State.abort (s : State) (c : Cmd) (reason : Nat) : State := s.finish c stABORTED reason resNone

/-- A command goes on to wait, with its notes changed. -/
def State.keepCmd (s : State) (c : Cmd) : State := s.modCmd c.seq fun _ => c

/-- A field was clamped when the command began. -/
def Cmd.clamped (c : Cmd) (bit : Nat) (b : Bool) : Cmd := if b then { c with clamp := setBit c.clamp bit true } else c

/-! ### The write watch (R381, R382, R384) -/

/-- The HDM offset of the slot of a sequence. -/
def State.slotAt (s : State) (seq : W64) : Nat := s.cmd.winBase.toNat + 256 * (seq.toNat % 4096)

/-- A write of the line at `off` is seen: its slot's origin is noted, and the expected slot is due for
examination. -/
def State.watch (s : State) (off : Nat) (reqId : W16) : State :=
  let base := s.cmd.winBase.toNat
  if base ≤ off && off < base + 0x100000 then
    let slot := (off - base) / 256
    let peer := s.cmd.peerEn && reqId = s.cmd.peerId
    let marked := s.cmd.fromPeer.filter fun n => decide (n ≠ slot)
    { s with cmd := { s.cmd with
      fromPeer := if peer then insertNat marked slot else marked
      examine := s.cmd.examine || slot = s.cmd.next.toNat % 4096 } }
  else s

/-- A host write of a 64-byte line (R441 to R445): the enabled bytes land. -/
def State.hostWriteLine (s : State) (off : Nat) (data : BitVec 512) (enables : W64) (reqId : W16)
    (poison : Bool) : State :=
  let a := off / 64 * 64
  if !s.cxl.memActive || !(s.hostAccess off).2 then s.hdmError off
  else if s.stackWait false a then s
  else
    let ws := (List.range 64).filterMap fun i =>
      if bitAt enables i then some (ByteWrite.plain (a + i) (BitVec.allOnes 8) (fld data (8 * i) 8) poison) else none
    if ws.isEmpty then s else (s.land ws).watch a reqId

def execCxlMemWrite (off : Nat) (data : BitVec 512) (enables : W64) (reqId : W16) (poison : Bool) (s : State) :
    Host.Outcome State Fault Refusal :=
  .next (s.hostWriteLine off data enables reqId poison)

/-! ### Acceptance (R382 to R388, R391, R412 to R414) -/

def Cmd.fresh (seq : W64) (packet : BitVec 2048) : Cmd where
  seq := seq
  packet := packet
  origin := 0
  accept := 0
  clamp := 0
  begun := false
  finished := false
  status := 0
  reason := 0
  result := resNone
  memo := 0

/-- CRC-32C over bytes 0 to 27 and the parameters, PLEN clamped (R385). -/
def packetCrc (x : BitVec 2048) : W32 :=
  crc32c (bytesLE 28 x.toNat ++ bytesLE (min 192 (packetPlen x)) (x.toNat >>> 256))

def packetGood (x : BitVec 2048) : Bool := packetCrc x = fld x 224 32

/-- The parameter digest (R414): PLEN as received, up to the slot's end, START's key as zeros. -/
def packetDigest (x : BitVec 2048) : Nat :=
  let y : BitVec 2048 := if fldN x 64 16 = opSTART then setFld x 320 256 0 else x
  ofBytesLE ((sha512Bytes (bytesLE 28 y.toNat ++ bytesLE (min 224 (packetPlen x)) (y.toNat >>> 256))).take 8)

/-- Held replies, and the replies of incomplete commands (R391). -/
def CmdRegs.pendingCount (c : CmdRegs) : Nat := c.accepted.length + c.held.length

/-- A reply (R390). -/
def replyBytes (seq op status clamp accept tick result reason : Nat) : BitVec 512 :=
  BitVec.ofNat 512 (withCrc 64 (seq + 2 ^ 64 * op + 2 ^ 80 * status + 2 ^ 96 * clamp + 2 ^ 128 * accept +
    2 ^ 192 * tick + 2 ^ 256 * result + 2 ^ 448 * reason))

/-- The slot of the next expected sequence, as the watch reads it. -/
def State.slotBytesAt (s : State) : BitVec 2048 :=
  BitVec.ofNat 2048 (ofBytesLE ((List.range 256).map fun i => s.mem.hdm.goodByte (s.slotAt s.cmd.next + i)))

/-- The origin of a slot's packet. -/
def State.originOf (s : State) (seq : W64) : Byte :=
  if s.cmd.fromPeer.contains (seq.toNat % 4096) then 1 else 0

/-- An unknown opcode and an absent unit end the command as it is accepted. -/
def State.judge_ (s : State) (c : Cmd) : Cmd :=
  if c.fields.isNone then c.fail stUNSUPPORTED 0
  else if s.namesAbsent c then c.fail stABSENT 0
  else c

/-- The watch accepts a packet. -/
def State.accept (s : State) (x : BitVec 2048) : State :=
  let seq := s.cmd.next
  let c0 : Cmd := { Cmd.fresh seq x with origin := s.originOf seq, accept := s.tide.count }
  let c := s.judge_ { c0 with clamp := c0.packetClamp }
  let s : State := { s with cmd := { s.cmd with
    next := seq + 1, accepted := s.cmd.accepted ++ [c], seenCrc := [], examine := true } }
  let s := if c.opcode = opSTART then s.partWrite 8 (plainWrites (s.slotAt seq + 40) (List.replicate 32 0)) else s
  (s.journal (jrec seq.toNat c.opcode c.origin.toNat 0 0 0 c.accept.toNat (2 ^ 64 - 1) c.clamp.toNat
    (packetDigest x))).ringHeader

/-- The clamp mask of a packet that is not accepted: its PLEN alone was looked at (R395). -/
def plenClamp (x : BitVec 2048) : Nat := if 192 < packetPlen x then 2 ^ 31 else 0

/-- A packet of the expected sequence whose CRC fails: answered once for each value of its CRC field. -/
def State.badCrc (s : State) (x : BitVec 2048) : State :=
  let crc := fld x 224 32
  let tick := s.tide.count.toNat
  let seq := s.cmd.next.toNat
  let s : State := { s with cmd := { s.cmd with crcBad := satInc s.cmd.crcBad, examine := false } }
  if s.cmd.seenCrc.contains crc then s
  else
    let s := ({ s with cmd := { s.cmd with seenCrc := s.cmd.seenCrc ++ [crc] } } : State).journal
      (jrec seq (fldN x 64 16) (s.originOf s.cmd.next).toNat 2 stCRC 0 tick tick (plenClamp x) (packetDigest x))
    s.reply (replyBytes seq (fldN x 64 16) stCRC (plenClamp x) tick tick resNone.toNat 0)

/-- Whether the watch may accept. -/
def State.watchOpen (s : State) : Bool :=
  s.cmd.ready && s.cmd.enable && !s.cxl.quiescing && !s.cxl.quiesced && decide (s.cmd.pendingCount < 4096)

/-- Examine the slot of the next expected sequence. A slot seen while the watch may not accept stays
due. -/
def State.examineSlot (s : State) : State :=
  if !s.cmd.examine || !s.watchOpen || s.stackWait true (s.slotAt s.cmd.next) then s
  else
    let x := s.slotBytesAt
    let s := s.checkHdm ((List.range 256).map (s.slotAt s.cmd.next + ·))
    if fld x 0 64 ≠ s.cmd.next then { s with cmd := { s.cmd with examine := false } }
    else if packetGood x then s.accept x
    else s.badCrc x

def execCommandSlotExamine (s : State) : Host.Outcome State Fault Refusal := .next s.examineSlot

/-! ### Completion (R396, R399, R404, R405, R412) -/

/-- The channels of a command's mask. -/
def State.maskOf (s : State) (c : Cmd) : List Chn := s.named (c.arg 0)

def State.busyChan (s : State) (c : Chn) : Bool := (s.chan c).gate.st = .running || (s.chan c).gate.st = .gate

/-- A STOP ends when no named channel runs any more. -/
def State.pollStop (s : State) (c : Cmd) : State :=
  let l := s.maskOf c
  if l.any s.busyChan then s
  else if l.any fun d => (s.chan d).gate.st = .held then s.finish c stFAULTED rsHELD resNone
  else s.done c (resOne 32 1 (bits4 (l.filter fun d => (s.chan d).gate.st = .stopped)).toNat)

/-- `CHn_BLKSEQ` of the lowest channel of a list. -/
def State.lowSeq (s : State) (l : List Chn) : Nat :=
  match l with
  | d :: _ => (s.chan d).gate.lastSeq.toNat
  | [] => 0

def State.pollStopAfter (s : State) (c : Cmd) : State :=
  let l := s.maskOf c
  if l.all fun d => (s.chan d).gate.st = .stopped then
    let r := resOne 32 8 (s.lowSeq l)
    if l.all fun d => (s.chan d).gate.stopCause = 2 then s.done c r else s.finish c stABORTED rsWITHDRAWN r
  else s

def State.pollReset (s : State) (c : Cmd) : State :=
  if (s.maskOf c).all fun d => (s.chan d).gate.st = .loaded && (s.chan d).gate.inReset.isNone then s.done c resNone else s

/-- Whether a command that waits on its channels' states has reached its end. -/
def State.pollCmd (s : State) (c : Cmd) : State :=
  if !c.open_ then s
  else if c.opcode = opSTOP then s.pollStop c
  else if c.opcode = opSTOPAFTER then s.pollStopAfter c
  else if c.opcode = opRESET then s.pollReset c
  else s

def State.cmdOf (s : State) (seq : W64) : Option Cmd := s.cmd.accepted.find? fun c => c.seq = seq

/-- The tick of completion: that of acceptance for a command that did nothing at all. -/
def State.doneTick (s : State) (c : Cmd) : W64 :=
  if c.status.toNat = stUNSUPPORTED || c.status.toNat = stABSENT then c.accept else s.tide.count

/-- The completion entry, and then the reply. -/
def State.answerCmd (s : State) (c : Cmd) : State :=
  let tick := (s.doneTick c).toNat
  let s := s.journal (jrec c.seq.toNat c.opcode c.origin.toNat 1 c.status.toNat c.reason.toNat c.accept.toNat tick
    c.clamp.toNat (packetDigest c.packet))
  let s : State := { s with cmd := { s.cmd with accepted := s.cmd.accepted.filter fun x => decide (x.seq ≠ c.seq) } }
  s.reply (replyBytes c.seq.toNat c.opcode c.status.toNat c.clamp.toNat c.accept.toNat tick c.result.toNat
    c.reason.toNat)

/-- A command that has reached its end completes. -/
def State.completeCmd (s : State) (seq : W64) : State :=
  match s.cmdOf seq with
  | none => s
  | some c =>
    let s := s.pollCmd c
    match s.cmdOf seq with
    | some c => if c.finished then s.answerCmd c else s
    | none => s

def execCommandComplete (seq : W64) (s : State) : Host.Outcome State Fault Refusal := .next (s.completeCmd seq)

/-! ### The reply ring (R391, R417, R418) -/

/-- A write of `CMDW_RING_CTL`. -/
def State.writeRingCtl (s : State) (w : W32) : State :=
  let on := bitAt w 31
  let c := s.cmd
  let s : State := { s with cmd := { c with ringLog2 := if c.enable then c.ringLog2 else fld w 0 5, enable := on } }
  if on && !c.enable then
    let s := ({ s with cmd := { s.cmd with prod := 0, cons := 0 } } : State).ringHeader
    State.pumpReplies s s.cmd.held.length
  else s

def execReplyRingEnable (w : W32) (s : State) : Host.Outcome State Fault Refusal := .next (s.writeRingCtl w)

/-- A write of `CMDW_REPLY_CONS`: one below PROD − ring size or above PROD is ignored. -/
def State.writeReplyCons (s : State) (w : W64) : State :=
  if w.toNat ≤ s.cmd.prod.toNat && s.cmd.prod.toNat ≤ w.toNat + s.cmd.ringSize then
    let s : State := { s with cmd := { s.cmd with cons := w } }
    State.pumpReplies s s.cmd.held.length
  else s

def execReplyConsWrite (w : W64) (s : State) : Host.Outcome State Fault Refusal := .next (s.writeReplyCons w)

end Sys2Proof.Machine
end

