-- ==== Sys2Proof/Machine/GateRows.lean ====
section
/-! DEFINITION. The rows that take a channel through its gate. An order acts at its mark (R38, R39, R41):
halts, steps and windows that are due act before any of these. -/
namespace Sys2Proof.Machine

def execGateClose (c : Chn) (s : State) : Host.Outcome State Fault Refusal :=
  s.onChan c fun s => s.applyMarks.closeGate c

def execJointReady (c : Chn) (s : State) : Host.Outcome State Fault Refusal :=
  s.onChan c fun s => s.applyMarks.reportReady c

def execGateCheckPass (c : Chn) (s : State) : Host.Outcome State Fault Refusal :=
  s.onChan c fun s => s.applyMarks.checkPass c

def execSavePointWrite (c : Chn) (s : State) : Host.Outcome State Fault Refusal :=
  s.onChan c fun s => s.applyMarks.writeSave c

def execRollback (s : State) : Host.Outcome State Fault Refusal := .next s.applyMarks.runRollback

def execSlackTaskEnd (t : SlackTask) (s : State) : Host.Outcome State Fault Refusal :=
  .next (s.applyMarks.endTask t)

end Sys2Proof.Machine
end

