-- ==== Sys2Proof/Machine/InfoCmds.lean ====
section
/-! DEFINITION. The information and state commands (R398): identity, features, attestation, receipts,
events, faults and dumps. -/
namespace Sys2Proof.Machine

/-! ### Result buffers (R34, R393, R410) -/

/-- Bytes go to a host buffer by DMA up to the first page whose DMA fails; whether all went. -/
def State.hostDma (s : State) (a : Nat) (bs : List Byte) : State × Bool :=
  let good := (bs.zipIdx.takeWhile fun b => !s.host.bad.contains ((a + b.2) / 4096)).map Prod.fst
  (s.hostPut a good, decide (good.length = bs.length))

/-- Write a command's data and complete it. -/
def State.deliverBuf (s : State) (c : Cmd) (a : Nat) (bs : List Byte) (result : BitVec 192) : State :=
  match s.hostDma a bs with
  | (s, true) => s.done c result
  | (s, false) => s.finish c stFAULTED rsHOSTDMA resNone

/-! ### IDENTIFY and QUERY_FEATURES (R398, R401) -/

def identifyRow (s : State) (c : Cmd) : State :=
  let n := min 512 (c.arg 1)
  let c := c.clamped 1 (512 < c.arg 1)
  s.deliverBuf c (c.arg 0) (s.identityBlock.take n)
    (resSet (resSet (resSet (resOne 32 4 n) 36 1 s.grade) 37 1 0xB0) 38 1 s.chEn)

/-- The feature registers (R210), 0 to 6. -/
def State.featReg (s : State) (i : Nat) : W32 :=
  let n := if s.four then 4 else 3
  w32 (match i with
  | 0 => 0xB0010101
  | 1 => s.chEn + 2 ^ 4 * s.grade + 2 ^ 8 * 32 + 2 ^ 14 * 80 + 2 ^ 21 * 82
  | 2 => 1024 + 2 ^ 11 * 512 + 2 ^ 21 * 3 + 2 ^ 24 * 8 + 2 ^ 28 * 3
  | 3 => 3 + 2 ^ 2 * 4096 + 2 ^ 15 * 512
  | 4 => 32768 * n
  | 5 => 1024 * n + 2 ^ 13 * (256 * n)
  | 6 => 16 + 2 ^ 5 * 500 + 2 ^ 16 * 31250
  | _ => 0)

/-- The table sizes of R24. -/
def State.tableSizes (s : State) : List Nat :=
  let n := if s.four then 4 else 3
  [262144, 65536, 32768 * n, 1024 * n, 256 * n, 1024, 4096, 1048576, 4096]

def State.featureBlock (s : State) : List Byte :=
  (List.range 7).flatMap (fun i => bytesLE 4 (s.featReg i).toNat) ++ s.tableSizes.flatMap (bytesLE 4)

def featuresRow (s : State) (c : Cmd) : State :=
  let n := min 64 (c.arg 1)
  let c := c.clamped 1 (64 < c.arg 1)
  s.deliverBuf c (c.arg 0) (s.featureBlock.take n) (resOne 32 4 n)

def execIdentify (seq : W64) (s : State) : Host.Outcome State Fault Refusal :=
  .next (s.onCmd opIDENTIFY seq identifyRow)
def execQueryFeatures (seq : W64) (s : State) : Host.Outcome State Fault Refusal :=
  .next (s.onCmd opFEATURES seq featuresRow)

/-! ### ATTEST (R494) -/

def attestRow (s : State) (c : Cmd) : State :=
  let r := s.report (bytesLE 32 (c.arg 2))
  if c.arg 1 < r.length then s.finish c stABORTED rsSHORT (resOne 36 4 r.length)
  else
    let c := c.clamped 1 (r.length < c.arg 1)
    s.deliverBuf c (c.arg 0) r (resOne 32 4 r.length)

def execAttest (seq : W64) (s : State) : Host.Outcome State Fault Refusal := .next (s.onCmd opATTEST seq attestRow)

/-! ### SEAL_RECEIPT (R265 to R269) -/

/-- A channel's pending record is made, as if RECORD had been set at its last gate. -/
def State.sealChan (s : State) (c : Chn) : State :=
  let p := (s.chan c).chain.pend
  if p.folded = 0 then s
  else
    let seq := (s.chan c).gate.seq
    ((s.modGate c fun g => { g with seq := seq - 1 }).makeRecord c p).modGate c fun g => { g with seq := seq }

def Chain.newSegment (ch : Chain) : Chain := { ch with
  parts := [], pend := Pending.reset, segChecked := 0, segUnchecked := 0, segRecords := 0 }

/-- A new segment starts: its flags are clear, but for a pair mode that is in force. -/
def Job.newSegment (j : Job) (start : W64) (pair : Bool) : Job := { j with
  start := start, retired := false, rollback := false, fwChanged := false, imageChanged := false
  coverage := false, pair := pair }

def State.pairMember (s : State) : Bool := s.channels.any fun c => (s.chan c).regs2.pairMember

/-- The receipt is written, and the job goes on as a new segment. -/
def State.sealJob (s : State) (c : Cmd) : State :=
  let set_ := s.bound
  let s := set_.foldl State.sealChan s
  let r := s.receipt set_ c.accept
  let s : State := { s with job := { s.job.newSegment c.accept s.pairMember with
    rcptSeq := s.job.rcptSeq + 1, prev := some (sha512 r), seals := s.job.seals + 1 } }
  let s := set_.foldl (fun s d => s.modChan d fun ch => { ch with chain := ch.chain.newSegment }) s
  s.deliverBuf (c.clamped 1 (528 < c.arg 1)) (c.arg 0) r (resOne 32 8 s.job.rcptSeq.toNat)

def sealRow (s : State) (c : Cmd) : State :=
  if !s.job.active || !s.bound.all fun d => (s.chan d).gate.st = .stopped then s.abort c rsSTATE
  else if c.arg 1 < 528 then s.abort c rsSHORT
  else s.sealJob c

def execSealReceipt (seq : W64) (s : State) : Host.Outcome State Fault Refusal := .next (s.onCmd opSEAL seq sealRow)

/-! ### EVENT_CONFIG and CLEAR_FAULTS (R358, R423) -/

def eventConfigRow (s : State) (c : Cmd) : State :=
  let w := w64 (c.arg 1 + 2 ^ 16 * c.arg 2 + 2 ^ 48 * c.arg 3 + 2 ^ 54 * c.arg 4)
  (s.configEvent (c.arg 0) w).done c resNone

def execEventConfig (seq : W64) (s : State) : Host.Outcome State Fault Refusal :=
  .next (s.onCmd opEVENT seq eventConfigRow)

def clearFaultsRow (s : State) (c : Cmd) : State :=
  let s : State := { s with flt := { s.flt with cons := s.flt.prod, lostBit := false } }
  s.done c (resOne 32 8 s.flt.cons.toNat)

def execClearFaults (seq : W64) (s : State) : Host.Outcome State Fault Refusal :=
  .next (s.onCmd opCLEAR seq clearFaultsRow)

/-! ### DUMP_STATE (R241, R402) -/

/-- `CHn_GATESTAT` (R244). -/
def ChState.code : ChState → Nat
  | .noImage => 0
  | .loaded => 1
  | .running => 2
  | .gate => 3
  | .stopped => 4
  | .held => 5
  | .retired => 6

def State.gateStat (s : State) (c : Chn) : W32 :=
  let g := (s.chan c).gate
  let inGate := decide (g.st = .gate)
  w32 (g.st.code + 2 ^ 3 * boolBit g.joint + 2 ^ 4 * (s.waitBits c).toNat +
    2 ^ 11 * boolBit (inGate && (g.phase = .saving || s.saveWanted c)) + 2 ^ 12 * boolBit (inGate && g.phase = .slack) +
    2 ^ 13 * (if g.st = .stopped then g.stopCause.toNat else 0))

/-- A piece of a dump: plain bytes, or a codeword that the I/O die checks as it sends it (R351, R354). -/
inductive DumpItem where
  | plain (bytes : List Byte)
  | word (w : Coded 1)
  deriving DecidableEq, Repr

/-- What the host receives: a corrected codeword, and zeros in place of a poisoned one. -/
def DumpItem.bytes : DumpItem → List Byte
  | .plain bs => bs
  | .word w => let r := Coded.check w
    if r.1.poison = 0 then bytesLE 16 r.1.data.toNat else List.replicate 16 0

def dumpBytes (l : List DumpItem) : List Byte := l.flatMap DumpItem.bytes

def codedItems {k : Nat} (c : Coded k) : List DumpItem := (List.range k).map fun i => .word (c.part i 1)

/-- A section: code, items, and its bytes behind a header of 16 bytes. -/
def section_ (code items : Nat) (body : List DumpItem) : List DumpItem :=
  .plain (bytesLE 4 code ++ bytesLE 4 items ++ bytesLE 8 (dumpBytes body).length) :: body

def Bank.dump (b : Bank) : List DumpItem :=
  b.rows.toList.flatMap codedItems ++ codedItems b.scale ++ [.plain (bytesLE 2 b.written.toNat ++
    b.checks.toList.flatMap fun e => bytesLE 8 e.1 ++ bytesLE 8 e.2)]

/-- The eight places of a queue: valid bit, tag and beat. -/
def queueDump (q : List QEntry) : List DumpItem :=
  (List.range 8).flatMap fun i => match q[i]? with
    | some e => .plain [1, e.tag.setWidth 8] :: codedItems e.beat
    | none => [.plain (List.replicate 66 0)]

/-- A code page; a bundle that no code set gave is a filler (R211). -/
def pageDump (p : Smap Bundle) : List DumpItem :=
  (List.range 512).flatMap fun i => codedItems (Smap.get (fillBundle i) p i)

/-- The 128 tile rows, shown void (R148, R149): as a void row reads. -/
def voidTiles : List Byte := (List.range (128 * 32)).flatMap fun _ => bytesLE 4 0x7FC00000

/-- One cell. -/
def Cell.dump (c : Cell) : List DumpItem :=
  ((List.range 1024).flatMap fun i => codedItems (Smap.get Coded.zero c.pad i)) ++ c.bankA.dump ++ c.bankB.dump ++
    [.plain (bytesLE 1 (boolBit c.activeB) ++ bytesLE 8 c.cfg.toNat)] ++ c.qin.toList.flatMap queueDump ++
    c.qout.toList.flatMap queueDump ++ [.plain (c.pushCtr.toList.flatMap (fun x => bytesLE 1 x.toNat) ++
    bytesLE 128 c.index.toNat ++ c.bc.toList.flatMap (fun x => bytesLE 4 x.toNat) ++ [c.flags] ++ voidTiles)] ++
    pageDump c.page0 ++ pageDump c.page1

def Core.dump (k : Core) (c : Chn) (mark : W64) : List DumpItem :=
  .plain ((List.range 32).flatMap fun i => bytesLE 8 (k.reg i).toNat) ::
    ((List.range (dmemSize / 16)).map fun i => .word (k.dmem.cw i)) ++
    [.plain (bytesLE 8 c.val ++ bytesLE 8 mark.toNat ++ bytesLE 8 k.evin.toNat)]

def strmDump (x : Option Strm) (pend depth : Nat) : List Byte :=
  let st := x.getD ⟨0, 0, 0, 0, false, none⟩
  bytesLE 2 st.desc ++ bytesLE 1 (boolBit x.isSome) ++ bytesLE 1 pend ++ bytesLE 4 depth ++
    bytesLE 8 st.need.toNat ++ bytesLE 8 st.next ++ bytesLE 8 st.delivered

/-- The channel's records in the log since its last gate that opened. -/
def State.channelFaults (s : State) (c : Chn) : List (BitVec 512) :=
  let n := min 4096 (s.flt.prod - (s.chan c).gate.logFrom).toNat
  ((List.range n).map fun i => Smap.get 0 s.flt.ring ((s.flt.prod.toNat - n + i) % 4096)).filter fun r =>
    fldN r 184 8 = c.val

/-- The section of a code. -/
def State.dumpSection (s : State) (c : Chn) (code : Nat) : List DumpItem :=
  let ch := s.chan c
  match code with
  | 1 => section_ 1 1 [.plain (bytesLE 8 ch.gate.lastSeq.toNat ++ bytesLE 4 (min ch.gate.attempt 0xFFFF) ++
      bytesLE 4 ch.gate.blockIdx ++ bytesLE 8 (s.gateStat c).toNat ++ bytesLE 8 ch.regs.cycles.toNat ++
      bytesLE 8 s.tide.count.toNat)]
  | 2 => section_ 2 1 (ch.core.dump c ch.regs.gateMark)
  | 3 => section_ 3 2560 (cellNums.flatMap fun n => (ch.cell n).dump)
  | 4 => section_ 4 32768 [.plain ((List.range 32768).flatMap (fun i =>
        bytesLE 4 (Smap.get 0 s.sync.counts (32768 * c.val + i)).toNat) ++
      ch.barriers.flatMap (fun b => bytesLE 2 b.1 ++ bytesLE 2 b.2.latched.length ++ b.2.latched.flatMap (bytesLE 2)) ++
      ch.trees.flatMap fun t => bytesLE 2 t.1 ++ bytesLE 2 t.2.set_.length ++ t.2.set_.flatMap (bytesLE 2))]
  | 5 => section_ 5 18 [.plain (ch.ledger.toList.flatMap fun x => bytesLE 8 x.toNat)]
  | 6 => section_ 6 96 [.plain (ch.sq.toList.flatMap (fun q => strmDump q.cur q.pend.length q.beats.length) ++
      ch.dq.toList.flatMap fun q => strmDump q.cur q.pend.length q.beats.length)]
  | 7 => let l := s.channelFaults c
      section_ 7 l.length [.plain (l.flatMap fun r => bytesLE 64 r.toNat)]
  | _ => []

/-- Whole sections as far as they fit. -/
def fitSections : List (List DumpItem) → Nat → List DumpItem
  | [], _ => []
  | x :: xs, n => if (dumpBytes x).length ≤ n then x ++ fitSections xs (n - (dumpBytes x).length) else []

/-- The I/O die checks the codewords that it sends, and raises CODE for each poisoned one, with its place in
the host buffer (R353 to R355). The channel is left as it is. -/
def State.sendItems (s : State) (buf : Nat) (l : List DumpItem) : State :=
  (l.foldl (fun (acc : State × Nat) x =>
    let s := match x with
      | .plain _ => acc.1
      | .word w =>
        let r := (Coded.check w).2
        let s := acc.1.countIod r.ce r.ue
        match r.bad with
        | some (_, now, syn) =>
          s.fault (FaultRec.bare clCode (if now then 1 else 4) 9 unStream (w64 (buf + acc.2)) (w64 syn))
        | none => s
    (s, acc.2 + x.bytes.length)) (s, 0)).1

def dumpRow (s : State) (c : Cmd) : State :=
  let d := chnOf (c.arg 0)
  if (s.chan d).gate.st ≠ .stopped && (s.chan d).gate.st ≠ .held then s.abort c rsSTATE
  else
    let parts := ((List.range 7).filter fun k => bitAt (BitVec.ofNat 8 (c.arg 1)) k).map fun k => s.dumpSection d (k + 1)
    let full := parts.foldl (fun n p => n + (dumpBytes p).length) 0
    let items := fitSections parts (c.arg 3)
    let out := dumpBytes items
    (s.deliverBuf (c.clamped 3 (full < c.arg 3)) (c.arg 2) out
      (resSet (resOne 32 8 out.length) 40 8 full)).sendItems (c.arg 2) items

def execDumpState (seq : W64) (s : State) : Host.Outcome State Fault Refusal := .next (s.onCmd opDUMP seq dumpRow)

end Sys2Proof.Machine
end

