-- ==== Sys2Proof/Machine/Trace.lean ====
section
/-! DEFINITION. What the verifier sees of a running block (R231, R232): its failures, the bundles that its cells
issue cycle by cycle, and the moves, pops and pushes of those bundles. -/
namespace Sys2Proof.Machine

/-! ### Failures -/

/-- A failure: reason code and place, all ones where a field does not apply (R402). -/
structure Viol where
  reason : Nat
  variant : Nat
  chan : Nat
  block : Nat
  cell : Nat
  bundle : Nat
  deriving DecidableEq, Repr

def vrREVISION : Nat := 0x01
def vrABSENT : Nat := 0x02
def vrCROSSING : Nat := 0x03
def vrCOLLECTOR : Nat := 0x04
def vrBANK : Nat := 0x05
def vrTILE : Nat := 0x06
def vrLEDGER : Nat := 0x07
def vrGATELIST : Nat := 0x08
def vrLENGTH : Nat := 0x09
def vrLOOP : Nat := 0x0A
def vrENCODING : Nat := 0x0B
def vrBARRIER : Nat := 0x0C
def vrJOINT : Nat := 0x0D
def vrTABLE : Nat := 0x0E
def vrSIZE : Nat := 0x0F
def vrORDER : Nat := 0x10
def vrFALLBACK : Nat := 0x11

def Viol.at_ (reason : Nat) : Viol := ⟨reason, 0, 0xFF, 0xFFFFFFFF, 0xFFFF, 0xFFFF⟩

def Viol.inChan (reason c : Nat) : Viol := { Viol.at_ reason with chan := c }

def Viol.inBlock (reason b : Nat) : Viol := { Viol.at_ reason with block := b }

def Viol.inCell (reason : Nat) (b : Nat) (k : CellId) (a : Nat) : Viol :=
  { Viol.at_ reason with block := b, chan := k.ch.val, cell := k.num, bundle := a }

/-- A check: nothing, or its failure. -/
def orFail (ok : Bool) (v : Viol) : Option Viol := if ok then none else some v

/-- The first failure of a list of checks. -/
def firstOf (l : List (Option Viol)) : Option Viol := l.findSome? id

def chans4 : List Chn := [0, 1, 2, 3]

def chansOf (m : BitVec 4) : List Chn := chans4.filter fun c => bitAt m c.val

def sumN (l : List Nat) : Nat := l.foldl (· + ·) 0

/-! ### The trace of a block -/

/-- The part as a block starts on it with nothing but the code of the cells its code set gives. -/
def State.traceStart (s : State) (p : ImagePart) (b : BEntry) (cs : CodeSet) : State :=
  let s0 : State := { State.reset with four := s.four }
  (chansOf (beChset b)).foldl (fun s c => s.modChan c fun ch => { ch with
    barriers := (p.barriers.get c).map fun e => (e.1, ⟨e.2, [], none⟩)
    gate := { ch.gate with st := .running, block := some b }
    cells := ((cs.cells.get c).filter fun e => beBand b c (e.1 / 320)).map fun e =>
      (e.1, { Cell.reset.setPage (bePage b) (e.2.map fun w => (w.1, Coded.ofData w.2)) with
        seq := seqStart b 0 }) }) s0

/-- What a cell issues: its place and the bundle. -/
abbrev Issued := CellId × Latched

/-- The CT operations that steer issue. -/
def steers (op : Nat) : Bool := op = 0x01 || op = 0x02 || op = 0x03 || op = 0x08 || op = 0x09

/-- One cycle of sequencers and barriers, without the other slots. -/
def State.traceCycle (s : State) (chans : List Chn) : State × List Issued :=
  let ks := chans.flatMap fun c => (s.chan c).cells.map fun e => (⟨c, Fin.ofNat 32 (e.1 / 80), Fin.ofNat 80 e.1⟩ : CellId)
  let s := chans.foldl (fun s c => s.modChan c fun ch =>
    ch.barriers.foldl (fun ch g => ch.releaseGroup g.1 s.cy) ch) s
  let s := ks.foldl State.endIdle s
  let s := ks.foldl State.issue s
  let out := ks.filterMap fun k => match (s.cell k).seq.cur with
    | some l => if l.at_ = s.cy then some (k, l) else none
    | none => none
  let s := out.foldl (fun s e => if steers (ctOp e.2.ct) then ctRun (ctOp e.2.ct) e.1 s e.2 else s) s
  ({ s with cy := s.cy + 1, newFaults := [] }, out)

/-- The bundles issued in `n` cycles, and the state after. -/
def State.trace : Nat → State → List Chn → State × List Issued
  | 0, s, _ => (s, [])
  | n + 1, s, cs =>
    let r := s.traceCycle cs
    let t := State.trace n r.1 cs
    (t.1, r.2 ++ t.2)

/-! ### What an operation does later (R145, R137, R156) -/

/-- A cell in which every pop of a bundle finds the tag it asks for. -/
def readyCell (tag : Nat → Nat) : Cell :=
  { Cell.reset with qin := Vector.ofFn fun i => [⟨Coded.zero, BitVec.ofNat 3 (tag i.val)⟩] }

def operandTag (q : Nat) : Operand → Option Nat
  | .queue n e => if n = q then some e else none
  | _ => none

def vxOperands (v : VxWord) : List Operand := if v.op = 0 then [] else [v.sa, v.sb, v.sc]

/-- The changes that the VX operation brings, with the cycles after issue at whose end they land. -/
def vxDues (l : Latched) : List (Nat × CellEffect) :=
  let v := vxWord l.vx
  let vt := fun q => ((vxOperands v).findSome? (operandTag q)).getD 0
  (vxRun v.op l v (Out.none_ (readyCell vt))).dues

/-- The changes of the VX, LS and CT operations. -/
def bundleDues (l : Latched) : List (Nat × CellEffect) :=
  let lsCell := readyCell fun _ => lsEtag l.ls
  let ls := if lsOp l.ls = 8 then [(3, CellEffect.line 0 Coded.zero)]
    else (lsRun (lsOp l.ls) none ⟨0, 0, 0, 0, false, none, none, none, none, none, none, none⟩ l
      (Out.none_ lsCell)).dues
  let mask := if ctOp l.ct = 0x0C || ctOp l.ct = 0x0D then [(0, CellEffect.mask (fldN l.ct 16 3) 0)] else []
  vxDues l ++ ls ++ mask

/-- The last cycle after issue in which the bundle still lands something, or has a beat on its way: the sums
of an MMA reach the next cell in its fifth cycle, and a computing close writes in it (R113, R137). -/
def bundleLast (l : Latched) : Nat :=
  let mx := match fldN l.mx 0 4 with
    | 1 => 1
    | 2 => 5
    | 3 => 1 + min 2 (fldN l.mx 4 2)
    | _ => 0
  (bundleDues l).foldl (fun m d => max m d.1) mx

/-- Input queues that the bundle pops, once for each operand that names one (R68, R144). -/
def bundlePops (l : Latched) : List Nat :=
  let v := vxWord l.vx
  let vx := (vxOperands v).filterMap fun o => match o with
    | .queue q _ => some q
    | _ => none
  vx ++ (if lsOp l.ls = 2 || lsOp l.ls = 4 || lsOp l.ls = 5 then [lsQ l.ls] else [])

def bundlePushes (l : Latched) : List (Nat × Nat) :=
  (bundleDues l).filterMap fun d => match d.2 with
    | .push q _ => some (d.1, q)
    | _ => none

/-- Tile rows that the VX operation reads. -/
def tileReads (l : Latched) : List Nat :=
  let v := vxWord l.vx
  if 0x28 ≤ v.op && v.op ≤ 0x2F then
    match v.sa, v.sb with
    | .tile t _, .imm n => (List.range n).map fun r => 16 * t + r
    | _, _ => []
  else (vxOperands v).filterMap fun o => match o with
    | .tile t r => some (16 * t + (r + l.sel v.rix) % 16)
    | _ => none

/-- Tile rows (below 128) and masks (from 128) that the bundle writes, with the cycle. -/
def regWrites (l : Latched) : List (Nat × Nat) :=
  (bundleDues l).filterMap fun d => match d.2 with
    | .tile r _ => some (l.at_ + d.1, r)
    | .mask n _ => some (l.at_ + d.1, 128 + n)
    | _ => none

/-! ### The router, by structure (R82 to R89, R97, R232)

The verifier does not simulate what links and queues hold (R232): an RT slot that names a source routes
a beat, and one that names an input queue pushes one. What does not come true shows at run time (R83,
R301). -/

/-- Whether the crossing between two channels is open for a channel set (R95, R96). -/
def setOpen (m : BitVec 4) (c d : Chn) : Bool := bitAt m c.val && bitAt m d.val

/-- Link inputs for which a route word names an input queue: N, E, S, W, lend. -/
def inputsNamed (row0 : Bool) (w : BitVec 64) (q : Nat) : Nat :=
  boolBit (bitAt w (16 + q)) + boolBit (bitAt w (24 + q)) + boolBit (bitAt w (32 + q)) + boolBit (bitAt w (40 + q)) +
    boolBit (row0 && bitAt w (48 + q))

/-- Input queues that a route word pushes; a queue takes one beat in a cycle (R85). -/
def routePushes (row0 : Bool) (w : BitVec 64) : List Nat :=
  (List.range 8).filter fun q => 0 < inputsNamed row0 w q

/-- Output queues that a route word pops. -/
def routePops (w : BitVec 64) : List Nat :=
  [1, 2, 3, 4].foldl (fun acc i => if 8 ≤ rtSrc w i then insertNat acc (rtSrc w i - 8) else acc) []

/-- Whether a bundle sends a beat over a tied-off link or a crossing closed for the set. -/
def crossesClosed (m : BitVec 4) (k : CellId) (w : BitVec 64) : Bool :=
  [1, 2, 3, 4].any fun link => rtSrc w link ≠ 0 &&
    match linkTarget k link with
    | none => true
    | some (d, _, _, _) => d ≠ k.ch && !setOpen m k.ch d

/-- COLLECTOR and CROSSING of the routers. -/
def routeFaults (m : BitVec 4) (issued : List Issued) : List (CellId × Nat × Nat) :=
  issued.flatMap fun e =>
    (if (List.range 8).any fun q => 1 < inputsNamed (e.1.y.val = 0) e.2.rt q then [(e.1, e.2.addr, vrCOLLECTOR)] else []) ++
    if crossesClosed m e.1 e.2.rt then [(e.1, e.2.addr, vrCROSSING)] else []

/-- Whether a run of an edge plan acts in block cycle `t`. -/
def runsAt (r : W128) (t : Nat) : Bool :=
  decide (fldN r 0 32 ≤ t) && decide ((t - fldN r 0 32) % max 1 (fldN r 64 16) = 0) &&
    decide ((t - fldN r 0 32) / max 1 (fldN r 64 16) < fldN r 32 32)

/-! ### The trace as a whole -/

structure BlockTrace where
  len : Nat
  issued : List Issued
  last : State
  deriving DecidableEq, Repr

def State.traceBlock (s : State) (p : ImagePart) (b : BEntry) (cs : CodeSet) : BlockTrace :=
  let chans := chansOf (beChset b)
  let r := State.trace (beLen b) (s.traceStart p b cs) chans
  ⟨beLen b, r.2, r.1⟩

/-- Every move of a cell queue's entries: cell, queue (from 8 an output queue), cycle, push or pop. -/
def BlockTrace.moves (t : BlockTrace) : List (CellId × Nat × Nat × Bool) :=
  t.issued.flatMap fun e =>
    (routePushes (e.1.y.val = 0) e.2.rt).map (fun q => (e.1, q, e.2.at_, true)) ++
    (bundlePushes e.2).map (fun p => (e.1, 8 + p.2, e.2.at_ + p.1, true)) ++
    (bundlePops e.2).map (fun q => (e.1, q, e.2.at_, false)) ++
    (routePops e.2.rt).map fun q => (e.1, 8 + q, e.2.at_, false)

/-- The totals that a channel's code makes: PUSHED, POPPED, TOK_SIG, TOK_TAKE (R296). -/
def BlockTrace.totals (t : BlockTrace) (c : Chn) : Nat × Nat × Nat × Nat :=
  let mine := t.moves.filter fun m => m.1.ch = c
  let tok := fun (op : Nat) => (t.issued.filter fun e => e.1.ch = c && ctOp e.2.ct = op).foldl
    (fun n e => n + fldN e.2.ct 23 9 + 1) 0
  ((mine.filter fun m => m.2.2.2).length, (mine.filter fun m => !m.2.2.2).length, tok 0x10, tok 0x11)

/-- The span of a queue's occupancy, relative to its start, as its entries move: pops of a cycle come
before pushes (R68). -/
def occupancySpan (ms : List (Nat × Bool)) : Nat :=
  let sorted := sortBy (fun m => 2 * m.1 + boolBit m.2) ms
  let r := sorted.foldl (fun (a : Int × Int × Int) m =>
    let x := if m.2 then a.1 + 1 else a.1 - 1
    (x, min a.2.1 x, max a.2.2 x)) (0, 0, 0)
  (r.2.2 - r.2.1).toNat

/-- No queue passes its 8 entries (R298). -/
def BlockTrace.fits (t : BlockTrace) : Bool :=
  t.moves.all fun m => decide (occupancySpan ((t.moves.filter fun x => x.1 = m.1 && x.2.1 = m.2.1).map
    fun x => (x.2.2.1, x.2.2.2)) ≤ 8)

end Sys2Proof.Machine
end

