-- ==== Sys2Proof/Machine/CoreTrace.lean ====
section
/-! DEFINITION. The verifier's walk through a channel program (R298): it runs the program on a core of its own, and
gives up what it cannot know (results marked V or T, memory written from outside). It yields the counts of the
intervals between two GATE instructions (R297). -/
namespace Sys2Proof.Machine

/-- Tokens signalled and taken, messages sent and received in an interval; `none` where a count is not known. -/
structure CoreCounts where
  sig : Option Nat
  take : Option Nat
  sent : Nat
  recv : Nat
  deriving DecidableEq, Repr

def CoreCounts.zero : CoreCounts := ⟨some 0, some 0, 0, 0⟩

/-- The walk: the part with its core, registers whose value is not known, whether data memory still is, the block
of the interval it is in, its counts, and the intervals done. -/
structure Walk where
  s : State
  unknown : List Nat
  memory : Bool
  block : Option Nat
  counts : CoreCounts
  done : List (Nat × CoreCounts)
  deriving DecidableEq, Repr

/-- The registers from which an instruction computes its result or its next place. -/
def coreReads (kind : CoreKind) (w : W32) : List Nat :=
  match kind with
  | .alu => [insA w, insB w]
  | .iaddk | .bandk | .bork | .bxork | .shiftk | .cltsk | .cltuk | .shins => [insA w]
  | .load => [insA w]
  | .store => [insA w, insD w]
  | .branch => [insD w]
  | .jreg => [insA w]
  | _ => []

/-- The meaning of an instruction that computes. -/
def coreCompute : CoreKind → Option (State → Chn → W32 → State)
  | .alu => some aluRow
  | .iaddk => some iaddkRow
  | .bandk => some bandkRow
  | .bork => some borkRow
  | .bxork => some bxorkRow
  | .shiftk => some shiftkRow
  | .cltsk => some cltskRow
  | .cltuk => some cltukRow
  | .ldk => some ldkRow
  | .shins => some shinsRow
  | _ => none

/-- The result of an instruction becomes known, or unknown. -/
def Walk.result (x : Walk) (d : Nat) (known : Bool) : Walk :=
  { x with unknown := if known || d = 0 then x.unknown.filter fun r => decide (r ≠ d) else insertNat x.unknown d }

/-- The core goes on, and the walk knows no more of it than before. -/
def Walk.pass (x : Walk) (c : Chn) : Walk := { x with s := x.s.coreNext c id }

/-- The count of a sync instruction, when s(b) is known. -/
def Walk.syncN (x : Walk) (c : Chn) (w : W32) (n : Option Nat) : Option Nat :=
  if x.unknown.contains (insB w) then none else n.map (· + x.s.syncN c w)

/-- GATE closes the interval and begins that of the block it names. -/
def Walk.gate (x : Walk) (c : Chn) (w : W32) : Walk :=
  let y := (x.pass c).result (insD w) false
  { y with
    done := match x.block with
      | some b => (b, x.counts) :: x.done
      | none => x.done
    block := if x.unknown.contains (insA w) then none else some (x.s.sreg c (insA w)).toNat
    counts := .zero }

/-- One instruction of the walk; `none` where it can follow the program no further. -/
def Walk.next (x : Walk) (c : Chn) : Option Walk :=
  let k := (x.s.chan c).core
  let w := k.word
  if k.returned || k.dead || returnAddr ≤ k.pc then none
  else (coreKind w).bind fun kind =>
    let known := (coreReads kind w).all fun r => !x.unknown.contains r
    match coreCompute kind with
    | some run => some (if known then { x with s := run x.s c w }.result (insD w) true
        else (x.pass c).result (insD w) false)
    | none => match kind with
      | .load => some (if known && x.memory then { x with s := loadRow x.s c w }.result (insD w) true
          else (x.pass c).result (insD w) false)
      | .store => some (if known then { x with s := storeRow x.s c w } else { x.pass c with memory := false })
      | .branch => if known then some { x with s := branchRow x.s c w } else none
      | .call => some ({ x with s := callRow x.s c w }.result (insD w) true)
      | .jreg => if known && (x.s.sreg c (insA w)).toNat % 4 = 0 then
          some ({ x with s := jregRow x.s c w }.result (insD w) true)
        else none
      | .ssig => some { x.pass c with counts := { x.counts with sig := x.syncN c w x.counts.sig } }
      | .stake | .swait => some { x.pass c with counts := { x.counts with take := x.syncN c w x.counts.take } }
      | .msend => some { x.pass c with counts := { x.counts with sent := x.counts.sent + 1 } }
      | .mrecv => some { (x.pass c).result (insD w) false with
          memory := false, counts := { x.counts with recv := x.counts.recv + 1 } }
      | .gate => some (x.gate c w)
      | .wkrd => some { (x.pass c).result (insD w) false with memory := false }
      | .csrr => if fldN w 0 12 = 0 then some ({ x with s := x.s.coreResult c w (w64 c.val) }.result (insD w) true)
        else some ((x.pass c).result (insD w) false)
      | .sset | .bcast | .sopen | .scancel | .csrw | .flgclr | .evsig => some (x.pass c)
      | _ => some ((x.pass c).result (insD w) false)

/-- As many instructions as are asked for. -/
def Walk.run : Nat → Walk → Chn → Walk
  | 0, x, _ => x
  | n + 1, x, c => match x.next c with
    | some y => Walk.run n y c
    | none => x

/-- How far the verifier traces a program: as many instructions as instruction memory holds. DESIGN CHOICE
(log 34). -/
def walkSteps : Nat := 16384

/-- The intervals of a channel's program as far as the verifier can trace them. -/
def State.intervals (s : State) (p : ImagePart) (c : Chn) : List (Nat × CoreCounts) :=
  let s0 := ({ State.reset with four := s.four } : State).modChan c fun ch => { ch with
    core := { Core.loaded (p.programs.get c) with started := true } }
  (Walk.run walkSteps ⟨s0, [], true, none, .zero, []⟩ c).done

/-- The declared counts of a control core agree with an interval (R297, R298). -/
def CoreCounts.declared (n : CoreCounts) (d : BitVec 512) : Bool :=
  let one := fun (lo w : Nat) (v : Option Nat) => fldN d lo w = 2 ^ w - 1 || match v with
    | some v => decide (fldN d lo w = v)
    | none => true
  one 384 32 n.sig && one 416 32 n.take && one 448 16 (some n.sent) && one 464 16 (some n.recv)

end Sys2Proof.Machine
end

