-- ==== Sys2Proof/Machine/Lines.lean ====
section
/-! DEFINITION. The scratchpad lines, shutter rows and queues that a block's bundles use, as far as the bundles
fix them: bank collisions (R79, R133, R204) and the conditions of REPLAYABLE (R257). -/
namespace Sys2Proof.Machine

/-! ### Lines (R77 to R80, R175) -/

/-- One access to a scratchpad line: its cell and cycle, the bundle's issue cycle and indices, the index tables
its cell has taken by then, the generator spec with what is added to its line, the halves (1 low, 2 high,
3 both), whether it writes, its number in the bundle, and whether the bundle alone says that it takes
place. -/
structure LineUse where
  cell : CellId
  cy : Nat
  issued : Nat
  i0 : Nat
  i1 : Nat
  i2 : Nat
  tables : Nat
  spec : Nat
  plus : Nat
  part : Nat
  write : Bool
  num : Nat
  sure : Bool
  deriving DecidableEq, Repr

/-- Cycles after issue, spec, lines added, halves, write, and whether it is sure to take place. -/
abbrev RawUse := Nat × Nat × Nat × Nat × Bool × Bool

def halfPart (hi : Bool) : Nat := if hi then 2 else 1

/-- Lines of the MX slot (R132, R137, R187, R188). Only the strand configuration, which a line of the running
block holds, says whether an MMA is at a computing close. -/
def mxLines (w : BitVec 40) : List RawUse :=
  let pair := fun (d spec : Nat) (wr : Bool) => [(d, spec, 0, 3, wr, true), (d, spec, 1, 3, wr, true)]
  match fldN w 0 4 with
  | 1 => [(0, fldN w 4 7, 0, 1, false, true)]
  | 2 => (if bitAt w 4 then [(0, fldN w 5 7, 0, 3, false, true)] else []) ++
      (if bitAt w 17 then [(0, fldN w 18 7, 0, 3, false, true)] else []) ++ [(5, fldN w 32 7, 0, 3, true, false)]
  | 3 => match fldN w 4 2 with
    | 0 => pair 1 (fldN w 13 7) true
    | 1 => pair 0 (fldN w 6 7) false ++ pair 2 (fldN w 13 7) true
    | 2 => pair 0 (fldN w 6 7) false ++ [(3, fldN w 13 7, 0, 3, true, true)]
    | _ => []
  | _ => []

/-- The form in which a VX operation reads its lines (R192). -/
def vxReadForm (v : VxWord) : Form :=
  if v.op = 0x03 then (if v.fn = 3 then .narrow else .f32) else formOf v.ty

/-- Lines of the VX slot (R142, R145). -/
def vxLines (l : Latched) : List RawUse :=
  let v := vxWord l.vx
  let part := if vxReadForm v = .narrow then halfPart v.half else 3
  (vxOperands v).filterMap (fun o => match o with
    | .line g => some (0, g, 0, part, false, true)
    | _ => none) ++
  (match v.dst with
    | .line g => (vxDues l).filterMap fun d => match d.2 with
      | .line _ _ => some (d.1, g, 0, 3, true, true)
      | .half _ hi _ => some (d.1, g, 0, halfPart hi, true, true)
      | _ => none
    | _ => [])

/-- Lines of the LS slot (R194). -/
def lsLines (w : BitVec 48) : List RawUse :=
  let a := fldN w 5 7
  match lsOp w with
  | 1 => [(0, a, 0, halfPart (lsHalf w), false, true)]
  | 2 => [(1, a, 0, halfPart (lsHalf w), true, true)]
  | 3 => [(0, a, 0, 3, false, true), (1, fldN w 25 7, 0, 3, true, true)]
  | 6 => [(0, a, 0, 3, false, true)]
  | 7 => [(1, a, 0, 3, true, true)]
  | 8 => [(3, a, 0, 3, true, true)]
  | 9 => [(1, a, 0, 3, true, true)]
  | _ => []

/-- The cycles in which each cell takes an index table, in force from the second cycle after (R194). -/
def ixsets (issued : List Issued) : List (CellId × Nat) :=
  issued.filterMap fun e => if lsOp e.2.ls = 6 then some (e.1, e.2.at_) else none

def bundleLines (ix : List (CellId × Nat)) (e : Issued) : List LineUse :=
  let n := (ix.filter fun x => x.1 = e.1 && decide (x.2 + 2 ≤ e.2.at_)).length
  (mxLines e.2.mx ++ vxLines e.2 ++ lsLines e.2.ls).zipIdx.map fun u =>
    { cell := e.1, cy := e.2.at_ + u.1.1, issued := e.2.at_, i0 := e.2.i0, i1 := e.2.i1, i2 := e.2.i2, tables := n,
      spec := u.1.2.1, plus := u.1.2.2.1, part := u.1.2.2.2.1, write := u.1.2.2.2.2.1, num := u.2,
      sure := u.1.2.2.2.2.2 }

/-- Whether two uses of one cell name the same line modulo `n`: known where they share a generator, its table
and the indices, or where the image has no index table, so that every generator is 0 (R178). -/
def LineUse.same (fixed : Bool) (n : Nat) (x y : LineUse) : Option Bool :=
  let known := fixed || (x.spec / 16 % 8 = y.spec / 16 % 8 && x.tables = y.tables && x.i0 % n = y.i0 % n &&
    x.i1 % n = y.i1 % n && x.i2 % n = y.i2 % n)
  let eq := decide ((x.spec % 16 + x.plus) % n = (y.spec % 16 + y.plus) % n)
  if !known then none
  else if eq && !(x.sure && y.sure) then none
  else some eq

/-- Whether two accesses are different ones of one cell in one cycle. -/
def LineUse.meets (x y : LineUse) : Bool :=
  x.cell = y.cell && x.cy = y.cy && !(x.issued = y.issued && x.num = y.num)

/-- Bank collisions that the bundles alone fix: the line's bits [1:0] name the bank (R77, R79). Two writes of one
line in one cycle are among them. -/
def bankFaults (fixed : Bool) (issued : List Issued) : List (CellId × Nat × Nat) :=
  let ix := ixsets issued
  let all := issued.flatMap (bundleLines ix)
  issued.filterMap fun e =>
    if (bundleLines ix e).any fun u => all.any fun x => u.meets x && u.same fixed 4 x = some true then
      some (e.1, e.2.addr, vrBANK)
    else none

/-- Whether lines that only the running block knows may put two accesses of a bundle's into one bank. -/
def bankOpen (fixed : Bool) (issued : List Issued) (e : Issued) : Bool :=
  let ix := ixsets issued
  let all := issued.flatMap (bundleLines ix)
  (bundleLines ix e).any fun u => all.any fun x => u.meets x && u.same fixed 4 x = none

/-- An image none of whose bundles loads an index table. -/
def noTables (i : Image) : Bool :=
  (i.main :: i.variants).all fun p => p.codeSets.all fun cs => chans4.all fun c => (cs.cells.get c).all fun e =>
    e.2.all fun b => lsOp (fld b.2 96 48) ≠ 6

/-! ### The conditions of REPLAYABLE (R257) -/

/-- What is known of several conditions together: broken, kept, or open. -/
def allKept (l : List (Option Bool)) : Option Bool :=
  if l.any fun x => x = some false then some false
  else if l.all fun x => x = some true then some true
  else none

/-- Whether a line that the block reads before it writes it is written in the block. -/
def readKept (fixed : Bool) (all : List LineUse) (r : LineUse) : Option Bool :=
  let ws := all.filter fun w => w.write && w.cell = r.cell && decide (r.same fixed 1024 w ≠ some false)
  let before := ws.filter fun w => decide (w.cy < r.cy)
  if ws.isEmpty || before.any (fun w => r.same fixed 1024 w = some true && (w.part = 3 || w.part = r.part)) then some true
  else if before.isEmpty && ws.any (fun w => r.same fixed 1024 w = some true) then some false
  else none

def linesKept (fixed : Bool) (issued : List Issued) : Option Bool :=
  let all := issued.flatMap (bundleLines (ixsets issued))
  allKept ((all.filter fun u => !u.write).map (readKept fixed all))

/-- Whether the shutter rows that an MMA of a cell reads before the block loads them are loaded in the block. A
load goes into the bank that is not active (R117), which says which bank each MMA uses; whether the scale row
is read only the strand configuration says. -/
def shutterKept (issued : List Issued) (k : CellId) : Option Bool :=
  let mine := issued.filter fun e => e.1 = k
  let loads := (mine.filter fun e => lsOp e.2.ls = 4 || lsOp e.2.ls = 5).map fun e =>
    (e.2.at_, lsBank e.2.ls, if lsOp e.2.ls = 5 then 8 else lsPair e.2)
  let swaps := fun (t : Nat) => (mine.filter fun e => ctOp e.2.ct = 0x04 && decide (e.2.at_ < t)).length
  match loads with
  | [] => some true
  | first :: _ =>
    allKept ((mine.filter fun e => fldN e.2.mx 0 4 = 2).flatMap fun e =>
      let active := if (swaps e.2.at_ + swaps first.1) % 2 = 0 then !first.2.1 else first.2.1
      let early := fun (r : Nat) => loads.any fun x => x.2.1 = active && x.2.2 = r && decide (x.1 < e.2.at_)
      let late := fun (r : Nat) => loads.any fun x => x.2.1 = active && x.2.2 = r && decide (e.2.at_ ≤ x.1)
      (List.range 9).map fun r =>
        if early r || !late r then some true else if r = 8 then none else some false)

/-- Whether the moves of a queue lead from empty to empty: pops of a cycle come before its pushes (R68). -/
def emptyToEmpty (ms : List (Nat × Bool)) : Bool :=
  let r := (sortBy (fun m => 2 * m.1 + boolBit m.2) ms).foldl (fun (a : Option Nat) m => match a with
    | none => none
    | some n => if m.2 then some (n + 1) else if n = 0 then none else some (n - 1)) (some 0)
  r = some 0

def BlockTrace.balanced (t : BlockTrace) : Bool :=
  t.moves.all fun m => emptyToEmpty ((t.moves.filter fun x => x.1 = m.1 && x.2.1 = m.2.1).map
    fun x => (x.2.2.1, x.2.2.2))

end Sys2Proof.Machine
end

