-- ==== Sys2Proof/Machine/Verify.lean ====
section
/-! DEFINITION. The image verifier (R231): its checks in the order of the rule, REPLAYABLE (R257), and the
verification summary (R173, R208). What depends on lines that only a running block knows (index tables, strand
configurations) is an open value of the part. -/
namespace Sys2Proof.Machine

/-! ### The header (R2, R3, R209, R230, R321) -/

def imageParts (i : Image) : List ImagePart := i.main :: i.variants

def State.setOk (s : State) (m : BitVec 4) : Bool := m ≠ 0 && chans4.all fun c => !bitAt m c.val || s.hasChan c

def State.revisionOk (s : State) (i : Image) : Bool :=
  i.bundleRev = 1 && i.latRev = 1 && i.ccoreRev = 1 && i.grade = s.grade && (imageParts i).all fun p => s.setOk p.chset

/-- Whether a table of a channel names nothing. -/
def partEmpty (p : ImagePart) (c : Chn) : Bool :=
  (p.programs.get c).isNone && (p.streamDescs.get c).isEmpty && (p.sqCaps.get c).isEmpty &&
    (p.dqCaps.get c).isEmpty && (p.barriers.get c).isEmpty && (p.trees.get c).isEmpty &&
    p.codeSets.all fun cs => (cs.cells.get c).isEmpty && (cs.edge.get c).isEmpty

/-- The groups, trees and counters that a bundle names lie on the part (R3). -/
def State.namesPart (s : State) (w : BitVec 256) : Bool :=
  let ct := fld w 208 32
  let op := ctOp ct
  if op = 0x08 || op = 0x09 then s.hasChan (chnOf (fldN ct 6 12 / 1024))
  else if 0x0A ≤ op && op ≤ 0x0D then s.hasChan (chnOf (fldN ct 6 10 / 256))
  else if op = 0x10 || op = 0x11 then decide (fldN ct 6 17 < s.syncCounters)
  else true

/-- Every bundle of a code set: channel, cell number, address, word. -/
def codeBundles (cs : CodeSet) : List (Chn × Nat × Nat × BitVec 256) :=
  chans4.flatMap fun c => (cs.cells.get c).flatMap fun e => e.2.map fun b => (c, e.1, b.1, b.2)

/-- The channels and sync counters that a restore map entry names lie on the part (R3, R374). -/
def State.restoresPart (s : State) (e : W128) : Bool :=
  let chans := [fldN e 8 8, fldN e 16 8].all fun c => decide (4 ≤ c) || s.hasChan (chnOf c)
  let last := max (fldN e 32 32) (fldN e 64 32) + fldN e 96 32
  chans && (fldN e 0 8 ≠ 3 || decide (last ≤ s.syncCounters))

/-- What a part's tables name that the grade lacks. -/
def State.absentIn (s : State) (p : ImagePart) : Option Viol :=
  let tables := chans4.map fun c =>
    let groups := (p.barriers.get c).all (fun g => g.1 < 4096 && s.hasChan (chnOf (g.1 / 1024))) &&
      (p.trees.get c).all fun t => t.1 < 1024 && s.hasChan (chnOf (t.1 / 256))
    orFail (groups && (s.hasChan c || partEmpty p c)) (Viol.inChan vrABSENT c.val)
  let blocks := p.blocks.zipIdx.map fun b =>
    orFail (chans4.all fun c => !bitAt (beChset b.1) c.val || s.hasChan c) (Viol.inBlock vrABSENT b.2)
  let code := p.codeSets.flatMap fun cs => (codeBundles cs).map fun e =>
    orFail (s.namesPart e.2.2.2) { Viol.inChan vrABSENT e.1.val with cell := e.2.1, bundle := e.2.2.1 }
  let restores := orFail (p.restoreMap.all s.restoresPart) (Viol.at_ vrABSENT)
  firstOf (tables ++ blocks ++ code ++ [restores])

/-- Buffers, code pages and the image region are large enough. -/
def sizeIn (p : ImagePart) : Option Viol :=
  let caps := chans4.map fun c =>
    orFail (decide (sumN (p.sqCaps.get c) ≤ 131072) && decide (sumN (p.dqCaps.get c) ≤ 32768))
      (Viol.inChan vrSIZE c.val)
  let pages := p.codeSets.flatMap fun cs => (codeBundles cs).map fun e =>
    orFail (decide (e.2.2.1 < 512)) { Viol.inChan vrSIZE e.1.val with cell := e.2.1, bundle := e.2.2.1 }
  firstOf (caps ++ pages)

/-- Numbered parts, and the first failure among them with its variant. -/
def overParts (i : Image) (f : Nat → ImagePart → Option Viol) : Option Viol :=
  (imageParts i).zipIdx.findSome? fun p => (f p.2 p.1).map fun v => { v with variant := p.2 }

def State.checkHeader (s : State) (i : Image) (len : Nat) : Option Viol :=
  firstOf [orFail (s.revisionOk i) (Viol.at_ vrREVISION), overParts i fun _ p => s.absentIn p,
    orFail (decide (len ≤ 2 ^ 30)) (Viol.at_ vrSIZE), overParts i fun _ p => sizeIn p]

/-! ### The tables (R216, R217, R230, R297, R328, R364) -/

/-- A run of an edge plan holds values inside their ranges. -/
def runOk (r : W128) : Bool :=
  crcGood 16 r.toNat && decide (1 ≤ fldN r 32 32) && decide (1 ≤ fldN r 64 16) && !bitAt r 95 &&
    (if bitAt r 94 then decide (fldN r 80 8 ≤ 79) && decide (fldN r 88 6 ≤ 31) else decide (fldN r 80 8 ≤ 81))

/-- The tables of one channel. -/
def chanTables (p : ImagePart) (c : Chn) : Bool :=
  if bitAt p.chset c.val then
    (match p.programs.get c with
      | some g => decide (4 * g.text.length ≤ 65536) && decide (g.entry < 65536) && decide (g.entry % 4 = 0) &&
          decide (g.data.length ≤ dmemSize)
      | none => false) &&
    (p.streamDescs.get c).all (fun d => crcGood 32 d.toNat) &&
    decide ((p.sqCaps.get c).length ≤ 64) && decide ((p.dqCaps.get c).length ≤ 32) &&
    (p.barriers.get c).all (fun g => decide (g.1 / 1024 = c.val) && !g.2.isEmpty && g.2.all fun m => decide (m ≤ 2560)) &&
    (p.trees.get c).all (fun t => decide (t.1 / 256 = c.val) && !t.2.isEmpty && t.2.all fun m => decide (m ≤ 2560)) &&
    p.codeSets.all fun cs => (cs.cells.get c).all (fun e => decide (e.1 < 2560)) &&
      decide ((cs.edge.get c).length ≤ 4096) && (cs.edge.get c).all runOk
  else partEmpty p c

/-- The indices of a block table entry, and its CRC. -/
def entryOk (p : ImagePart) (b : BEntry) : Bool :=
  crcGood 64 b.toNat && beChset b ≠ 0 && decide (beChset b &&& p.chset = beChset b) &&
    decide (beCodeset b < p.codeSets.length) && decide (beGlist b + beGcount b ≤ p.gateLists.length) &&
    decide (beLedger b < p.totals.length) && decide (beTplan b < p.tallyPlan.length) &&
    decide (beDplan b < p.digestPlan.length)

/-- Reserved bits of an instruction are 0, and its CSR is one that R543 lists for it. -/
def coreFixed (w : W32) : Bool :=
  match coreKind w with
  | some .shiftk => fldN w 8 8 = 0
  | some .gate => fldN w 0 16 = 0
  | some .bcast => fldN w 21 5 = 0 && fldN w 11 5 = 0
  | some .csrr => decide (fldN w 0 12 ≤ 2)
  | some .csrw => fldN w 0 12 = 1
  | some _ => true
  | none => false

/-- The instructions of a program are ones that the control core has (R207). -/
def programCode (p : ImagePart) : Option Viol :=
  chans4.findSome? fun c =>
    match p.programs.get c with
    | some g => g.text.zipIdx.findSome? fun w =>
        orFail (coreFixed w.1) { Viol.inChan vrENCODING c.val with bundle := 4 * w.2 % 65536 }
    | none => none

def checkTables (p : ImagePart) : Option Viol :=
  firstOf (
    [orFail (!p.blocks.isEmpty && !p.codeSets.isEmpty && p.totals.all (fun t => crcGood 64 t.toNat) &&
        p.tallyPlan.all (fun t => crcGood 16 t.toNat) && p.digestPlan.all (fun t => crcGood 16 t.toNat) &&
        p.tensorDescs.all (fun t => crcGood 64 t.2.toNat) &&
        p.saveSet.all fun h => (Smap.find? p.tensorDescs h).isSome) (Viol.at_ vrTABLE)] ++
    chans4.map (fun c => orFail (chanTables p c) (Viol.inChan vrTABLE c.val)) ++
    p.blocks.zipIdx.map (fun b => orFail (entryOk p b.1) (Viol.inBlock vrTABLE b.2)) ++
    [programCode p])

/-! ### Encodings (R174, R186 to R202) -/

/-- Bits of an MX slot that its operation leaves reserved. DESIGN CHOICE (log 97): bits of an MXNOP are among
them. DESIGN CHOICE (log 99): a CLOSE of MODE 3 passes, and faults when it runs. -/
def mxFixed (w : BitVec 40) : Bool :=
  match fldN w 0 4 with
  | 0 => fldN w 4 36 = 0
  | 1 => fldN w 11 29 = 0
  | 3 => fldN w 20 20 = 0
  | _ => true

/-- Operands of a VX operation that are in use: SA, SB, SC. -/
def vxUses (op : Nat) : Bool × Bool × Bool :=
  if op = 0x1D || op = 0x1E then (true, false, false)
  else if op = 0x1F then (true, true, false)
  else if 0x28 ≤ op && op ≤ 0x2F then (true, true, false)
  else (decide (1 ≤ vxSources op), decide (2 ≤ vxSources op), decide (3 ≤ vxSources op))

/-- The fixed fields of a VX slot; VNOP ignores all. -/
def vxFixed (w : BitVec 56) : Bool :=
  let op := fldN w 0 6
  let u := vxUses op
  op = 0 ||
    (fldN w 54 2 = 0 && (u.1 || fldN w 27 9 = 0x180) && (u.2.1 || fldN w 36 9 = 0x180) &&
      (u.2.2 || fldN w 45 9 = 0x180) &&
      ((vxTypes op).isSome || fldN w 6 2 = 0) &&
      (op = 0x03 || op = 0x1C || op = 0x1F || fldN w 13 3 = 0) &&
      ((op ≠ 0x1D && op ≠ 0x1E && op ≠ 0x1F) || fldN w 8 3 = 0))

/-- The fields that an LS operation uses, as a mask of the slot's bits (R193, R194). -/
def lsMask (op : Nat) : Nat :=
  let addr := 0x7F * 2 ^ 5
  let half := 2 ^ 12
  let q := 7 * 2 ^ 13
  let etag := 7 * 2 ^ 16
  let bank := 2 ^ 19
  match op with
  | 1 => addr + half + q
  | 2 => addr + half + q + etag
  | 3 => addr + 0x7F * 2 ^ 25
  | 4 => q + etag + bank + 7 * 2 ^ 20 + 3 * 2 ^ 23
  | 5 => q + etag + bank
  | 6 => addr
  | 7 => addr
  | 8 => addr
  | 9 => addr
  | _ => 0

def lsFixed (w : BitVec 48) : Bool := w &&& ~~~(BitVec.ofNat 48 (lsMask (lsOp w) + 31)) = 0

def rtFixed (row0 : Bool) (w : BitVec 64) : Bool := fldN w 57 7 = 0 && (row0 || fldN w 48 9 = 0)

/-- The bits that a CT operation uses above its opcode (R199). -/
def ctMask (op : Nat) : Nat :=
  match op with
  | 0x01 => 2 ^ 27 - 1
  | 0x02 => 2 ^ 18 - 1
  | 0x05 => 2 ^ 12 - 1
  | 0x08 => 2 ^ 18 - 1
  | 0x09 => 2 ^ 18 - 1
  | 0x0A => 2 ^ 16 - 1
  | 0x0B => 2 ^ 16 - 1
  | 0x0C => 2 ^ 19 - 1
  | 0x0D => 2 ^ 19 - 1
  | 0x10 => 2 ^ 32 - 1
  | 0x11 => 2 ^ 32 - 1
  | _ => 2 ^ 6 - 1

def ctFixed (w : BitVec 32) : Bool := w.toNat &&& ctMask (ctOp w) = w.toNat

/-- A bundle holds no reserved value, and its fixed fields and ACHK are as they must be. -/
def bundleOk (row0 : Bool) (a : Nat) (w : BitVec 256) : Bool :=
  (badSlots row0 w).isEmpty && mxFixed (fld w 0 40) && vxFixed (fld w 40 56) && lsFixed (fld w 96 48) &&
    rtFixed row0 (fld w 144 64) && ctFixed (fld w 208 32) && decide (fldN w 252 4 = a % 16)

/-! ### Counted loops as they stand (R180, R181) -/

/-- The first address that breaks a rule of nesting; `ends` are the last addresses of the bodies open
at each bundle, innermost first. An address that the code set leaves out holds BEND. -/
def loopFault (code : Smap (BitVec 256)) : Smap (BitVec 256) → List Nat → Option Nat
  | [], _ => none
  | (a, w) :: rest, ends =>
    let ends := ends.filter fun e => decide (a ≤ e)
    let ct := fld w 208 32
    if ctOp ct = 0x03 && !ends.isEmpty then some a
    else if ctOp ct = 0x01 then
      let n := fldN ct 18 9 + 1
      let last := a + n
      let whole := (List.range n).all fun i => (Smap.find? code (a + 1 + i)).isSome
      if 0x1FF < last || 3 ≤ ends.length || ends.any (fun e => a = e || e < last) || !whole then some a
      else loopFault code rest (last :: ends)
    else loopFault code rest ends

/-- Beats that the runs of a channel's edge plan move on a queue (R217, R329). -/
def queueMoves (plan : List W128) (q : Nat) (drain : Bool) : Nat :=
  sumN ((plan.filter fun r => bitAt r 94 = drain && fldN r 88 6 = q).map fun r => fldN r 32 32)

/-! ### The checks on code (R231 step 3) -/

/-- The rank of a check on a bundle, in the order of the rule. -/
def checkRank (reason : Nat) : Nat :=
  match reason with
  | 0x0B => 0
  | 0x0A => 1
  | 0x09 => 2
  | 0x06 => 3
  | 0x05 => 4
  | 0x04 => 5
  | 0x03 => 6
  | _ => 7

/-- Reads of a tile row that no earlier write of the block has filled. -/
def tileFaults (issued : List Issued) : List (CellId × Nat × Nat) :=
  issued.filterMap fun e =>
    if (tileReads e.2).all fun r =>
        issued.any fun x => x.1 = e.1 && (regWrites x.2).any fun w => w.2 = r && decide (w.1 < e.2.at_)
    then none else some (e.1, e.2.addr, vrTILE)

/-- Two writes of one tile row or mask in one cycle, two pushes of one output queue in one cycle (R68),
and two pops of one queue in one bundle, be it in one operation (R144). Two writes of one line are a bank
collision, which comes first. -/
def clashFaults (issued : List Issued) : List (CellId × Nat × Nat) :=
  let lands := fun (e : Issued) => regWrites e.2 ++ (bundlePushes e.2).map fun p => (e.2.at_ + p.1, 256 + p.2)
  let all := issued.flatMap fun e => (lands e).map fun w => (e.1, w)
  issued.filterMap fun e =>
    let pops := bundlePops e.2
    if (lands e).any (fun w => 1 < (all.filter fun x => x = (e.1, w)).length) ||
        pops.any (fun q => 1 < (pops.filter (· = q)).length) then some (e.1, e.2.addr, vrCOLLECTOR)
    else none

/-- Bundles that issue, or land something, at or after block cycle L; a cell that still runs then. -/
def lengthFaults (t : BlockTrace) : List (CellId × Nat × Nat) :=
  (t.issued.filterMap fun e =>
    if t.len ≤ e.2.at_ + bundleLast e.2 then some (e.1, e.2.addr, vrLENGTH) else none) ++
  chans4.flatMap fun c => (t.last.chan c).cells.filterMap fun x =>
    let k : CellId := ⟨c, Fin.ofNat 32 (x.1 / 80), Fin.ofNat 80 x.1⟩
    if x.2.seq.running && x.2.seq.waitGroup.isNone then some (k, x.2.seq.addr, vrLENGTH) else none

/-- Cells that wait for a group when the block is over. -/
def waitFaults (t : BlockTrace) : List (CellId × Nat × Nat) :=
  chans4.flatMap fun c => (t.last.chan c).cells.filterMap fun x =>
    match x.2.seq.waitGroup, x.2.seq.cur with
    | some _, some l => some (⟨c, Fin.ofNat 32 (x.1 / 80), Fin.ofNat 80 x.1⟩, l.addr, vrBARRIER)
    | _, _ => none

/-- Whether the cell is a member of the group or tree that a bundle names. -/
def memberOk (p : ImagePart) (k : CellId) (w : BitVec 256) : Bool :=
  let ct := fld w 208 32
  let op := ctOp ct
  let mem := fun (m : Smap (List Nat)) (g : Nat) => (Smap.get [] m g).contains k.num
  if op = 0x08 || op = 0x09 then mem (p.barriers.get k.ch) (fldN ct 6 12)
  else if 0x0A ≤ op && op ≤ 0x0D then mem (p.trees.get k.ch) (fldN ct 6 10)
  else true

/-- The checks on the code of one cell that need no trace. -/
def codeFaults (p : ImagePart) (k : CellId) (code : Smap (BitVec 256)) : List (CellId × Nat × Nat) :=
  (code.filterMap fun b =>
    if bundleOk (k.y.val = 0) b.1 b.2 then none else some (k, b.1, vrENCODING)) ++
  ((loopFault code code []).map fun a => (k, a, vrLOOP)).toList ++
  code.filterMap fun b => if memberOk p k b.2 then none else some (k, b.1, vrBARRIER)

/-- The order of cells, addresses and checks. -/
def faultKey (e : CellId × Nat × Nat) : Nat :=
  ((2560 * e.1.ch.val + e.1.num) * 512 + e.2.1) * 8 + checkRank e.2.2

/-- Where the sums of a cell go: cycles to a next cell over an open crossing, or none (R81, R82, R97). -/
def laneReach (m : BitVec 4) (k : CellId) : Option Nat :=
  if k.x.val < 79 then some 1
  else if k.ch.val < 2 && setOpen m k.ch (chnOf (k.ch.val + 2)) then some 3
  else none

/-- What only the lines of a running block decide, of the bundles for which they may: the lines of index tables
for BANK; the strand configuration for a sum lane that leaves the channel set (CROSSING) or reaches the next
channel too late (LENGTH). -/
def openFault (img : Image) (m : BitVec 4) (variant block : Nat) (t : BlockTrace) : List (CellId × Nat × Nat) :=
  match Config.verifierData img variant block with
  | some (k, a, r) =>
    let may := fun (e : Issued) => e.1 = k && e.2.addr = a &&
      if r = vrBANK then bankOpen (noTables img) t.issued e
      else if r = vrCROSSING then fldN e.2.mx 0 4 = 2 && (laneReach m k).isNone
      else r = vrLENGTH && fldN e.2.mx 0 4 = 2 && match laneReach m k with
        | some n => decide (t.len ≤ e.2.at_ + 4 + n)
        | none => false
    if t.issued.any may then [(k, a, r)] else []
  | none => []

/-- The first failure in the code of a block, with those on its lines. A cell whose
encodings or loops are not legal has no timing to check. -/
def codeFailure (p : ImagePart) (block : Nat) (b : BEntry) (cs : CodeSet) (t : BlockTrace)
    (opened : List (CellId × Nat × Nat)) : Option Viol :=
  let code := (chansOf (beChset b)).flatMap fun c =>
    ((cs.cells.get c).filter fun e => beBand b c (e.1 / 320)).flatMap fun e =>
      codeFaults p ⟨c, Fin.ofNat 32 (e.1 / 80), Fin.ofNat 80 e.1⟩ e.2
  let timed := lengthFaults t ++ tileFaults t.issued ++ clashFaults t.issued ++ routeFaults p.chset t.issued ++
    waitFaults t ++ opened
  let all := code ++ timed.filter fun f => !code.any fun g => g.1 = f.1 && (g.2.2 = vrENCODING || g.2.2 = vrLOOP)
  match sortBy faultKey all with
  | [] => none
  | e :: _ => some (Viol.inCell e.2.2 block e.1 e.2.1)

def codeCheck (img : Image) (p : ImagePart) (variant block : Nat) (b : BEntry) (cs : CodeSet) (t : BlockTrace) : Option Viol :=
  codeFailure p block b cs t (bankFaults (noTables img) t.issued ++ openFault img p.chset variant block t)

/-! ### Entries, gate lists and ledgers (R216, R217, R297, R298, R329) -/

/-- The entries that share a block's JOINT_ID: that block alone for one channel. -/
def jointGroup (p : ImagePart) (b : BEntry) : List BEntry :=
  if beJoint b = 0 then [b] else p.blocks.filter fun e => beJoint e = beJoint b

def beBands (b : BEntry) : BitVec 32 := fld b 64 32

def jointOk (p : ImagePart) (b : BEntry) : Bool :=
  decide (beLeader b = lowestBit (beChset b)) && (decide (beJoint b ≠ 0) || decide (countBits (beChset b) = 1)) &&
    (jointGroup p b).all fun e => decide (beLen e = beLen b) && decide (beChset e = beChset b) &&
      decide (beLeader e = beLeader b) && decide (beBands e = beBands b)

/-- An entry's gate list: queue, drain, beats. -/
def gateListOf (p : ImagePart) (b : BEntry) : List (Nat × Bool × Nat) :=
  ((p.gateLists.drop (beGlist b)).take (beGcount b)).map fun e => (fldN e 0 16, bitAt e 16, fldN e 32 32)

/-- Beats that a gate list names for a queue. -/
def listedBeats (l : List (Nat × Bool × Nat)) (q : Nat) (drain : Bool) : Nat :=
  sumN ((l.filter fun e => e.1 = q && e.2.1 = drain).map fun e => e.2.2)

/-- A gate list fits a channel's queues, and names what the code moves there. -/
def listFits (p : ImagePart) (cs : CodeSet) (c : Chn) (l : List (Nat × Bool × Nat)) : Bool :=
  let one := fun (q : Nat) (drain : Bool) (cap : Nat) =>
    let n := listedBeats l q drain
    decide (n ≤ cap) && decide (n = queueMoves (cs.edge.get c) q drain)
  (List.range 64).all (fun q => one q false ((p.sqCaps.get c).getD q 0)) &&
    (List.range 32).all (fun q => one q true ((p.dqCaps.get c).getD q 0)) &&
    l.all fun e => decide (e.1 < if e.2.1 then 32 else 64)

/-- An entry's declared totals are those that the code of a channel makes. -/
def totalsFit (p : ImagePart) (t : BlockTrace) (b : BEntry) (c : Chn) : Bool :=
  let d := p.totals.getD (beLedger b) 0
  let want := t.totals c
  decide (fldN d 0 64 = want.1) && decide (fldN d 64 64 = want.2.1) && decide (fldN d 256 64 = want.2.2.1) &&
    decide (fldN d 320 64 = want.2.2.2)

/-- EDGE_IN and EDGE_OUT against the gate list. -/
def edgeFits (p : ImagePart) (b : BEntry) : Bool :=
  let d := p.totals.getD (beLedger b) 0
  let l := gateListOf p b
  let sum := fun (drain : Bool) => sumN ((l.filter fun e => e.2.1 = drain).map fun e => e.2.2)
  decide (fldN d 128 64 = sum false) && decide (fldN d 192 64 = sum true)

/-- Whether two runs use one port in one cycle. -/
def runsMeet (len : Nat) (r q : W128) : Bool :=
  bitAt r 94 = bitAt q 94 && fldN r 80 8 = fldN q 80 8 &&
    (List.range len).any fun t => runsAt r t && runsAt q t

def anyPair (f : W128 → W128 → Bool) : List W128 → Bool
  | [] => false
  | r :: rs => rs.any (f r) || anyPair f rs

/-- The edge plan of a block in a channel: COLLECTOR, then LENGTH. -/
def planCheck (block len : Nat) (c : Chn) (plan : List W128) : Option Viol :=
  firstOf [
    orFail (!anyPair (runsMeet len) plan) { Viol.inBlock vrCOLLECTOR block with chan := c.val },
    orFail (plan.all fun r => decide (fldN r 0 32 + (fldN r 32 32 - 1) * fldN r 64 16 < len))
      { Viol.inBlock vrLENGTH block with chan := c.val }]

/-- Every check on one block table entry; `walks` are the intervals of the channel programs (R298). An entry of a joint block is that of some channel of the set,
and every channel has one. -/
def State.checkBlock (s : State) (img : Image) (p : ImagePart) (variant i : Nat) (b : BEntry)
    (walks : Quad (List (Nat × CoreCounts))) : Option Viol :=
  match p.codeSets[beCodeset b]? with
  | none => some (Viol.inBlock vrTABLE i)
  | some cs =>
    let chans := chansOf (beChset b)
    let t := s.traceBlock p b cs
    let l := gateListOf p b
    let plan := fun (e : BEntry) (c : Chn) => listFits p cs c (gateListOf p e)
    let one := match chans with
      | [c] => c.val
      | _ => 0xFF
    firstOf ([
      orFail (jointOk p b) (Viol.inBlock vrJOINT i),
      orFail (chans.any (plan b) && l.all fun e => decide (e.1 < if e.2.1 then 32 else 64))
        { Viol.inBlock vrGATELIST i with chan := one }] ++
      chans.map (fun c => orFail ((jointGroup p b).any fun e => plan e c)
        { Viol.inBlock vrGATELIST i with chan := c.val }) ++ [
      orFail (edgeFits p b && chans.any (totalsFit p t b) && t.fits &&
        chans.all (fun c => ((walks.get c).filter fun n => n.1 = i).all fun n =>
          n.2.declared (p.totals.getD (beLedger b) 0)) &&
        chans.all fun c => (jointGroup p b).any fun e => totalsFit p t e c) { Viol.inBlock vrLEDGER i with chan := one },
      orFail (decide (beLen b ≠ 0)) (Viol.inBlock vrLENGTH i),
      codeCheck img p variant i b cs t] ++
      chans.map fun c => planCheck i (beLen b) c (cs.edge.get c))

/-! ### Order and fallback (R341, R374) -/

/-- First byte and end of a tensor's region; `none` when the image does not give the handle. -/
def regionOf (p : ImagePart) (h : Nat) : Option (Nat × Nat) :=
  (Smap.find? p.tensorDescs h).map fun t =>
    let a := tdBase t / 4096 * 4096
    (a, a + 4096 * tdRegion t)

def overlaps (a b : Nat × Nat) : Bool := decide (a.1 < b.2) && decide (b.1 < a.2)

/-- Read streams against the drain streams of their channel. -/
def orderOk (p : ImagePart) (c : Chn) : Bool :=
  let ds := (p.streamDescs.get c).filter fun d => crcGood 32 d.toNat
  let drains := (ds.filter sdDrain).filterMap fun d => regionOf p (sdTensor d)
  (ds.filter fun d => !sdDrain d).all fun d =>
    let own := if sdAfter d then none else regionOf p (sdTensor d)
    let idx := match Smap.find? p.tensorDescs (sdTensor d) with
      | some t => if tdIndex t = 0 then none else regionOf p (tdIndex t)
      | none => none
    (own.toList ++ idx.toList).all fun r => !drains.any (overlaps r)

/-- A block of the main image at which a save point may be taken (R361). -/
def isSaveBlock (p : ImagePart) (b : BEntry) : Bool := !beNoSave b && beChset b = p.chset

def fallbackOk (main p : ImagePart) : Bool :=
  decide (p.chset &&& main.chset = p.chset) &&
  (main.blocks.zipIdx.all fun b => !isSaveBlock main b.1 ||
    match Smap.find? p.resume b.2 with
    | some n => decide (n < p.blocks.length)
    | none => false) &&
  p.restoreMap.all fun e => decide (fldN e 8 8 < 4) && bitAt main.chset (fldN e 8 8) && decide (fldN e 16 8 < 4) &&
    bitAt p.chset (fldN e 16 8)

/-! ### The whole (R231) -/

/-- The first failure of an image of `len` bytes. -/
def State.verify (s : State) (i : Image) (len : Nat) : Option Viol :=
  firstOf [
    s.checkHeader i len,
    orFail (decide (i.variants.length ≤ 4)) (Viol.at_ vrTABLE),
    overParts i fun _ p => checkTables p,
    overParts i fun n p =>
      let walks := (⟨s.intervals p 0, s.intervals p 1, s.intervals p 2, s.intervals p 3⟩ : Quad _)
      p.blocks.zipIdx.findSome? fun b => s.checkBlock i p n b.2 b.1 walks,
    overParts i fun n p => (chans4.findSome? fun c => orFail (orderOk p c) (Viol.inChan vrORDER c.val)).or
      (orFail (n = 0 || fallbackOk i.main p) (Viol.at_ vrFALLBACK))]

/-! ### REPLAYABLE (R257) -/

/-- Regions of the tensors that a block's streams read, or its drains write: those of every descriptor that opens
one of the listed queues. `none` stands for a tensor that the image does not give. -/
def listedRegions (p : ImagePart) (b : BEntry) (drain : Bool) : List (Option (Nat × Nat)) :=
  (chansOf (beChset b)).flatMap fun c => (jointGroup p b).flatMap fun e => (gateListOf p e).flatMap fun l =>
    if l.2.1 ≠ drain || l.2.2 = 0 then []
    else ((p.streamDescs.get c).filter fun d => sdDrain d = drain && sdQueue d = l.1).flatMap fun d =>
      let idx := match Smap.find? p.tensorDescs (sdTensor d) with
        | some t => if tdIndex t = 0 || drain then [] else [regionOf p (tdIndex t)]
        | none => []
      regionOf p (sdTensor d) :: idx

/-- Whether no stream of the block reads what a drain of it writes: kept when no regions overlap. -/
def memoryKept (p : ImagePart) (b : BEntry) : Option Bool :=
  let drains := listedRegions p b true
  if (listedRegions p b false).all (fun r => drains.all fun d => match r, d with
      | some r, some d => !overlaps r d
      | _, _ => false) then some true
  else none

/-- The conditions of the rule, as far as they are computed: no SGNL, TAKE, LTIDE or LRAND; queues from empty to
empty, and open when another block of the part leaves entries; lines, shutters and memory. -/
def replayConditions (fixed : Bool) (p : ImagePart) (allBalanced : Bool) (b : BEntry) (t : BlockTrace) : Option Bool :=
  let cells := t.issued.foldl (fun (l : List CellId) e => if l.contains e.1 then l else e.1 :: l) []
  allKept ([
    some (t.issued.all fun e => ctOp e.2.ct ≠ 0x10 && ctOp e.2.ct ≠ 0x11 && lsOp e.2.ls ≠ 7 && lsOp e.2.ls ≠ 8),
    if !t.balanced then some false else if allBalanced then some true else none,
    linesKept fixed t.issued,
    memoryKept p b] ++ cells.map (shutterKept t.issued))

/-- A part with the bits as the verifier sets them; what the conditions leave open is an open value. -/
def State.markReplayable (s : State) (img : Image) (variant : Nat) (p : ImagePart) : ImagePart :=
  let traces := p.blocks.map fun b => (p.codeSets[beCodeset b]?).map (s.traceBlock p b)
  let allBalanced := traces.all fun t => match t with
    | some t => t.balanced
    | none => true
  { p with blocks := (p.blocks.zip traces).zipIdx.map fun b =>
      let ok := match b.1.2 with
        | some t => (replayConditions (noTables img) p allBalanced b.1.1 t).getD (Config.replayable img variant b.2)
        | none => false
      BitVec.ofNat 512 (withCrc 64 (setBit b.1.1 36 ok).toNat) }

/-- The image as it is loaded. -/
def State.loadedImage (s : State) (i : Image) : Image :=
  { i with
    main := s.markReplayable i 0 i.main
    variants := i.variants.zipIdx.map fun p => s.markReplayable i (p.2 + 1) p.1 }

/-! ### The verification summary (R173, R208) -/

/-- Whether a control-core instruction is marked V or T (R207, R543). -/
def coreVaries (w : W32) : Bool :=
  match coreKind w with
  | some .csrr => fldN w 0 12 = 2
  | some k => [CoreKind.swait, .srd, .msend, .mrecv, .mpoll, .gate, .sopen, .scancel, .sdepth, .wkrd, .wkwr,
      .rdtide, .rdfwait, .rdrand, .rdcyc].contains k
  | none => false

/-- The V operations of a part's cells, and the V and T instructions of its channel programs. -/
def partSummary (variant : Nat) (p : ImagePart) : List Varying :=
  let cells := p.codeSets.zipIdx.flatMap fun cs => ((codeBundles cs.1).filter fun e =>
    let op := lsOp (fld e.2.2.2 96 48)
    decide (op = 7) || decide (op = 8)).map fun e => .cell variant cs.2 e.1 e.2.1 e.2.2.1
  let cores := chans4.flatMap fun c => match p.programs.get c with
    | some g => (g.text.zipIdx.filter fun w => coreVaries w.1).map fun w => .core variant c (4 * w.2)
    | none => []
  cells ++ cores

def imageSummary (i : Image) : List Varying := (imageParts i).zipIdx.flatMap fun p => partSummary p.2 p.1

end Sys2Proof.Machine
end

