-- ==== Sys2Proof/Machine/ImageCmds.lean ====
section
/-! DEFINITION. LOAD_IMAGE, VERIFY_IMAGE and BIND_CHANNELS (R230, R231, R402, R473, R517). -/
namespace Sys2Proof.Machine

/-! ### The verifier's result (R402) -/

/-- RESULT of an image that passed, where no place applies (R390), or of its first failure. -/
def verifyResult (v : Option Viol) (meas : BitVec 512) : BitVec 192 :=
  let r := match v with
    | none => resOne 32 1 0
    | some v => resSet (resSet (resSet (resSet (resSet (resOne 32 1 v.reason) 33 1 v.variant) 34 1 v.chan)
        36 4 v.block) 40 2 v.cell) 42 2 v.bundle
  resSet r 48 8 (meas.toNat % 2 ^ 64)

/-- The bytes of HDM that a command names, LEN clamped to the end of the range. -/
def State.hdmSize (s : State) : Nat := stackBytes * if s.four then 8 else 6

def State.imageLen (s : State) (c : Cmd) : Nat := min (c.arg 1) (s.hdmSize - c.arg 0)

def State.hdmBytes (s : State) (off len : Nat) : List Byte := (List.range len).map fun i => s.mem.hdm.goodByte (off + i)

def State.noteLen (s : State) (c : Cmd) : Cmd := c.clamped 1 (decide (s.imageLen c < c.arg 1))

/-- No enabled channel runs or is in a gate. -/
def State.channelsRest (s : State) : Bool := s.channels.all fun c => !s.busyChan c

/-! ### Loading (R365, R402, R473, R541) -/

/-- A margin that calibration leaves when no row gives one: a free value from 40 to 100. -/
def State.freeMargin (s : State) : State × Byte :=
  ({ s with draw := s.draw + 1 }, BitVec.ofNat 8 (40 + (Config.freeValue s.draw).toNat % 61))

/-- A channel that was switched off is switched on, and its regions are calibrated. -/
def State.powerChan (s : State) (c : Chn) : State :=
  if !bitAt s.pwr.chOff c.val then s
  else
    let s := s.domainsOn (chanDomains c)
    let s : State := { s with pwr := { s.pwr with chOff := setBit s.pwr.chOff c.val false } }
    let s := if s.seamDomain then s.domainsOn [40] else s
    (List.range 9).foldl (fun s i =>
      let m := s.freeMargin
      m.1.calibrated (9 * c.val + i) m.2) s

/-- The previous image with its save points and retirements is discarded. -/
def State.dropImage (s : State) : State :=
  let s : State := { s with
    img := { s.img with retiredSet := 0 }
    mem := { s.mem with tdt := [] }
    flt := { s.flt with recovering := false }
    recov := { s.recov with
      rolling := .none, saveDue := false, saveStop := false, saveTicks := 0, saveActive := false, saveFailed := false
      written := [], lastFaults := [], fellBack := [], rollTicks := [], own := none } }
  let s := s.channels.foldl (fun s c => s.modChan c fun ch => { ch with
    gate := { ch.gate with st := .noImage }
    regs2 := { ch.regs2 with reproduced := false, rollbacks := 0 } }) s
  s.dropSaves

/-- The image's bytes enter its region (R230, R442), with their poison. -/
def State.copyImage (s : State) (off len : Nat) : State :=
  s.partWrite 8 ((List.range len).map fun i =>
    s.mem.hdm.marked (off + i) (s.cxl.carveImage.toNat + i))

def State.loadImage (s : State) (i : Image) (off len : Nat) (meas : BitVec 512) : State :=
  let s := (chansOf i.main.chset).foldl State.powerChan (s.copyImage off len).dropImage
  let s : State := { s with
    img := { s.img with image := some (s.loadedImage i) }
    job := { s.job with meas := meas, imageChanged := true } }
  s.bindVariant 0

/-- The verifier's summary of an image (R173, R208). -/
def State.summarize (s : State) (i : Image) : State := { s with img := { s.img with summary := imageSummary i } }

/-- LOAD_IMAGE; a length of 0 does nothing (R394). -/
def loadImageRow (i : Image) (s : State) (c : Cmd) : State :=
  let len := s.imageLen c
  let c := s.noteLen c
  if len = 0 then s.done c resNone
  else if !s.channelsRest then s.abort c rsSTATE
  else
    let meas := sha512 (s.hdmBytes (c.arg 0) len)
    let s := s.summarize i
    match s.verify i len with
    | some v => s.finish c stREJECTED 0 (verifyResult (some v) meas)
    | none => (s.loadImage i (c.arg 0) len meas).done c (verifyResult none meas)

def execLoadImage (seq : W64) (img : Image) (s : State) : Host.Outcome State Fault Refusal :=
  .next (s.onCmd opLOAD seq (loadImageRow img))

/-! ### Verifying without loading -/

def verifyImageRow (i : Image) (s : State) (c : Cmd) : State :=
  let len := s.imageLen c
  let c := s.noteLen c
  let meas := sha512 (s.hdmBytes (c.arg 0) len)
  if len = 0 then s.done c resNone else
  let s := s.summarize i
  match s.verify i len with
  | some v => s.finish c stREJECTED 0 (verifyResult (some v) meas)
  | none => s.done c (verifyResult none meas)

def execVerifyImage (seq : W64) (img : Image) (s : State) : Host.Outcome State Fault Refusal :=
  .next (s.onCmd opVERIFY seq (verifyImageRow img))

/-! ### Binding (R516, R517) -/

/-- The channels of a variant, when the image has it. -/
def State.variantSet (s : State) (v : Nat) : Option (BitVec 4) :=
  s.img.image.bind fun i => if v ≤ i.variants.length then some (partOf i v).chset else none

def bindRow (s : State) (c : Cmd) : State :=
  match s.channelsRest, s.variantSet (c.arg 0) with
  | true, some m =>
    if (chansOf m).any fun d => (s.chan d).gate.st = .retired then s.abort c rsRETIRED
    else
      let s := s.bindVariant (c.arg 0)
      let s := s.channels.foldl (fun s d => s.modChan d fun ch => { ch with
        regs2 := { ch.regs2 with reproduced := false } }) s
      let s : State := { s with
        job := { s.job with active := false }
        flt := { s.flt with recovering := false }
        recov := { s.recov with rolling := .none, own := none } }
      s.done c (resOne 32 1 m.toNat)
  | _, _ => s.abort c rsSTATE

def execBindChannels (seq : W64) (s : State) : Host.Outcome State Fault Refusal := .next (s.onCmd opBIND seq bindRow)

end Sys2Proof.Machine
end

