-- ==== Sys2Proof/Machine/RunCmds.lean ====
section
/-! DEFINITION. The run-control commands (R399, R403 to R405, R515): START, STOP, STOP_AFTER_BLOCK, SAVE,
RESUME, RESUME_STREAM, RETIRE_CHANNEL, ADOPT_FALLBACK and RESET_CHANNEL. -/
namespace Sys2Proof.Machine

/-! ### What keeps a command from acting -/

def State.anySt (s : State) (l : List Chn) (x : ChState) : Bool := l.any fun d => (s.chan d).gate.st = x

def State.boundRest (s : State) : Bool :=
  !s.bound.isEmpty && s.bound.all fun d => (s.chan d).gate.st = .stopped || (s.chan d).gate.st = .held

/-- Channels in `memo` for which a command waits. -/
def Cmd.waiting (c : Cmd) (l : List Chn) : Cmd := { c with memo := w64 (16 * (bits4 l).toNat) }

/-! ### START (R223, R260, R275, R403) -/

def nonZero (x : W128) : W128 := if x = 0 then 1 else x

/-- A job begins: digest keys, counters, chains and accumulators start anew. -/
def State.beginJob (s : State) (key : BitVec 256) (start : W64) : State :=
  let k := sha512Bytes (asciiBytes "VT8-DIGEST" ++ bytesLE 32 key.toNat)
  let s : State := { s with job := { s.job.newSegment start s.pairMember with
    active := true
    key := key
    h := nonZero (BitVec.ofNat 128 (ofBytesLE (k.take 16)))
    g := nonZero (BitVec.ofNat 128 (ofBytesLE ((k.drop 16).take 16)))
    accum := []
    prev := none } }
  s.channels.foldl (fun s d => s.modChan d fun ch => { ch with
    chain := { ch.chain.newSegment with ring := ch.chain.ring, ringPos := 0 }
    regs2 := { ch.regs2 with tallyChk := 0, tallyUnchk := 0, replays := 0, replayFails := 0, digRecs := 0 } }) s

/-- A channel begins its program or goes on. -/
def State.startChan (s : State) (mark : Option W64) (d : Chn) : State :=
  let s := s.modChan d fun ch => { ch with
    core := if ch.gate.st = .loaded then { ch.core with started := true, readyAt := s.cy + 1 } else ch.core
    gate := { ch.gate with stopNow := false, halted := false, stopCause := 0 }
    regs := match mark with
      | some m => { ch.regs with gateMark := m }
      | none => ch.regs }
  if (s.chan d).regs2.slackEntered then s.modGate d fun g => { g with st := .gate, phase := .slack }
  else s.enterOpening d

/-- START. Channels that a reproduced fault has stopped stay so (R360). -/
def startRow (s : State) (c : Cmd) : State :=
  let l := s.maskOf c
  let key := BitVec.ofNat 256 (c.arg 1)
  if l.isEmpty then s.done c resNone
  else if s.anySt l .retired then s.abort c rsRETIRED
  else if !l.all (fun d => ((s.chan d).gate.st = .loaded || (s.chan d).gate.st = .stopped) &&
      !(s.chan d).regs2.reproduced) then s.abort c rsSTATE
  else if key ≠ 0 && (l ≠ s.bound || s.anySt s.bound .running) then s.abort c rsSTATE
  else
    let s := if key = 0 then s else s.beginJob key c.accept
    (l.foldl (State.startChan · (if c.hasMark then some c.mark else none)) s).keepCmd (c.waiting l)

/-- Orders whose mark has passed act before a channel starts (R38, R39). -/
def execStart (seq : W64) (s : State) : Host.Outcome State Fault Refusal :=
  .next (s.applyMarks.onCmd opSTART seq startRow)

/-! ### STOP (R225, R404) -/

/-- Stop at the next gate. -/
def State.askStop (s : State) (d : Chn) : State :=
  if s.busyChan d then s.modGate d fun g => { g with stopNow := true } else s

def stopRow (s : State) (c : Cmd) : State :=
  let l := s.maskOf c
  if c.lineStop then
    if s.tide.role ≠ rlMANAGER then s.abort c rsNOTMANAGER
    else
      match s.placeOrder otHALT (BitVec.ofNat 8 (c.arg 2)) c.mark 0 with
      | some (s, moved) => let c := c.clamped 30 moved
                           s.done c resNone
      | none => s.abort c rsNOSLOT
  else if s.anySt l .held then s.finish c stFAULTED rsHELD resNone
  else if l.isEmpty then s.done c (resOne 32 1 0)
  else if c.hasMark then
    match s.storeOrder otHALT (s.localMark c.mark) (w64 (bits4 l).toNat) with
    | some s => s.keepCmd c
    | none => s.abort c rsNOSLOT
  else (l.foldl State.askStop s).keepCmd c

def execStop (seq : W64) (s : State) : Host.Outcome State Fault Refusal := .next (s.onCmd opSTOP seq stopRow)

/-! ### STOP_AFTER_BLOCK (R226, R405) -/

/-- `CHn_STOPAFTER` as the command writes it: a number below the channel's current one is taken as that. -/
def State.stopAfterOf (s : State) (d : Chn) (seq : W64) : W64 :=
  if seq.toNat < (s.chan d).gate.current.toNat then (s.chan d).gate.current else seq

def stopAfterRow (s : State) (c : Cmd) : State :=
  let l := s.maskOf c
  let seq := w64 (c.arg 1)
  let c := c.clamped 1 (l.any fun d => s.stopAfterOf d seq ≠ seq)
  let s := l.foldl (fun s d => s.modChan d fun ch => { ch with
    regs := { ch.regs with stopAfter := s.stopAfterOf d seq } }) s
  if l.isEmpty then s.done c (resOne 32 8 (s.lowSeq l)) else s.keepCmd c

def execStopAfterBlock (seq : W64) (s : State) : Host.Outcome State Fault Refusal :=
  .next (s.onCmd opSTOPAFTER seq stopAfterRow)

/-! ### SAVE and RESUME (R365, R403) -/

def saveRow (s : State) (c : Cmd) : State :=
  if s.bound.isEmpty then s.abort c rsSTATE
  else
    let s := s.keepCmd c
    { s with recov := { s.recov with saveDue := true, saveStop := s.recov.saveStop || c.arg 0 = 1 } }

def execSave (seq : W64) (s : State) : Host.Outcome State Fault Refusal := .next (s.onCmd opSAVE seq saveRow)

/-- A bound channel forgets why it stands, before it is restored on command. -/
def State.forgetStop (s : State) (d : Chn) : State := s.modChan d fun ch => { ch with
  gate := { ch.gate with halted := false, stopCause := 0, stopNow := false }
  regs2 := { ch.regs2 with reproduced := false } }

/-- Restore the newest save point on command. -/
def State.resumeAll (s : State) (slots : Chn → Option Slot) : State :=
  let s := s.bound.foldl (fun s d => s.cancelAll d) s
  let s := s.bound.foldl (fun s d => s.closePort d.val) (s.bound.foldl State.forgetStop s.absorbFlight)
  s.restoreAll false slots

def resumeRow (s : State) (c : Cmd) : State :=
  if !s.boundRest then s.abort c rsSTATE
  else
    match s.canRestore false with
    | none => s.abort c rsNOSAVE
    | some n => (s.keepCmd { c.waiting s.bound with result := resOne 32 8 n.toNat }).resumeAll (s.restoreSlot false)

def execResume (seq : W64) (s : State) : Host.Outcome State Fault Refusal :=
  .next (s.applyMarks.onCmd opRESUME seq resumeRow)

/-! ### RESUME_STREAM (R335) -/

def resumeStreamRow (s : State) (c : Cmd) : State :=
  let d := chnOf (c.arg 0)
  let q := c.arg 1
  let drain := decide (c.arg 2 = 1)
  let s := s.resumeStream d q drain
  let halted := if drain then (s.dqOf d q).halted else (s.sqOf d q).halted
  s.done c (resOne 32 1 (boolBit halted))

def execResumeStream (seq : W64) (s : State) : Host.Outcome State Fault Refusal :=
  .next (s.onCmd opSTREAM seq resumeStreamRow)

/-! ### RETIRE_CHANNEL and ADOPT_FALLBACK (R372, R373) -/

def retireRow (s : State) (c : Cmd) : State :=
  let d := chnOf (c.arg 0)
  if (s.chan d).gate.st = .retired then s.abort c rsRETIRED
  else if !s.bound.contains d then s.abort c rsSTATE
  else
    match s.canRestore false with
    | none => s.abort c rsNOSAVE
    | some n =>
      let s := s.bound.foldl (fun s e => s.modChan e fun ch => { ch with
        regs2 := { ch.regs2 with reproduced := false } }) (s.keepCmd c)
      s.beginRollback false (some d.val) n []

def execRetireChannel (seq : W64) (s : State) : Host.Outcome State Fault Refusal :=
  .next (s.onCmd opRETIRE seq retireRow)

/-- The variant that the command names, or that R373 selects. -/
def State.adoptee (s : State) (v : Nat) : Option Nat :=
  match s.img.image with
  | none => none
  | some i => if v = 0xFF then selectVariant i (bits4 s.survivors) else if v ≤ i.variants.length then some v else none

/-- The bound channels stand where a START goes on. -/
def State.restHere (s : State) : State := s.bound.foldl (fun s d => s.modGate d fun g => { g with
  st := .stopped, phase := .none, ready := false, stopCause := 3, stopNow := false, halted := false }) s

/-- Bind a variant and restore it from the newest save point; the main image restores as RESUME does. -/
def State.adopt (s : State) (v : Nat) : State :=
  let slots := fun (d : Chn) => s.restoreSlot false d
  let ws := match s.keeper.bind slots with
    | some x => x.saveSet
    | none => []
  if v = 0 then ((s.bindVariant 0).resumeAll slots).restHere else ((s.applyVariant v slots).putSaveSet ws).restHere

def adoptRow (s : State) (c : Cmd) : State :=
  if !s.boundRest then s.abort c rsSTATE
  else
    match s.adoptee (c.arg 0) with
    | none => if c.arg 0 = 0xFF then s.recoveryFailed.finish c stFAULTED rsRECOVERY resNone else s.abort c rsSTATE
    | some v =>
      let m := (s.variantSet v).getD 0
      if (chansOf m).any fun d => (s.chan d).gate.st = .retired then s.abort c rsRETIRED
      else if (s.canRestore false).isNone then s.abort c rsNOSAVE
      else (s.adopt v).done c (resSet (resOne 32 1 v) 33 1 m.toNat)

def execAdoptFallback (seq : W64) (s : State) : Host.Outcome State Fault Refusal :=
  .next (s.onCmd opADOPT seq adoptRow)

/-! ### RESET_CHANNEL (R515, R516) -/

/-- A channel resets at once, or at the gate at which it stops; in a slack window when it leaves. -/
def State.askReset (s : State) (d : Chn) : State :=
  if s.busyChan d || (s.chan d).regs2.slackEntered then
    s.modGate d fun g => { g with resetDue := true, stopNow := true }
  else s.resetChan d

def resetRow (s : State) (c : Cmd) : State :=
  let l := s.maskOf c
  if s.anySt l .retired then s.abort c rsRETIRED
  else if s.anySt l .noImage then s.abort c rsSTATE
  else if l.isEmpty then s.done c resNone
  else (l.foldl State.askReset s).keepCmd c

def execResetChannel (seq : W64) (s : State) : Host.Outcome State Fault Refusal := .next (s.onCmd opRESET seq resetRow)

end Sys2Proof.Machine
end

