-- ==== Sys2Proof/Machine/TimeCmds.lean ====
section
/-! DEFINITION. The time and service commands (R400, R406 to R408, R460, R483, R511): frequency plans,
slack windows, tide roles, tasks of a window and firmware staging. -/
namespace Sys2Proof.Machine

/-! ### SET_FREQ_PLAN (R406) -/

/-- Mark and step `i` of a plan. -/
def Cmd.planStep (c : Cmd) (i : Nat) : W64 × W64 := (w64 (c.arg (3 + 2 * i)), w64 (c.arg (4 + 2 * i)))

/-- Free slots of the frame that a manager sends. -/
def State.freeLine (s : State) : Nat := ((List.range 4).filter fun n => (s.line.sending.getD n none).isNone).length

/-- The steps are stored locally. -/
def State.storePlan (s : State) (c : Cmd) (n : Nat) : State :=
  (List.range n).foldl (fun s i =>
    let p := c.planStep i
    (s.storeOrder otFREQ (s.localMark p.1) p.2).getD s) s

/-- The steps are placed on the line; a mark that moved sets its clamp bit. -/
def State.placePlan (s : State) (c : Cmd) (n : Nat) : State × Cmd :=
  (List.range n).foldl (fun acc i =>
    let p := acc.2.planStep i
    match acc.1.placeOrder otFREQ (BitVec.ofNat 8 (c.arg 2)) p.1 p.2 with
    | some (s, moved) => (s, acc.2.clamped (3 + 2 * i) moved)
    | none => acc) (s, c)

def freqPlanRow (s : State) (c : Cmd) : State :=
  let n := c.arg 0
  if n = 0 then s.done c (resOne 32 1 0)
  else if c.arg 1 = 1 then
    if s.tide.role ≠ rlMANAGER then s.abort c rsNOTMANAGER
    else if s.freeLine < n then s.abort c rsNOSLOT
    else
      let r := s.placePlan c n
      r.1.done r.2 (resOne 32 1 n)
  else if s.freeOrders < n then s.abort c rsNOSLOT
  else (s.storePlan c n).done c (resOne 32 1 n)

def execSetFreqPlan (seq : W64) (s : State) : Host.Outcome State Fault Refusal :=
  .next (s.onCmd opFREQ seq freqPlanRow)

/-! ### SCHEDULE_SLACK (R406) -/

/-- The mark asked for: the header's, or the earliest on the line, or the next boundary here. -/
def State.slackAsk (s : State) (c : Cmd) (line : Bool) : W64 :=
  if c.hasMark then c.mark else if line then s.earliestMark else s.tide.count + 1

def slackRow (s : State) (c : Cmd) : State :=
  let line := decide (c.arg 1 = 1)
  let ask := s.slackAsk c line
  let c := c.clamped 30 (!c.hasMark)
  if c.arg 0 = 0 then s.done c resNone
  else if line && s.tide.role ≠ rlMANAGER then s.abort c rsNOTMANAGER
  else if line then
    match s.placeOrder otSLACK (BitVec.ofNat 8 (c.arg 2)) ask (w64 (c.arg 0)) with
    | some (t, moved) =>
      let used := if moved then s.earliestMark else ask
      t.done (c.clamped 30 moved) (resOne 32 8 used.toNat)
    | none => s.abort c rsNOSLOT
  else
    let m := s.localMark ask
    match s.storeOrder otSLACK m (w64 (c.arg 0)) with
    | some t => t.done c (resOne 32 8 m.toNat)
    | none => s.abort c rsNOSLOT

def execScheduleSlack (seq : W64) (s : State) : Host.Outcome State Fault Refusal := .next (s.onCmd opSLACK seq slackRow)

/-! ### SET_TIDE_ROLE (R61, R62, R407) -/

/-- Nobody drives the line, as far as the device can tell. -/
def State.lineIdle (s : State) : Bool :=
  s.tide.loss || ((s.tide.role = rlSELF || (s.tide.role = rlWORKER && !s.tide.locked)) && !s.line.active)

/-- The role WORKER or SELF takes effect: a part that leaves MANAGER lets go of the line, a new worker is
unlocked and holds (R60), a part in SELF holds for nothing. -/
def State.setRole (s : State) (r : BitVec 2) : State :=
  if s.tide.role = r then s
  else
    let s : State := { s with
      tide := { s.tide with
        role := r, driving := false, locked := false, loss := false, ahead := false, hold := r = rlWORKER }
      line := { s.line.dropFrame with
        neverLocked := true, missRun := 0, releaseAt := none, resume := none, halts := []
        sending := Vector.replicate 4 none } }
    s.tideEntry false false

def roleRow (s : State) (c : Cmd) : State :=
  if c.arg 1 = 1 then
    if s.tide.role ≠ rlMANAGER then s.abort c rsNOTMANAGER
    else
      match s.placeOrder otHANDOVER 0xFF (if c.hasMark then c.mark else s.earliestMark) (w64 (c.arg 2)) with
      | some (s, moved) => s.keepCmd (c.clamped 30 (moved || !c.hasMark))
      | none => s.abort c rsNOSLOT
  else if c.arg 0 = 2 then
    if s.tide.eligible && s.lineIdle then
      { s.keepCmd c with line := { s.line with resume := some s.resumeCount } }
    else s.abort c rsSTATE
  else
    let s := s.setRole (BitVec.ofNat 2 (c.arg 0))
    s.done c (resOne 32 1 s.tide.role.toNat)

def execSetTideRole (seq : W64) (s : State) : Host.Outcome State Fault Refusal :=
  .next (s.onCmd opTIDEROLE seq roleRow)

/-! ### Tasks of a window (R408, R507) -/

/-- A command waits for its task. -/
def State.askTask (s : State) (c : Cmd) (t : SlackTask) : State := (s.keepCmd c).attachTask (s.newTask t c.seq)

def substituteRow (s : State) (c : Cmd) : State :=
  let d := chnOf (c.arg 0)
  let p := c.arg 1
  if (s.chan d).regs.out0.toNat = p || (s.chan d).regs.out1.toNat = p then s.abort c rsSTATE
  else s.askTask c (.substitute d p)

def execSubstituteColumn (seq : W64) (s : State) : Host.Outcome State Fault Refusal :=
  .next (s.onCmd opSUBST seq substituteRow)

def calibrateRow (s : State) (c : Cmd) : State := s.askTask c (.calibrate (Fin.ofNat 37 (c.arg 0)))

def execCalibrate (seq : W64) (s : State) : Host.Outcome State Fault Refusal :=
  .next (s.onCmd opCALIBRATE seq calibrateRow)

def retrainRow (s : State) (c : Cmd) : State := s.askTask c (.retrain (Fin.ofNat 8 (c.arg 0)))

def execHbmRetrain (seq : W64) (s : State) : Host.Outcome State Fault Refusal :=
  .next (s.onCmd opRETRAIN seq retrainRow)

/-! ### Firmware (R479, R480, R483) -/

def stageRow (s : State) (c : Cmd) : State :=
  let len := min (c.arg 1) (s.hdmSize - c.arg 0)
  let c := c.clamped 1 (decide (len < c.arg 1))
  let bs := s.hdmBytes (c.arg 0) len
  if len = 0 then s.done c resNone else
  let good := s.fwCheck bs = 0
  let slot : FwSlot := if good then ⟨bs, true⟩ else ⟨[], false⟩
  let s : State := { s with sec := { s.sec with
    flashA := if s.activeSlot then slot else s.sec.flashA
    flashB := if s.activeSlot then s.sec.flashB else slot
    staged := good
    fwStaged := if good then fwVersion bs else 0 } }
  if good then s.done c (resSet (resOne 32 8 (fwVersion bs).toNat) 40 8 ((fwMeasure bs 2).toNat % 2 ^ 64))
  else s.finish c stAUTH 0 resNone

def execFwStage (seq : W64) (s : State) : Host.Outcome State Fault Refusal := .next (s.onCmd opSTAGE seq stageRow)

def activateRow (s : State) (c : Cmd) : State :=
  if !s.sec.staged then s.abort c rsNOTHING
  else { s with sec := { s.sec with activating := true } }.askTask c .firmware

def execFwActivate (seq : W64) (s : State) : Host.Outcome State Fault Refusal :=
  .next (s.onCmd opACTIVATE seq activateRow)

end Sys2Proof.Machine
end

