-- ==== Sys2Proof/Machine/Pairs.lean ====
section
/-! DEFINITION. Lock-step pairs (R270 to R274, R409): PAIR_MODE, the manager's comparisons, and a member's
ring. -/
namespace Sys2Proof.Machine

/-! ### PAIR_MODE -/

/-- Membership begins or ends on every channel. -/
def State.setMember (s : State) (on : Bool) (ring : W64) : State :=
  let s := s.channels.foldl (fun s d => s.modChan d fun ch => { ch with regs2 := { ch.regs2 with
    pairMember := on, pairRing := ring, pairProduced := 0, pairConsumed := 0, ringFull := false } }) s
  if on then s else { s with job := { s.job with pair := false } }

def State.pairSlot (s : State) (n : Nat) : PairSlot := s.job.pairs.getD n PairSlot.reset

def State.setPair (s : State) (n : Nat) (p : PairSlot) : State :=
  { s with job := { s.job with pairs := s.job.pairs.set! n p } }

/-- A compare slot starts. -/
def State.startPair (s : State) (c : Cmd) : State :=
  let n := c.arg 1
  s.setPair n { PairSlot.reset with
    state := 1
    addrA := BitVec.ofNat 8 (c.arg 2)
    addrB := BitVec.ofNat 8 (c.arg 3)
    timeout := (s.pairSlot n).timeout
    ringA := w64 (c.arg 4)
    ringB := w64 (c.arg 5) }

/-- A member's mode may change. -/
def State.memberRest (s : State) : Bool :=
  s.img.image.isNone || s.bound.all fun d => (s.chan d).gate.st = .stopped

def pairModeRow (s : State) (c : Cmd) : State :=
  let mode := c.arg 0
  let manager := decide (s.tide.role = rlMANAGER)
  if mode = 2 then if manager then (s.startPair c).done c resNone else s.abort c rsNOTMANAGER
  else if mode = 0 && manager then (s.setPair (c.arg 1) { s.pairSlot (c.arg 1) with state := 0 }).done c resNone
  else if s.memberRest then (s.setMember (decide (mode = 1)) (w64 (c.arg 4))).done c resNone
  else s.abort c rsSTATE

def execPairMode (seq : W64) (s : State) : Host.Outcome State Fault Refusal := .next (s.onCmd opPAIR seq pairModeRow)

/-! ### Comparing (R272) -/

/-- The head entry of a channel in a ring, when one waits. -/
def State.pairHead (s : State) (ring : W64) (c : Chn) : Option (BitVec 512) :=
  let cons := s.pairCons ring c
  if s.pairProd ring c = cons then none
  else some (BitVec.ofNat 512 (s.vaGet (pairRegion ring c + 64 * (cons.toNat % 4096)) 64))

/-- CONSUMED of a channel goes up by one in a ring. -/
def State.consume (s : State) (ring : W64) (c : Chn) : State :=
  s.vaPut (ring.toNat + 32 + 8 * c.val) (bytesLE 8 (s.pairCons ring c + 1).toNat)

/-- A record at or below the last one compared. -/
def isOld (last : Option W64) (r : BitVec 512) : Bool :=
  match last with
  | some l => decide (fldN r 0 64 ≤ l.toNat)
  | none => false

/-- Why two heads differ: 0 when they do not, else the cause as IOD_PAIRn shows it. -/
def headsDiffer (a b : BitVec 512) : BitVec 2 :=
  if !crcGood 64 a.toNat || !crcGood 64 b.toNat then 3
  else if fldN a 0 64 ≠ fldN b 0 64 then 2
  else if fldN a 0 384 ≠ fldN b 0 384 then 1
  else 0

/-- A HALT order of the manager's own: it enters the frame, or waits for a slot of it. -/
def State.haltWorker (s : State) (addr : Byte) : State :=
  ({ s with line := { s.line with halts := s.line.halts ++ [addr] } } : State).placeHalts

/-- The slot stops with a divergence, and both workers are halted. -/
def State.diverge (s : State) (n : Nat) (p : PairSlot) (c : Chn) (seq : W64) (cause : BitVec 2) : State :=
  let s := s.setPair n { p with
    state := 2, divCause := cause, divChannel := BitVec.ofNat 2 c.val, divSeq := seq }
  ((s.raise (evPairDiverged n)).haltWorker p.addrA).haltWorker p.addrB

/-- Compare two heads. -/
def State.compareHeads (s : State) (n : Nat) (c : Chn) (a b : BitVec 512) : State :=
  let p := s.pairSlot n
  let s := (s.consume p.ringA c).consume p.ringB c
  let q : PairSlot := { p with compared := p.compared + 1 }
  let cause := headsDiffer a b
  if cause = 0 then s.setPair n { q with state := 1, lastSeq := q.lastSeq.set c (some (fld a 0 64)) }
  else s.diverge n q c (fld a 0 64) cause

/-- Pass over an old record of one ring. -/
def State.passOver (s : State) (n : Nat) (ring : W64) (c : Chn) : State :=
  let p := s.pairSlot n
  (s.consume ring c).setPair n { p with skipped := p.skipped + 1 }

/-- One step of the manager on a channel of a slot: an old head is passed over, or two heads compared. -/
def State.pairStep (s : State) (n : Nat) (c : Chn) : State :=
  let p := s.pairSlot n
  if (p.state ≠ 1 && p.state ≠ 3) || !s.cxl.up || s.tide.role ≠ rlMANAGER then s
  else
    let last := p.lastSeq.get c
    match s.pairHead p.ringA c, s.pairHead p.ringB c with
    | some a, some b =>
      if isOld last a then s.passOver n p.ringA c
      else if isOld last b then s.passOver n p.ringB c
      else s.compareHeads n c a b
    | some a, none => if isOld last a then s.passOver n p.ringA c else s
    | none, some b => if isOld last b then s.passOver n p.ringB c else s
    | none, none => s

def execPairCompare (slot : Fin 8) (c : Chn) (s : State) : Host.Outcome State Fault Refusal :=
  s.onChan c fun s => s.pairStep slot.val c

/-! ### Stalls (R273) -/

/-- One side has not advanced in a channel while the other has entries waiting. -/
def State.sideStalled (s : State) (p : PairSlot) (c : Chn) : Bool :=
  (decide (p.timeout.toNat ≤ p.sinceA.get c) && (s.pairHead p.ringB c).isSome) ||
    (decide (p.timeout.toNat ≤ p.sinceB.get c) && (s.pairHead p.ringA c).isSome)

def State.pairStall (s : State) (n : Nat) : State :=
  let p := s.pairSlot n
  if p.state = 1 && s.channels.any (s.sideStalled p) then
    (s.setPair n { p with state := 3 }).raise (evPairStall n)
  else s

def execPairStall (slot : Fin 8) (s : State) : Host.Outcome State Fault Refusal := .next (s.pairStall slot.val)

/-! ### A member's ring (R271) -/

/-- The member reads CONSUMED; a ring that is no longer full lets its channel go on. -/
def State.pollRing (s : State) (c : Chn) : State :=
  let x := (s.chan c).regs2
  if x.pairMember && s.cxl.up then
    let cons := s.pairCons x.pairRing c
    s.modChan c fun ch => { ch with regs2 := { ch.regs2 with
      pairConsumed := cons
      ringFull := decide (4096 ≤ (ch.regs2.pairProduced - cons).toNat) } }
  else s

def execPairRingPoll (c : Chn) (s : State) : Host.Outcome State Fault Refusal :=
  s.onChan c fun s => s.pollRing c

end Sys2Proof.Machine
end

