-- ==== Sys2Proof/Machine/Peers.lean ====
section
/-! DEFINITION. What the host reaches beside the registers: packets sent to peers and their replies (R448,
R449), configuration space (R436, R447), and the DOE mailboxes (R446). -/
namespace Sys2Proof.Machine

/-! ### Peer reach (R448, R449) -/

def ringSpan : Nat := 0x100000

/-- Where ring `n` of the peer reply area lies. -/
def State.peerRing (s : State) (n : Nat) : Nat := s.cxl.carvePeer.toNat + ringSpan * n

/-- The next expected sequence of peer `n`, from ACCEPTED in its ring's header. -/
def State.peerNext (s : State) (n : Nat) : W64 :=
  w64 (ofBytesLE ((List.range 8).map fun i => s.mem.hdm.goodByte (s.peerRing n + i)) + 1)

/-- The staged packet with its sequence and CRC. -/
def stampPacket (x : BitVec 2048) (seq : W64) : BitVec 2048 :=
  let y := setFld x 0 64 seq
  setFld y 224 32 (packetCrc y)

def State.peerAt (s : State) (n : Nat) : Peer := s.cxl.peers.getD n ⟨0, 0, 0, false⟩

/-- The packet goes to one peer: bytes 8 to 223, then bytes 0 to 7. -/
def State.sendPeer (s : State) (n : Nat) : State :=
  let p := s.peerAt n
  let s := s.checkHdm ((List.range 8).map (s.peerRing n + ·))
  let seq := s.peerNext n
  let slot := p.win.toNat + 256 * (seq.toNat % 4096)
  let bs := bytesLE 224 (stampPacket s.cxl.peerPkt seq).toNat
  (s.hostPut (slot + 8) (bs.drop 8)).hostPut slot (bs.take 8)

/-- A write of `CXLP_PEER_SEND.MASK`: the valid peers in ascending order; the others are skipped, and
all of them while peer reach is off. -/
def State.sendPeers (s : State) (mask : W16) : State :=
  if s.cxl.peerBusy then s
  else
    let asked := (List.range 16).filter fun n => bitAt mask n
    let good := asked.filter fun n => s.cxl.p2p && (s.peerAt n).valid
    let skipped := asked.foldl (fun (m : W16) n => setBit m n (!good.contains n)) 0
    good.foldl State.sendPeer { s with cxl := { s.cxl with peerMask := mask, peerSkipped := skipped } }

def execPeerSend (mask : W16) (s : State) : Host.Outcome State Fault Refusal := .next (s.sendPeers mask)

/-- A CXL.io write reaches the peer reply area at an offset: it lands in ring `n` when it comes from
peer `n`, and is discarded and counted otherwise. -/
def State.peerReply (s : State) (reqId : W16) (off : Nat) (data : List Byte) : State :=
  let n := off / ringSpan
  if s.cxl.p2p && decide (n < 16) && decide (off % ringSpan + data.length ≤ ringSpan) && (s.peerAt n).reqId = reqId then
    s.partWrite 8 (plainWrites (s.cxl.carvePeer.toNat + off) data)
  else s.hdmError (s.cxl.carvePeer.toNat + off)

def execPeerReplyWrite (reqId : W16) (off : Nat) (data : List Byte) (s : State) :
    Host.Outcome State Fault Refusal :=
  .next (s.peerReply reqId off data)

/-! ### Configuration space (R425, R436, R447) -/

/-- The word at an offset: identity, revision and class code, the 64 MiB BAR0, the MSI-X control word, no
FLR (R436), and range 1 of the CXL DVSEC: its size, Memory_Info_Valid, Memory_Active and the timeout (R441),
and the base that the host has programmed (PRESUMED, log 90: places of the bits as CXL 3.1 and PCIe have
them). The rest of the layout is left to the standards. -/
def State.configWord (s : State) (off : Nat) : W32 :=
  let w := Config.configSpace off (Smap.get 0 s.cxl.cfgSpace off)
  if off = 0x00 then w32 (0x00080000 + Config.vendorId.toNat)
  else if off = 0x08 then 0x120000B0
  else if off = 0x10 then (Smap.get 0 s.cxl.cfgSpace off &&& 0xFC000000) ||| 0x4
  else if off = 0x14 then Smap.get 0 s.cxl.cfgSpace off
  else if 0x18 ≤ off && off < 0x28 then 0
  else if off = Config.msixCap then
    setFld (setFld w 16 11 63#11) 30 2 (BitVec.ofNat 2 (boolBit s.ev.msixMask + 2 * boolBit s.ev.msixEnable))
  else if off = Config.pcieCap + 4 then setFld w 28 1 0#1
  else if off = Config.cxlDvsec + 0x18 then w32 (s.hdmSize / 2 ^ 32)
  else if off = Config.cxlDvsec + 0x1C then
    setFld (setFld w 0 2 (BitVec.ofNat 2 (3 * boolBit s.cxl.memActive))) 13 3 3#3
  else if off = Config.cxlDvsec + 0x20 then Smap.get 0 s.cxl.cfgSpace off
  else if off = Config.cxlDvsec + 0x24 then Smap.get 0 s.cxl.cfgSpace off &&& 0xF0000000
  else w

/-- A configuration request, answered while the link is up. -/
def State.configure (s : State) (write : Bool) (off : Nat) (val : W32) : State :=
  if !s.cxl.up || off % 4 ≠ 0 || 4096 ≤ off then s
  else if write then
    let s : State := { s with cxl := { s.cxl with cfgSpace := Smap.upsert s.cxl.cfgSpace off val } }
    if off = Config.msixCap then
      ({ s with ev := { s.ev with msixEnable := bitAt val 31, msixMask := bitAt val 30 } } : State).deliverEvents
    else s
  else { s with cxl := { s.cxl with readData := (s.configWord off).setWidth 64 } }

def execConfigRequest (write : Bool) (off : Nat) (val : W32) (s : State) : Host.Outcome State Fault Refusal :=
  .next (s.configure write off val)

/-! ### DOE (R446) -/

/-- The protocols of the mailboxes: 0 Discovery, 1 CXL Table Access, 2 SPDM, 3 CXL Compliance. -/
def doeCarries (m : Nat) (protocol : Nat) : Bool := decide (protocol = 0) || decide (protocol = m + 1)

/-- Vendor and type of a protocol, as the standards number them. -/
def doeProtocol : Nat → W16 × Byte
  | 0 => (0x0001, 0x00)
  | 1 => (0x1E98, 0x02)
  | 2 => (0x0001, 0x01)
  | _ => (0x1E98, 0x00)

/-- The Discovery answer for an index: vendor, type and the next index, 0 after the last. -/
def doeDiscover (m index : Nat) : List Byte :=
  let e : W16 × Byte × Byte :=
    if index = 0 then ((doeProtocol 0).1, (doeProtocol 0).2, 1)
    else if index = 1 then ((doeProtocol (m + 1)).1, (doeProtocol (m + 1)).2, 0)
    else (0xFFFF, 0xFF, 0)
  bytesLE 2 e.1.toNat ++ [e.2.1, e.2.2]

def State.mailError (s : State) (m : Nat) : State :=
  let b := s.cxl.mailboxes.getD m ⟨[], false⟩
  { s with cxl := { s.cxl with mailboxes := s.cxl.mailboxes.set! m { b with error := true } } }

def execDoeDiscovery (m : Fin 3) (index : Byte) (s : State) : Host.Outcome State Fault Refusal :=
  .next (s.answer m.val (doeDiscover m.val index.toNat))

/-- The DSMAS structure of a stack's general part (R440). -/
def dsmas (n : Nat) : List Byte :=
  [0, 0] ++ bytesLE 2 24 ++ [BitVec.ofNat 8 n, 0, 0, 0] ++ bytesLE 8 (n * stackBytes) ++ bytesLE 8 (generalEnd n)

/-- A CDAT entry: after entry 0, the header, one range for each stack; the others give the latency and the
bandwidth, whose values are not stated (PRESUMED, log 90: the form of an entry). -/
def State.cdat (s : State) (e : Nat) : List Byte :=
  if 1 ≤ e && e ≤ (if s.four then 8 else 6) then [0, 0] ++ bytesLE 2 (e + 1) ++ dsmas (e - 1)
  else Config.cdatEntry s.four e

def execDoeCdat (entry : W16) (s : State) : Host.Outcome State Fault Refusal :=
  .next (s.answer 0 (s.cdat entry.toNat))

def State.comply (s : State) (request : List Byte) : State :=
  if 4096 < request.length then s.mailError 2 else s.answer 2 (Config.complianceReply request)

def execDoeCompliance (request : List Byte) (s : State) : Host.Outcome State Fault Refusal :=
  .next (s.comply request)

def execDoeAbort (m : Fin 3) (s : State) : Host.Outcome State Fault Refusal :=
  .next (s.answer m.val [])

/-- An object that is too large, or of a protocol that the mailbox does not carry. -/
def State.discard (s : State) (m protocol len : Nat) : State :=
  if 4096 < len || !doeCarries m protocol then s.mailError m else s

def execDoeObjectDiscarded (m : Fin 3) (protocol : Byte) (len : Nat) (s : State) :
    Host.Outcome State Fault Refusal :=
  .next (s.discard m.val protocol.toNat len)

end Sys2Proof.Machine
end

