-- ==== Sys2Proof/Machine/RegRead.lean ====
section
/-! DEFINITION. BAR0 as it reads (R535 to R539): where each register lies, what it holds, and what a read
does to it (R12, R536). -/
namespace Sys2Proof.Machine

/-- A register: where it starts, its bytes, and its value. -/
structure RegVal where
  start : Nat
  bytes : Nat
  value : Nat
  deriving DecidableEq, Repr

def r4 (o v : Nat) : RegVal := ⟨o, 4, v⟩
def r8 (o : Nat) (v : W64) : RegVal := ⟨o, 8, v.toNat⟩

/-- The register of a list that holds an offset. -/
def regIn (l : List RegVal) (o : Nat) : Option RegVal := l.find? fun r => r.start ≤ o && o < r.start + r.bytes

/-- One of `n` groups of registers, `stride` bytes apart. -/
def regGroup (o base stride n : Nat) (f : Nat → List RegVal) : Option RegVal :=
  if base ≤ o && o < base + stride * n then
    let i := (o - base) / stride
    (regIn (f i) ((o - base) % stride)).map fun r => { r with start := base + stride * i + r.start }
  else none

/-! ### The I/O die: IOD_ (R210, R276, R304, R345, R518) -/

def Job.stat (j : Job) : Nat :=
  boolBit j.active + 2 * boolBit j.retired + 4 * boolBit j.rollback + 8 * boolBit j.fwChanged +
    16 * boolBit j.imageChanged + 32 * boolBit j.coverage + 64 * boolBit j.pair

def PairSlot.regs (p : PairSlot) : List RegVal :=
  [r4 0x00 (p.state.toNat + 2 ^ 8 * p.addrA.toNat + 2 ^ 16 * p.addrB.toNat + 2 ^ 24 * p.divCause.toNat +
    2 ^ 26 * p.divChannel.toNat), r4 0x04 p.timeout.toNat, r8 0x08 p.divSeq, r8 0x10 p.compared, r8 0x18 p.skipped]

/-- The mark of the earliest stored window that has not opened; all ones when none. -/
def State.slackNext (s : State) : W64 :=
  (List.range 4).foldl (fun (m : W64) n => match s.orderAt n with
    | some o => if o.typ = otSLACK && decide (o.mark.toNat < m.toNat) then o.mark else m
    | none => m) ones64

def State.slackStat (s : State) : Nat :=
  let retrain := (List.range 8).foldl (fun n i => n + 2 ^ i * boolBit (s.msd i).retraining) 0
  boolBit s.svc.openMark.isSome + 2 * boolBit s.svc.mgmtSwitch + 4 * retrain +
    2 ^ 10 * min 63 s.svc.listed.length + 2 ^ 16 * s.svc.deferred.toNat

def State.bringupStat (s : State) : Nat :=
  s.svc.phase.toNat + 2 ^ 4 * s.svc.failPhase.toNat + 2 ^ 8 * s.svc.failUnit.toNat + 2 ^ 12 * s.svc.trainTries.toNat

def State.iodReg (s : State) (o : Nat) : Option RegVal :=
  regGroup o 0x100 4 7 (fun i => [r4 0 (s.featReg i).toNat]) <|>
  regIn [r4 0x380 s.job.stat, r8 0x388 s.job.start, r8 0x390 s.job.rcptSeq, r4 0x700 (boolBit s.mem.flushing),
    r4 0x800 s.bringupStat, r4 0x808 s.svc.defLen.toNat, r4 0x810 s.slackStat, r8 0x818 s.slackNext] o <|>
  regGroup o 0x400 0x40 8 (fun n => (s.pairSlot n).regs) <|>
  regGroup o 0x600 0x10 4 (fun n =>
    let p := s.port (4 + n)
    [r8 0 p.disc, r8 8 (w64 (p.inbox.length + 2 ^ 5 * boolBit p.isOpen))]) <|>
  regGroup o 0x850 8 6 (fun i => [r8 0 (s.svc.phaseAt.getD (i + 2) 0)])

/-! ### CXLP_ (R456), CMDW_ (R418), JRNL_ (R419) -/

def Cxl.linkStat (x : Cxl) : Nat :=
  x.width.toNat + 2 ^ 5 * x.speed.toNat + 2 ^ 8 * boolBit x.up + 2 ^ 9 * boolBit x.half + 2 ^ 10 * x.laneBad.toNat

def Peer.regs (p : Peer) : List RegVal :=
  [r8 0 p.win, r8 8 (w64 (p.reqId.toNat + 2 ^ 16 * p.taddr.toNat + 2 ^ 24 * boolBit p.valid))]

def State.cxlReg (s : State) (o : Nat) : Option RegVal :=
  let x := s.cxl
  regIn [r4 0x00 x.linkStat,
    r8 0x08 (w64 (x.degLimit.toNat + 2 ^ 8 * boolBit x.retrainFull + 2 ^ 32 * x.downLimit.toNat)),
    r8 0x10 (w64 (x.recoveries.toNat + 2 ^ 32 * x.replays.toNat)), r4 0x18 (boolBit x.quiescing),
    r4 0x1C (boolBit x.quiescing + 2 * boolBit x.quiesced + 4 * boolBit x.linkLost + 8 * boolBit s.mdl.rtr),
    r8 0x20 x.hdmErr, r8 0x28 x.hdmErrAt, r8 0x30 x.bisnp, r4 0x38 (boolBit x.p2p), r8 0x40 x.carvePeer,
    r8 0x48 x.carveImage, r8 0x50 x.carveSave,
    r8 0x200 (w64 (x.peerMask.toNat + 2 ^ 16 * boolBit x.peerBusy + 2 ^ 32 * x.peerSkipped.toNat)),
    ⟨0x400, 256, 0⟩] o <|>
  regGroup o 0x100 0x10 16 (fun n => (s.peerAt n).regs)

/-- The oldest accepted command that is not complete. -/
def CmdRegs.oldest (c : CmdRegs) : W64 := c.accepted.foldl (fun m e => if e.seq.toNat < m.toNat then e.seq else m) c.next

def CmdRegs.stat (c : CmdRegs) : Nat :=
  boolBit c.ready + 2 * boolBit (!c.held.isEmpty && c.enable && !c.room) +
    4 * boolBit (decide (4096 ≤ c.pendingCount)) + 2 ^ 16 * min 4096 c.pendingCount

def CmdRegs.reg (c : CmdRegs) (o : Nat) : Option RegVal :=
  regIn [r8 0x00 c.next, r8 0x08 c.oldest, r8 0x10 c.ringBase,
    r4 0x18 (c.ringLog2.toNat + 2 ^ 31 * boolBit c.enable), r8 0x20 c.prod, r8 0x28 c.cons, r4 0x30 c.stat,
    r4 0x38 c.crcBad.toNat, r4 0x40 (c.peerId.toNat + 2 ^ 16 * boolBit c.peerEn), r8 0x48 c.bootId,
    r8 0x50 c.winBase] o

def CmdRegs.journalReg (c : CmdRegs) (o : Nat) : Option RegVal :=
  regIn [r8 0x00 c.jHead, r8 0x08 c.jHbmHead, r8 0x10 c.jBase, r4 0x18 (boolBit c.jInternal)] o <|>
  regGroup o 0x1000 64 256 (fun i => [⟨0, 64, (Smap.get 0 c.jTail i).toNat⟩])

/-! ### TIDE_ (R64), EVC_ (R433), SEC_ (R498), FUSE_ (R499) -/

def State.tideStat (s : State) : Nat :=
  let t := s.tide
  boolBit t.locked + 2 * boolBit t.loss + 4 * boolBit t.hold + 8 * boolBit t.ahead + 16 * boolBit t.driving +
    32 * boolBit t.handoverFail + 64 * boolBit t.lateOrder + 128 * boolBit s.line.active

def orderRegs : Option Order → List RegVal
  | some o => [r8 0 o.mark, r8 8 o.arg, r4 0x10 (o.typ.toNat + 2 ^ 8 * o.target.toNat + 2 ^ 16), r4 0x14 o.id.toNat]
  | none => [r8 0 0, r8 8 0, r4 0x10 0, r4 0x14 0]

def State.tideReg (s : State) (o : Nat) : Option RegVal :=
  let t := s.tide
  regIn [r8 0x00 t.count, r4 0x08 (t.role.toNat + 4 * boolBit t.eligible + 2 ^ 8 * t.addr.toNat), r4 0x0C s.tideStat,
    r4 0x10 (t.lineDelay.toNat + 2 ^ 16 * t.alignTarget.toNat), r4 0x14 t.advance.toNat,
    r4 0x18 (t.missing.toNat + 2 ^ 16 * t.frameBad.toNat), r4 0x1C (t.ordBad.toNat + 2 ^ 16 * t.ordLate.toNat),
    r8 0x20 t.lossAt, r8 0x28 t.lockAt] o <|>
  regGroup o 0x40 0x20 4 (fun n => orderRegs (s.orderAt n))

/-- A word of 32 events' bits. -/
def State.evBits (s : State) (k : Nat) (f : Ev → Bool) : Nat :=
  (List.range 32).foldl (fun n j => n + 2 ^ j * boolBit (f (s.evOf (32 * k + j)))) 0

def Ev.stat (v : Ev) : W64 :=
  w64 (v.occ.toNat + 2 ^ 16 * boolBit v.pend + 2 ^ 17 * boolBit v.masked + 2 ^ 32 * (v.first.toNat % 2 ^ 32))

/-- The set and clear words read as 0. -/
def State.evcReg (s : State) (o : Nat) : Option RegVal :=
  regIn [r4 0x08 s.ev.spur.toNat] o <|>
  regGroup o 0x100 4 128 (fun _ => [r4 0 0]) <|>
  regGroup o 0x300 4 32 (fun k => [r4 0 (s.evBits k (·.pend))]) <|>
  regGroup o 0x380 4 32 (fun k => [r4 0 (s.evBits k (·.masked))]) <|>
  regGroup o 0x1000 8 1023 (fun e => [r8 0 (s.evOf e).config]) <|>
  regGroup o 0x3000 8 1023 (fun e => [r8 0 (s.evOf e).stat])

def Sec.bootStat (x : Sec) : Nat :=
  boolBit x.slotB + 2 * boolBit x.fallback + 4 * x.failA.toNat + 2 ^ 5 * x.failB.toNat + 2 ^ 8 * boolBit x.recovery +
    2 ^ 9 * x.fuseBad.toNat

def Sec.rngStat (x : Sec) : Nat :=
  boolBit x.healthy + 2 * boolBit x.rngFail +
    (List.range 5).foldl (fun n i => n + 2 ^ (2 + i) * boolBit (x.drbgs.getD i ⟨0, false⟩).unhealthy) 0

def Sec.reg (x : Sec) (o : Nat) : Option RegVal :=
  regIn [r4 0x00 x.bootStat,
    r4 0x08 (boolBit x.udsLocked + 2 * boolBit x.certMissing + 4 * boolBit x.staged + 8 * boolBit x.activating),
    r8 0x10 x.fwVer, r8 0x18 (if x.staged then x.fwStaged else 0), r4 0x20 x.rngStat, r8 0x28 x.rngCnt] o

/-- The fuse record of an absent die reads as 0. -/
def State.fuseReg (s : State) (o : Nat) : Option RegVal :=
  regGroup o 0 0x20 10 (fun d =>
    [⟨0, 32, if !s.four && (d = 7 || d = 8) then 0 else (s.sec.fuseRecs.getD d 0).toNat⟩]) <|>
  regIn [⟨0x140, 16, s.sec.serial.toNat⟩, r8 0x150 s.sec.svnBits, r4 0x158 s.sec.revoked.toNat] o

/-! ### PWR_ (R477), CLK_ (R476), FLT_ (R377) -/

/-- `PWR_DOMSTAT`: a spare domain is off while p80 and p81 are out of service (R472). -/
def State.domStat (s : State) : BitVec 80 :=
  s.channels.foldl (fun m c =>
    let r := (s.chan c).regs
    if r.out0 = 80 && r.out1 = 81 then setBit m (36 + c.val) false else m) s.pwr.domains

/-- The hottest compute or stack reading and its sensor, the lowest number of equals. -/
def State.hottest (s : State) : Nat :=
  let t := fun (i : Nat) => (s.pwr.temps.getD i 0).toInt
  let h := (List.range 45).foldl (fun b i => if s.hasSensor i && decide (t b < t i) then i else b) 0
  (s.pwr.temps.getD h 0).toNat + 2 ^ 16 * h

def Power.stat (p : Power) : Nat :=
  p.step.toNat + 2 ^ 8 * p.planned.toNat + 2 ^ 16 * p.tceil.toNat + 2 ^ 24 * p.pceil.toNat +
    2 ^ 29 * boolBit (decide (p.tceil.toNat < 16 || p.pceil.toNat < 16))

def State.pwrReg (s : State) (o : Nat) : Option RegVal :=
  let p := s.pwr
  regIn [r8 0x00 (fld s.domStat 0 64), r8 0x08 ((fld s.domStat 64 16).setWidth 64), r4 0x10 p.chOff.toNat,
    r4 0x18 p.stat, r4 0x20 (p.cap.toNat + 2 ^ 16 * p.headroom.toNat),
    r8 0x28 (w64 (p.avg.toNat + 2 ^ 32 * p.peak.toNat)),
    r4 0x30 (p.tstep.toNat + 2 ^ 8 * p.sstep.toNat + 2 ^ 16 * p.hyst.toNat), r4 0x38 s.hottest,
    r8 0x40 (w64 (p.tdown.toNat + 2 ^ 32 * p.pdown.toNat))] o <|>
  regGroup o 0x100 4 54 (fun i => [r4 0 (p.temps.getD i 0).toNat])

def Region.stat (r : Region) : W64 :=
  w64 (r.margin.toNat + 2 ^ 8 * boolBit r.drift + 2 ^ 9 * boolBit r.calibrating + 2 ^ 16 * r.cals.toNat)

def State.clkReg (s : State) (o : Nat) : Option RegVal :=
  let p := s.pwr
  regIn [r4 0x00 (p.thresh.toNat + 2 ^ 8 * p.kmax.toNat), r8 0x08 p.stretch, r8 0x10 p.stretchPs,
    r8 0x18 (p.droopSrc.setWidth 64), r4 0x20 p.stepLate.toNat, r4 0x28 (p.warn.toNat + 2 ^ 8 * p.holdMargin.toNat)] o <|>
  regGroup o 0x100 8 37 (fun r => [r8 0 (if s.hasRegion r then (s.region r).stat else 0)])

def FltRegs.reg (f : FltRegs) (o : Nat) : Option RegVal :=
  regIn [r8 0x00 f.prod, r8 0x08 f.cons,
    r4 0x10 (boolBit (decide (f.prod - f.cons = 4096)) + 2 * boolBit f.lostBit + 4 * boolBit f.recovering),
    r8 0x18 f.lost, r4 0x20 f.cadence.toNat,
    r4 0x28 (boolBit f.autoRollback + 2 * boolBit f.autoSubst + 4 * boolBit f.autoRetire + 16 * f.retireLimit.toNat),
    r8 0x30 f.retWin, r4 0x38 (f.colLimit.toNat + 2 ^ 16 * f.stackLimit.toNat), r8 0x40 f.ceWin, r8 0x48 f.saveAt] o

/-! ### The sideband map (R496) -/

/-- The byte that a read over I3C or SMBus returns at an offset of the sideband map. DESIGN CHOICE (log
101): the gaps of the map and the recovery window, which is only written, read as 0. -/
def State.sideband (s : State) (o : Nat) : Byte :=
  if o < 0x200 then s.identityBlock.getD o 0
  else if 0x500 ≤ o then 0xFF
  else (bytesLE 4 s.sec.bootStat ++ bytesLE 4 s.pwr.stat ++ bytesLE 4 s.cmd.stat).getD (o - 0x200) 0

/-! ### CHn_ (R105, R166, R244, R275, R303, R344, R378, R519) -/

/-- A half stays powered unless both its channels are off or fused off. -/
def State.halfPowered (s : State) (c : Chn) : Bool :=
  let gone := fun (d : Chn) => bitAt s.pwr.chOff d.val || !s.hasChan d
  !(gone c && gone (midPeer c))

def CoreWait.sends : CoreWait → Bool
  | .send _ => true
  | _ => false

def CoreWait.receives : CoreWait → Bool
  | .recv _ _ _ => true
  | _ => false

def CoreWait.counts : CoreWait → Bool
  | .counter _ => true
  | _ => false

/-- `CHn_SYNCWAIT`: the pending SWAIT, as it waits at its counter or is on its way there. -/
def State.syncWait (s : State) (c : Chn) : W64 :=
  let k := (s.chan c).core
  let long := 2 ^ 62 * boolBit (s.chan c).regs2.waitLong
  if k.wait.counts then
    let nc : Nat × Nat := match s.sync.waits.find? fun w => w.endpoint = c.val with
      | some w => (w.n, w.counter)
      | none => match s.sync.ops.find? fun o => o.src = .endpoint c.val && o.kind = .wait with
        | some o => (o.n, o.counter)
        | none => (0, 0)
    w64 (nc.1 % 2 ^ 31 + 2 ^ 32 * (nc.2 % 2 ^ 17) + long + 2 ^ 63)
  else w64 long

def StreamQ.regs (q : StreamQ) : List RegVal :=
  [r4 0 (q.beats.length + 2 ^ 18 * boolBit q.cur.isSome + 2 ^ 19 * min 3 q.pend.length + 2 ^ 21 * boolBit q.halted +
    2 ^ 22 * q.cause.toNat), r4 4 q.cap, r8 8 (w64 q.haltVA)]

def DrainQ.regs (q : DrainQ) : List RegVal :=
  [r4 0 (q.beats.length + 2 ^ 16 * boolBit q.cur.isSome + 2 ^ 17 * min 3 q.pend.length + 2 ^ 19 * boolBit q.halted +
    2 ^ 20 * q.cause.toNat), r4 4 q.cap, r8 8 (w64 q.haltVA)]

def Chan.fetchStat (ch : Chan) : Nat :=
  (ch.sq.toList.filter fun q => q.cur.isSome).length +
    2 ^ 7 * ((ch.sq.toList.filter (·.halted)).length + (ch.dq.toList.filter (·.halted)).length)

/-- What firmware and flash keep of a channel in the always-on domain. -/
def State.alwaysReg (s : State) (c : Chn) (o : Nat) : Option RegVal :=
  regIn [r4 0x100 (s.chan c).regs.colmap.toNat,
    r4 0x108 (boolBit (s.seamOpen c) + 2 * boolBit (s.midOpen c) + 4 * boolBit (s.halfPowered c))] o

/-- Registers of the cells, gates and digests. -/
def State.gateRegs (s : State) (c : Chn) : List RegVal :=
  let ch := s.chan c
  let r := ch.regs
  let x := ch.regs2
  let off := bitAt s.pwr.chOff c.val
  [r4 0x110 (r.seamDrop.toNat + 2 ^ 16 * r.midDrop.toNat), r4 0x118 (r.tagFaults.toNat + 2 ^ 16 * r.queueFaults.toNat),
    r4 0x120 (r.gateOr.toNat + 2 ^ 16 * r.runOr.toNat), r4 0x128 (boolBit r.clearNext + 2 * boolBit r.clearEvery),
    r4 0x200 (if off then 0 else (s.gateStat c).toNat), r8 0x208 ch.gate.lastSeq,
    r8 0x210 (w64 (min ch.gate.attempt 0xFFFF + 2 ^ 32 * ch.gate.blockIdx)), r8 0x218 r.cycles, r8 0x220 r.stopAfter,
    r8 0x228 r.gateMark, r8 0x230 r.gwStream, r8 0x238 r.gwDrain, r8 0x240 r.gwCode, r8 0x248 r.gwMark,
    r8 0x250 r.gwHold, r8 0x258 r.gwOther, r8 0x260 r.gwCy, r4 0x268 r.gwLim.toNat, r8 0x300 x.tallyChk,
    r8 0x308 x.tallyUnchk, r4 0x310 (x.replays.toNat + 2 ^ 16 * x.replayFails.toNat),
    r4 0x318 (boolBit x.pairMember + 2 * boolBit x.ringFull + 2 ^ 16 * (ch.chain.pend.folded % 2 ^ 16)),
    r8 0x320 x.digRecs]

/-- Registers of the ledger, messages, counters, streams, recovery and slack. -/
def State.serviceRegs (s : State) (c : Chn) : List RegVal :=
  let ch := s.chan c
  let x := ch.regs2
  let p := s.port c.val
  [r8 0x490 x.rollDisc, r4 0x4A0 x.stallLimit.toNat,
    r4 0x4A8 (p.inbox.length + 2 ^ 5 * p.out.length + 2 ^ 8 * boolBit p.isOpen + 2 ^ 9 * boolBit ch.core.wait.sends +
      2 ^ 10 * boolBit ch.core.wait.receives),
    r8 0x4B0 (s.syncWait c), r4 0x4B8 x.waitLim.toNat, r4 0x600 x.ahead.toNat, r4 0x608 ch.fetchStat,
    r4 0xE00 (x.rollbacks.toNat + 2 ^ 16 * (if bitAt s.pwr.chOff c.val then 0 else min 15 (s.inWindow c)) + 2 ^ 20 * boolBit x.newestB +
      2 ^ 21 * boolBit x.aValid + 2 ^ 22 * boolBit x.bValid + 2 ^ 23 * boolBit x.reproduced),
    r8 0xE08 x.saveSeq, r8 0xE10 x.ce, r8 0xE18 x.ue,
    r4 0xE40 (boolBit x.slackEntered + 2 * boolBit x.slackWaiting + 4 * boolBit x.fwDue + 2 ^ 16 * x.slackWindows.toNat)]

def State.chReg (s : State) (c : Chn) (o : Nat) : Option RegVal :=
  let ch := s.chan c
  regIn (s.gateRegs c) o <|> regIn (s.serviceRegs c) o <|>
  regGroup o 0x400 8 18 (fun i => [r8 0 (ch.ledger.getD i 0)]) <|>
  regGroup o 0x800 0x10 64 (fun i => (ch.sq.getD i StreamQ.reset).regs) <|>
  regGroup o 0xC00 0x10 32 (fun i => (ch.dq.getD i DrainQ.reset).regs) <|>
  regGroup o 0x1000 4 82 (fun p => [r4 0 (Smap.get 0 ch.regs2.ceCol p).toNat])

/-! ### MSDn_ (R346, R379) -/

def MsdRegs.reg (d : MsdRegs) (o : Nat) : Option RegVal :=
  regIn [r4 0x00 (1 + 2 * boolBit d.trained + 4 * boolBit d.retraining + 8 * boolBit d.ringOk + 16 * boolBit d.retrainDue),
    r4 0x08 (boolBit d.bwEnable), r8 0x10 d.bwHit, r8 0x18 d.bwMiss, r8 0x20 d.bwAlloc, r8 0x28 d.bwInval,
    r8 0x30 d.refresh, r8 0x38 d.relay, r8 0x40 d.wicket, r8 0x48 (w64 (d.retryCa.toNat + 2 ^ 32 * d.retryWdata.toNat)),
    r8 0x50 d.ce, r8 0x58 d.ue, r4 0x60 d.scrubPeriod.toNat] o

/-! ### The map (R535) -/

/-- Whether a power domain is on. -/
def State.on (s : State) (d : Nat) : Bool := bitAt s.pwr.domains d

/-- A register of a block that begins at `base`, when the block is powered (R502). -/
def blockAt (a base : Nat) (on : Bool) (f : Nat → Option RegVal) : Option RegVal :=
  if on then (f (a - base)).map fun r => { r with start := base + r.start } else none

def chBase (c : Nat) : Nat := 0x100000 + 0x10000 * c
def msdBase (n : Nat) : Nat := 0x300000 + 0x10000 * n

/-- The registers of channel `c`: two of them stay while the rest of the channel has no power. -/
def State.chAt (s : State) (c : Chn) (a : Nat) : Option RegVal :=
  if s.hasChan c then
    blockAt a (chBase c.val) (s.on 41) (s.alwaysReg c) <|>
    blockAt a (chBase c.val) (s.on (32 + c.val) || bitAt s.pwr.chOff c.val) (s.chReg c)
  else none

def State.msdAt (s : State) (n : Nat) (a : Nat) : Option RegVal :=
  if s.hasStack n then blockAt a (msdBase n) (s.on (52 + n)) (s.msd n).reg else none

/-- The register or record that holds a BAR0 offset. -/
def State.regAt (s : State) (a : Nat) : Option RegVal :=
  let io := s.on 79
  if a < 0x10000 then blockAt a 0 io s.iodReg
  else if a < 0x20000 then blockAt a 0x10000 io s.cxlReg
  else if a < 0x30000 then blockAt a 0x20000 io s.cmd.reg
  else if a < 0x40000 then blockAt a 0x30000 io s.cmd.journalReg
  else if a < 0x50000 then blockAt a 0x40000 io s.tideReg
  else if a < 0x60000 then blockAt a 0x50000 io s.evcReg
  else if a < 0x70000 then blockAt a 0x60000 io s.sec.reg
  else if a < 0x80000 then blockAt a 0x70000 io s.fuseReg
  else if a < 0x90000 then blockAt a 0x80000 io s.pwrReg
  else if a < 0xA0000 then blockAt a 0x90000 (s.on 42) s.clkReg
  else if a < 0xB0000 then blockAt a 0xA0000 io s.flt.reg
  else if 0x100000 ≤ a && a < 0x140000 then s.chAt (chnOf ((a - 0x100000) / 0x10000)) a
  else if 0x300000 ≤ a && a < 0x380000 then s.msdAt ((a - 0x300000) / 0x10000) a
  else if 0x400000 ≤ a && a < 0x440000 then
    blockAt a 0x400000 io fun o => regGroup o 0 64 4096 fun i => [⟨0, 64, (Smap.get 0 s.flt.ring i).toNat⟩]
  else if 0x800000 ≤ a && a < 0xA00000 then
    blockAt a 0x800000 io fun o => regGroup o 0 8 262144 fun i => [r8 0 (Smap.get 0 s.mem.wtab i)]
  else if 0x1000000 ≤ a && a < 0x1400000 then
    blockAt a 0x1000000 io fun o => regGroup o 0 64 65536 fun i => [⟨0, 64, (Smap.get 0 s.mem.tdt i).toNat⟩]
  else none

/-! ### Accesses (R12, R536, R537) -/

/-- The apertures that may be read 16, 32 or 64 bytes at a time. -/
def wideRead (a : Nat) : Bool :=
  (0x31000 ≤ a && a < 0x35000) || (0x400000 ≤ a && a < 0x440000) || (0x1000000 ≤ a && a < 0x1400000)

/-- An access of `size` bytes that lies inside one register. -/
def RegVal.allows (r : RegVal) (a size : Nat) : Bool :=
  (size = 4 || size = 8 || (wideRead a && (size = 16 || size = 32 || size = 64))) && a % size = 0 &&
    decide (a + size ≤ r.start + r.bytes)

/-- The bytes of a register at an offset. -/
def RegVal.part (r : RegVal) (a size : Nat) : Nat := r.value >>> (8 * (a - r.start)) % 2 ^ (8 * size)

/-- The RC fields of the register at `a` that lie in the halves read go to 0. -/
def State.clearRead (s : State) (a : Nat) (lo hi : Bool) : State :=
  let span := lo || hi
  let x := s.cxl
  if a = 0x10010 then
    { s with cxl := { x with recoveries := if lo then 0 else x.recoveries, replays := if hi then 0 else x.replays } }
  else if a = 0x10020 then if span then { s with cxl := { x with hdmErr := 0 } } else s
  else if a = 0x20038 then { s with cmd := { s.cmd with crcBad := 0 } }
  else if a = 0x40018 then { s with tide := { s.tide with missing := 0, frameBad := 0 } }
  else if a = 0x4001C then { s with tide := { s.tide with ordBad := 0, ordLate := 0 } }
  else if a = 0x50008 then { s with ev := { s.ev with spur := 0 } }
  else if a = 0x80028 then if hi then { s with pwr := { s.pwr with peak := 0 } } else s
  else if a = 0x90018 then if span then { s with pwr := { s.pwr with droopSrc := 0 } } else s
  else if 0x100000 ≤ a && a < 0x140000 then
    let o := (a - 0x100000) % 0x10000
    s.modChan (chnOf ((a - 0x100000) / 0x10000)) fun ch => { ch with regs :=
      if o = 0x110 then { ch.regs with seamDrop := 0, midDrop := 0 }
      else if o = 0x118 then { ch.regs with tagFaults := 0, queueFaults := 0 }
      else ch.regs }
  else if 0x300000 ≤ a && a < 0x380000 && (a - 0x300000) % 0x10000 = 0x48 then
    s.modMsd ((a - 0x300000) / 0x10000) fun d => { d with
      retryCa := if lo then 0 else d.retryCa, retryWdata := if hi then 0 else d.retryWdata }
  else s

/-- Whether an RC field of the register at `a` spans both its halves. -/
def spansHalves (a : Nat) : Bool := a = 0x10020 || a = 0x90018

def State.readAs (s : State) (v : W64) : State := { s with cxl := { s.cxl with readData := v } }

/-- A read of the low word of a 64-bit register latches the high word. -/
def State.latchHigh (s : State) (a : Nat) (v : W32) : State :=
  { s with cxl := { s.cxl with latched := Smap.upsert s.cxl.latched a v } }

/-- The 4-byte read that follows returns the latched word; a field that spans both halves went to 0 with
the low word's read. -/
def State.readHigh (s : State) (r : RegVal) : State :=
  match Smap.find? s.cxl.latched (r.start + 4) with
  | some v =>
    let s : State := { s with cxl := { s.cxl with latched := Smap.erase s.cxl.latched (r.start + 4) } }
    (if spansHalves r.start then s else s.clearRead r.start false true).readAs (v.setWidth 64)
  | none => (s.clearRead r.start false true).readAs (w64 (r.part (r.start + 4) 4))

/-- A read inside one register. -/
def State.readReg (s : State) (r : RegVal) (a size : Nat) : State :=
  if 8 < size then s.answerLine (r.part a size) false
  else if r.bytes = 8 && size = 4 then
    if a = r.start then
      ((s.clearRead a true false).latchHigh (a + 4) (w32 (r.value >>> 32))).readAs (w64 (r.part a 4))
    else s.readHigh r
  else (s.clearRead r.start true true).readAs (w64 (r.part a size))

/-- A read that has no effect returns zeros (R536, R537). -/
def State.readNone (s : State) (size : Nat) : State := if 8 < size then s.answerLine 0 false else s.readAs 0

/-- A read of `EVC_HCLAIMv` (R427, R433): the high word alone claims nothing. -/
def State.readClaim (s : State) (a size : Nat) : State :=
  let v := (a - 0x50400) / 8
  if size = 8 && a % 8 = 0 then
    let r := s.claim v
    r.1.readAs r.2
  else if size = 4 && a % 8 = 0 then
    let r := s.claim v
    (r.1.latchHigh (a + 4) (fld r.2 32 32)).readAs (r.2 &&& 0xFFFFFFFF)
  else if size = 4 && a % 8 = 4 then
    match Smap.find? s.cxl.latched a with
    | some v => { s with cxl := { s.cxl with latched := Smap.erase s.cxl.latched a, readData := v.setWidth 64 } }
    | none => s.readAs ((fld (s.claim v).2 32 32).setWidth 64)
  else s.readNone size

/-- A read of the MSI-X table or of its pending bit array, under the PCIe rules (R539). -/
def State.readMsix (s : State) (o size : Nat) : State :=
  let word := fun (i : Nat) =>
    if i < 256 then (s.ev.msixWord i).toNat else if i = 512 then fldN s.ev.msixPba 0 32
    else if i = 513 then fldN s.ev.msixPba 32 32 else 0
  if (size = 4 || size = 8) && o % size = 0 then
    s.readAs (w64 (word (o / 4) + if size = 8 then 2 ^ 32 * word (o / 4 + 1) else 0))
  else s.readNone size

/-- A read of BAR0. -/
def State.readBar (s : State) (a size : Nat) : State :=
  if 0x50400 ≤ a && a < 0x50600 && s.on 79 then s.readClaim a size
  else if 0xB0000 ≤ a && a < 0xC0000 && s.on 79 then s.readMsix (a - 0xB0000) size
  else match s.regAt a with
    | some r => if r.allows a size then s.readReg r a size else s.readNone size
    | none => s.readNone size

def execReadClear (off size : Nat) (s : State) : Host.Outcome State Fault Refusal := .next (s.readBar off size)

def execLatchedLowRead (off : Nat) (s : State) : Host.Outcome State Fault Refusal := .next (s.readBar off 4)

end Sys2Proof.Machine
end

