-- ==== Sys2Proof/Machine/Registers.lean ====
section
/-! DEFINITION. Writes to BAR0 (R12, R535 to R539): each register takes the bits that its field types let
it take, and a register with a row of its own does what that row does. -/
namespace Sys2Proof.Machine

/-- The value after a write of the bits `m`. -/
def merged (old v m : W64) : W64 := (old &&& ~~~m) ||| (v &&& m)

def Chan.mod1 (ch : Chan) (f : ChRegs → ChRegs) : Chan := { ch with regs := f ch.regs }
def Chan.mod2 (ch : Chan) (f : ChRegs2 → ChRegs2) : Chan := { ch with regs2 := f ch.regs2 }

/-! ### One block each: `n` is the register's new value, `h` the bits written as 1, `m` those written -/

def State.putIod (s : State) (o : Nat) (n h : W64) : State :=
  if 0x400 ≤ o && o < 0x600 && o % 0x40 = 4 then
    let i := (o - 0x400) / 0x40
    s.setPair i { s.pairSlot i with timeout := fld n 0 32 }
  else if o = 0x700 then if bitAt h 0 then s.flushTable else s
  else if o = 0x808 then { s with svc := { s.svc with defLen := fld n 0 16 } }
  else s

def State.putPeer (s : State) (o : Nat) (n : W64) : State :=
  let i := (o - 0x100) / 0x10
  let p := s.peerAt i
  let p : Peer := if o % 0x10 = 0 then { p with win := n }
    else { p with reqId := fld n 0 16, taddr := fld n 16 8, valid := bitAt n 24 }
  { s with cxl := { s.cxl with peers := s.cxl.peers.set! i p } }

def State.putCxl (s : State) (o : Nat) (n h m : W64) : State :=
  let x := s.cxl
  if o = 0x08 then
    { s with cxl := { x with
      degLimit := fld n 0 8, downLimit := fld n 32 32, retrainFull := x.retrainFull || bitAt h 8 } }
  else if o = 0x18 then if bitAt h 0 then s.beginQuiesce else s
  else if o = 0x1C then { s with cxl := { x with linkLost := x.linkLost && !bitAt h 2 } }
  else if o = 0x38 then { s with cxl := { x with p2p := bitAt n 0 } }
  else if 0x100 ≤ o && o < 0x200 then s.putPeer o n
  else if o = 0x200 then if bitAt m 0 then s.sendPeers (fld h 0 16) else s
  else s

/-- Bytes 0 to 7 and 28 to 31 of `CXLP_PEER_PKT` are ignored when the packet is sent. -/
def State.putPacket (s : State) (j size : Nat) (v : W64) : State :=
  if s.cxl.peerBusy then s
  else
    let old := s.cxl.peerPkt
    { s with cxl := { s.cxl with peerPkt :=
      (if size = 8 then setFld old (8 * j) 64 v else setFld old (8 * j) 32 (fld v 0 32)) } }

def State.putCmdw (s : State) (o : Nat) (n : W64) : State :=
  if o = 0x10 then
    if s.cmd.enable then s else { s with cmd := { s.cmd with ringBase := setFld n 0 6 0#6 } }
  else if o = 0x18 then s.writeRingCtl (fld n 0 32)
  else if o = 0x28 then s.writeReplyCons n
  else if o = 0x40 then { s with cmd := { s.cmd with peerId := fld n 0 16, peerEn := bitAt n 16 } }
  else s

def State.putJournal (s : State) (o : Nat) (n : W64) : State :=
  if o = 0x18 then { s with cmd := { s.cmd with jInternal := bitAt n 0 } } else s

def State.putTide (s : State) (o : Nat) (n h : W64) : State :=
  let t := s.tide
  if o = 0x08 then
    { s with tide := { t with eligible := bitAt n 2, addr := if fld n 8 8 = 0xFF#8 then t.addr else fld n 8 8 } }
  else if o = 0x0C then
    { s with tide := { t with
      handoverFail := t.handoverFail && !bitAt h 5, lateOrder := t.lateOrder && !bitAt h 6 } }
  else if o = 0x10 then { s with tide := { t with lineDelay := fld n 0 10, alignTarget := fld n 16 10 } }
  else if o = 0x14 then { s with tide := { t with advance := fld n 0 32 } }
  else s

def State.putEvc (s : State) (o : Nat) (n h m : W64) : State :=
  let w := fld h 0 32
  let k := o % 0x80 / 4
  if 0x100 ≤ o && o < 0x180 then s.evWord k w Ev.setPend
  else if 0x180 ≤ o && o < 0x200 then s.evWord k w Ev.clrPend
  else if 0x200 ≤ o && o < 0x280 then s.evWord k w Ev.setMask
  else if 0x280 ≤ o && o < 0x300 then s.evWord k w Ev.clrMask
  else if 0x300 ≤ o && o < 0x380 then s.evWord k (fld n 0 32) Ev.putPend
  else if 0x380 ≤ o && o < 0x400 then s.evWord k (fld n 0 32) Ev.putMask
  else if 0x1000 ≤ o && o < 0x3000 then s.writeCfg ((o - 0x1000) / 8) (bitAt m 54) n
  else s

def State.putPwr (s : State) (o : Nat) (n h : W64) : State :=
  if o = 0x10 then s.writeChOff (fld h 0 4)
  else if o = 0x20 then { s with pwr := { s.pwr with cap := fld n 0 16, headroom := fld n 16 16 } }
  else if o = 0x30 then { s with pwr := { s.pwr with tstep := fld n 0 8, sstep := fld n 8 8, hyst := fld n 16 8 } }
  else s

/-- A region's DRIFT is judged against WARN anew. -/
def Power.setWarn (p : Power) (w : Byte) : Power :=
  { p with warn := w, regions := p.regions.map fun (r : Region) => { r with drift := decide (r.margin.toNat < w.toNat) } }

def State.putClk (s : State) (o : Nat) (n : W64) : State :=
  if o = 0x00 then { s with pwr := { s.pwr with thresh := fld n 0 8, kmax := fld n 8 4 } }
  else if o = 0x28 then { s with pwr := { s.pwr.setWarn (fld n 0 8) with holdMargin := fld n 8 8 } }
  else s

def State.putFlt (s : State) (o : Nat) (n h : W64) : State :=
  let f := s.flt
  if o = 0x08 then s.writeFltCons n
  else if o = 0x10 then { s with flt := { f with lostBit := f.lostBit && !bitAt h 1 } }
  else if o = 0x20 then { s with flt := { f with cadence := fld n 0 32 } }
  else if o = 0x28 then
    { s with flt := { f with
      autoRollback := bitAt n 0, autoSubst := bitAt n 1, autoRetire := bitAt n 2, retireLimit := fld n 4 4 } }
  else if o = 0x30 then { s with flt := { f with retWin := n } }
  else if o = 0x38 then { s with flt := { f with colLimit := fld n 0 16, stackLimit := fld n 16 16 } }
  else if o = 0x40 then { s with flt := { f with ceWin := n } }
  else s

/-- A channel without power takes no write. -/
def State.putCh (s : State) (c : Chn) (o : Nat) (n h : W64) : State :=
  if !s.on (32 + c.val) then s
  else if o = 0x128 && bitAt h 0 then
    (s.requestClear c).modChan c fun ch => ch.mod1 fun r => { r with clearEvery := bitAt n 1 }
  else s.modChan c fun ch =>
    if o = 0x120 then ch.mod1 fun r => { r with runOr := r.runOr &&& ~~~fld h 16 8 }
    else if o = 0x128 then ch.mod1 fun r => { r with clearEvery := bitAt n 1 }
    else if o = 0x268 then ch.mod1 fun r => { r with gwLim := fld n 0 32 }
    else if o = 0x4A0 then ch.mod2 fun r => { r with stallLimit := if fld n 0 32 = 0#32 then 1 else fld n 0 32 }
    else if o = 0x4B0 then ch.mod2 fun r => { r with waitLong := r.waitLong && !bitAt h 62 }
    else if o = 0x4B8 then ch.mod2 fun r => { r with waitLim := fld n 0 32 }
    else if o = 0x600 then ch.mod2 fun r => { r with ahead := fld n 0 4 }
    else if o = 0xE00 then ch.mod2 fun r => { r with reproduced := r.reproduced && !bitAt h 23 }
    else ch

def State.putMsd (s : State) (d : Nat) (o : Nat) (n h : W64) : State :=
  if o = 0x08 then
    let s := s.enableBw d (bitAt n 0)
    if bitAt h 1 then s.invalidateBw d else s
  else if o = 0x60 then s.modMsd d fun x => { x with scrubPeriod := fld n 0 8 }
  else s

/-- The register that starts at BAR0 offset `a` takes a write. -/
def State.putReg (s : State) (a : Nat) (n h m : W64) : State :=
  if a < 0x10000 then s.putIod a n h
  else if a < 0x20000 then s.putCxl (a - 0x10000) n h m
  else if a < 0x30000 then s.putCmdw (a - 0x20000) n
  else if a < 0x40000 then s.putJournal (a - 0x30000) n
  else if a < 0x50000 then s.putTide (a - 0x40000) n h
  else if a < 0x60000 then s.putEvc (a - 0x50000) n h m
  else if a < 0x70000 then
    if a = 0x60020 then { s with sec := { s.sec with rngFail := s.sec.rngFail && !bitAt h 1 } } else s
  else if a < 0x80000 then s
  else if a < 0x90000 then s.putPwr (a - 0x80000) n h
  else if a < 0xA0000 then s.putClk (a - 0x90000) n
  else if a < 0xB0000 then s.putFlt (a - 0xA0000) n h
  else if a < 0x140000 then s.putCh (chnOf ((a - 0x100000) / 0x10000)) ((a - 0x100000) % 0x10000) n h
  else if a < 0x380000 then s.putMsd ((a - 0x300000) / 0x10000) ((a - 0x300000) % 0x10000) n h
  else s

/-! ### The MSI-X table (R539) and the window table (R310) -/

/-- A write of one or two words of the MSI-X table; a vector that is unmasked sends what it held. -/
def State.putMsix (s : State) (o size : Nat) (v : W64) : State :=
  if (size = 4 || size = 8) && o % size = 0 && o < 1024 then
    let t := Smap.upsert s.ev.msixTable (o / 4) (fld v 0 32)
    let t := if size = 8 then Smap.upsert t (o / 4 + 1) (fld v 32 32) else t
    ({ s with ev := { s.ev with msixTable := t } } : State).deliverEvents
  else s

def State.putEntry (s : State) (o size : Nat) (v : W64) : State :=
  if size = 8 && o % 8 = 0 then s.writeEntry (o / 8) .whole v
  else if size = 4 && o % 8 = 0 then s.writeEntry (o / 8) .low v
  else if size = 4 && o % 8 = 4 then s.writeEntry (o / 8) .high v
  else s

/-! ### A write (R12, R536) -/

/-- The bits of a register that a write of `size` bytes at its byte `j` reaches. -/
def writeMask (j size : Nat) : W64 := w64 ((2 ^ (8 * size) - 1) <<< (8 * j))

/-- A write inside one register of 4 or 8 bytes, or of the packet that is staged for peers. -/
def State.writeReg (s : State) (r : RegVal) (a size : Nat) (v : W64) : State :=
  let j := a - r.start
  if r.start = 0x10400 then s.putPacket j size v
  else if r.bytes ≤ 8 then
    let m := writeMask j size
    let w := v <<< (8 * j)
    s.putReg r.start (merged (w64 r.value) w m) (w &&& m) m
  else s

/-- A write of BAR0. -/
def State.writeBar (s : State) (a size : Nat) (v : W64) : State :=
  if 8 < size then s
  else if 0xB0000 ≤ a && a < 0xC0000 then if s.on 79 then s.putMsix (a - 0xB0000) size v else s
  else if 0x800000 ≤ a && a < 0xA00000 then if s.on 79 then s.putEntry (a - 0x800000) size v else s
  else match s.regAt a with
    | some r => if r.allows a size then s.writeReg r a size v else s
    | none => s

def execRegisterWrite (off size : Nat) (val : W64) (s : State) : Host.Outcome State Fault Refusal :=
  .next (s.writeBar off size val)

end Sys2Proof.Machine
end

