-- ==== Sys2Proof/Machine/Dispatch.lean ====
section
/-! DEFINITION. The meaning of each command: one arm for each row of the table. -/
namespace Sys2Proof.Machine

def exec (i : Instr) (s : State) : Host.Outcome State Fault Refusal :=
  match i with
  | .tideTick slot => Sys2Proof.Machine.execTideTick slot s
  | .tideFrame => Sys2Proof.Machine.execTideFrame s
  | .tideLoss => Sys2Proof.Machine.execTideLoss s
  | .tideHoldRelease => Sys2Proof.Machine.execTideHoldRelease s
  | .tidePromoteJump => Sys2Proof.Machine.execTidePromoteJump s
  | .haltAtMark n => Sys2Proof.Machine.execHaltAtMark n s
  | .freqStepAtMark n => Sys2Proof.Machine.execFreqStepAtMark n s
  | .slackWindowOpen n => Sys2Proof.Machine.execSlackWindowOpen n s
  | .handoverAtMark n => Sys2Proof.Machine.execHandoverAtMark n s
  | .bundleIssue k => Sys2Proof.Machine.execBundleIssue k s
  | .mxnop k => Sys2Proof.Machine.execMxnop k s
  | .mxcfg k => Sys2Proof.Machine.execMxcfg k s
  | .mma k => Sys2Proof.Machine.execMma k s
  | .close k => Sys2Proof.Machine.execClose k s
  | .vnop k => Sys2Proof.Machine.execVnop k s
  | .vmov k => Sys2Proof.Machine.execVmov k s
  | .vsel k => Sys2Proof.Machine.execVsel k s
  | .vcvt k => Sys2Proof.Machine.execVcvt k s
  | .vand k => Sys2Proof.Machine.execVand k s
  | .vor k => Sys2Proof.Machine.execVor k s
  | .vxor k => Sys2Proof.Machine.execVxor k s
  | .vandn k => Sys2Proof.Machine.execVandn k s
  | .vshl k => Sys2Proof.Machine.execVshl k s
  | .vshr k => Sys2Proof.Machine.execVshr k s
  | .vsar k => Sys2Proof.Machine.execVsar k s
  | .viadd k => Sys2Proof.Machine.execViadd k s
  | .visub k => Sys2Proof.Machine.execVisub k s
  | .vimul k => Sys2Proof.Machine.execVimul k s
  | .vmax k => Sys2Proof.Machine.execVmax k s
  | .vmin k => Sys2Proof.Machine.execVmin k s
  | .vadd k => Sys2Proof.Machine.execVadd k s
  | .vsub k => Sys2Proof.Machine.execVsub k s
  | .vmul k => Sys2Proof.Machine.execVmul k s
  | .vfma k => Sys2Proof.Machine.execVfma k s
  | .vabs k => Sys2Proof.Machine.execVabs k s
  | .vneg k => Sys2Proof.Machine.execVneg k s
  | .vdiv k => Sys2Proof.Machine.execVdiv k s
  | .vsqrt k => Sys2Proof.Machine.execVsqrt k s
  | .vrcp k => Sys2Proof.Machine.execVrcp k s
  | .vrsq k => Sys2Proof.Machine.execVrsq k s
  | .vexp2 k => Sys2Proof.Machine.execVexp2 k s
  | .vlog2 k => Sys2Proof.Machine.execVlog2 k s
  | .vcmp k => Sys2Proof.Machine.execVcmp k s
  | .vmaskn k => Sys2Proof.Machine.execVmaskn k s
  | .vmaskb k => Sys2Proof.Machine.execVmaskb k s
  | .vmlog k => Sys2Proof.Machine.execVmlog k s
  | .vlsum k => Sys2Proof.Machine.execVlsum k s
  | .vlprod k => Sys2Proof.Machine.execVlprod k s
  | .vlmax k => Sys2Proof.Machine.execVlmax k s
  | .vlmin k => Sys2Proof.Machine.execVlmin k s
  | .vland k => Sys2Proof.Machine.execVland k s
  | .vlor k => Sys2Proof.Machine.execVlor k s
  | .vlargmax k => Sys2Proof.Machine.execVlargmax k s
  | .vlargmin k => Sys2Proof.Machine.execVlargmin k s
  | .vrsum k => Sys2Proof.Machine.execVrsum k s
  | .vrprod k => Sys2Proof.Machine.execVrprod k s
  | .vrmax k => Sys2Proof.Machine.execVrmax k s
  | .vrmin k => Sys2Proof.Machine.execVrmin k s
  | .vrand k => Sys2Proof.Machine.execVrand k s
  | .vror k => Sys2Proof.Machine.execVror k s
  | .vrargmax k => Sys2Proof.Machine.execVrargmax k s
  | .vrargmin k => Sys2Proof.Machine.execVrargmin k s
  | .vflg k => Sys2Proof.Machine.execVflg k s
  | .lsnop k => Sys2Proof.Machine.execLsnop k s
  | .lpush k => Sys2Proof.Machine.execLpush k s
  | .spop k => Sys2Proof.Machine.execSpop k s
  | .lcopy k => Sys2Proof.Machine.execLcopy k s
  | .shld k => Sys2Proof.Machine.execShld k s
  | .shlds k => Sys2Proof.Machine.execShlds k s
  | .ixset k => Sys2Proof.Machine.execIxset k s
  | .ltide k => Sys2Proof.Machine.execLtide k s
  | .lrand k => Sys2Proof.Machine.execLrand k s
  | .lcyc k => Sys2Proof.Machine.execLcyc k s
  | .route k => Sys2Proof.Machine.execRoute k s
  | .cnop k => Sys2Proof.Machine.execCnop k s
  | .loop k => Sys2Proof.Machine.execLoop k s
  | .idle k => Sys2Proof.Machine.execIdle k s
  | .idleEnd k => Sys2Proof.Machine.execIdleEnd k s
  | .bend k => Sys2Proof.Machine.execBend k s
  | .shsw k => Sys2Proof.Machine.execShsw k s
  | .tchk k => Sys2Proof.Machine.execTchk k s
  | .barr k => Sys2Proof.Machine.execBarr k s
  | .barrierRelease c g => Sys2Proof.Machine.execBarrierRelease c g s
  | .bwait k => Sys2Proof.Machine.execBwait k s
  | .fset k => Sys2Proof.Machine.execFset k s
  | .fclr k => Sys2Proof.Machine.execFclr k s
  | .frdo k => Sys2Proof.Machine.execFrdo k s
  | .frda k => Sys2Proof.Machine.execFrda k s
  | .sgnl k => Sys2Proof.Machine.execSgnl k s
  | .take k => Sys2Proof.Machine.execTake k s
  | .edgePlanRun c n => Sys2Proof.Machine.execEdgePlanRun c n s
  | .blockEnd c => Sys2Proof.Machine.execBlockEnd c s
  | .gateClose c => Sys2Proof.Machine.execGateClose c s
  | .savePointWrite c => Sys2Proof.Machine.execSavePointWrite c s
  | .saveComplete => Sys2Proof.Machine.execSaveComplete s
  | .saveDue => Sys2Proof.Machine.execSaveDue s
  | .gateCheckPass c => Sys2Proof.Machine.execGateCheckPass c s
  | .jointReady c => Sys2Proof.Machine.execJointReady c s
  | .blockRelease c => Sys2Proof.Machine.execBlockRelease c s
  | .gateWaitLong c => Sys2Proof.Machine.execGateWaitLong c s
  | .counterOpArrive n => Sys2Proof.Machine.execCounterOpArrive n s
  | .ccoreWaitLong c => Sys2Proof.Machine.execCcoreWaitLong c s
  | .alu c => Sys2Proof.Machine.execAlu c s
  | .iaddk c => Sys2Proof.Machine.execIaddk c s
  | .bandk c => Sys2Proof.Machine.execBandk c s
  | .bork c => Sys2Proof.Machine.execBork c s
  | .bxork c => Sys2Proof.Machine.execBxork c s
  | .shiftk c => Sys2Proof.Machine.execShiftk c s
  | .cltsk c => Sys2Proof.Machine.execCltsk c s
  | .cltuk c => Sys2Proof.Machine.execCltuk c s
  | .ldk c => Sys2Proof.Machine.execLdk c s
  | .shins c => Sys2Proof.Machine.execShins c s
  | .load c => Sys2Proof.Machine.execLoad c s
  | .store c => Sys2Proof.Machine.execStore c s
  | .branch c => Sys2Proof.Machine.execBranch c s
  | .call c => Sys2Proof.Machine.execCall c s
  | .jreg c => Sys2Proof.Machine.execJreg c s
  | .ssig c => Sys2Proof.Machine.execSsig c s
  | .swait c => Sys2Proof.Machine.execSwait c s
  | .stake c => Sys2Proof.Machine.execStake c s
  | .sset c => Sys2Proof.Machine.execSset c s
  | .srd c => Sys2Proof.Machine.execSrd c s
  | .msend c => Sys2Proof.Machine.execMsend c s
  | .msendComplete c => Sys2Proof.Machine.execMsendComplete c s
  | .mrecv c => Sys2Proof.Machine.execMrecv c s
  | .mrecvComplete c => Sys2Proof.Machine.execMrecvComplete c s
  | .mpoll c => Sys2Proof.Machine.execMpoll c s
  | .messageDeliver src dst => Sys2Proof.Machine.execMessageDeliver src dst s
  | .sendStall c => Sys2Proof.Machine.execSendStall c s
  | .gate c => Sys2Proof.Machine.execGate c s
  | .bcast c => Sys2Proof.Machine.execBcast c s
  | .sopen c => Sys2Proof.Machine.execSopen c s
  | .scancel c => Sys2Proof.Machine.execScancel c s
  | .sdepth c => Sys2Proof.Machine.execSdepth c s
  | .wkrd c => Sys2Proof.Machine.execWkrd c s
  | .wkwr c => Sys2Proof.Machine.execWkwr c s
  | .wicketComplete c => Sys2Proof.Machine.execWicketComplete c s
  | .csrr c => Sys2Proof.Machine.execCsrr c s
  | .csrw c => Sys2Proof.Machine.execCsrw c s
  | .rdtide c => Sys2Proof.Machine.execRdtide c s
  | .rdfwait c => Sys2Proof.Machine.execRdfwait c s
  | .rdrand c => Sys2Proof.Machine.execRdrand c s
  | .rdcyc c => Sys2Proof.Machine.execRdcyc c s
  | .flgclr c => Sys2Proof.Machine.execFlgclr c s
  | .evsig c => Sys2Proof.Machine.execEvsig c s
  | .fetchRequest c q => Sys2Proof.Machine.execFetchRequest c q s
  | .readReturn c q pos => Sys2Proof.Machine.execReadReturn c q pos s
  | .drainWrite c q => Sys2Proof.Machine.execDrainWrite c q s
  | .hbmRefresh n => Sys2Proof.Machine.execHbmRefresh n s
  | .hbmRetry n wdata exhausted => Sys2Proof.Machine.execHbmRetry n wdata exhausted s
  | .patrolScrub n granule => Sys2Proof.Machine.execPatrolScrub n granule s
  | .ceWindowExpiry => Sys2Proof.Machine.execCeWindowExpiry s
  | .cxlMemRead off cacheable => Sys2Proof.Machine.execCxlMemRead off cacheable s
  | .cxlMemWrite off data enables reqId poison => Sys2Proof.Machine.execCxlMemWrite off data enables reqId poison s
  | .commandSlotExamine => Sys2Proof.Machine.execCommandSlotExamine s
  | .commandComplete seq => Sys2Proof.Machine.execCommandComplete seq s
  | .identify seq => Sys2Proof.Machine.execIdentify seq s
  | .queryFeatures seq => Sys2Proof.Machine.execQueryFeatures seq s
  | .loadImage seq img => Sys2Proof.Machine.execLoadImage seq img s
  | .verifyImage seq img => Sys2Proof.Machine.execVerifyImage seq img s
  | .bindChannels seq => Sys2Proof.Machine.execBindChannels seq s
  | .attest seq => Sys2Proof.Machine.execAttest seq s
  | .sealReceipt seq => Sys2Proof.Machine.execSealReceipt seq s
  | .eventConfig seq => Sys2Proof.Machine.execEventConfig seq s
  | .clearFaults seq => Sys2Proof.Machine.execClearFaults seq s
  | .dumpState seq => Sys2Proof.Machine.execDumpState seq s
  | .start seq => Sys2Proof.Machine.execStart seq s
  | .stop seq => Sys2Proof.Machine.execStop seq s
  | .stopAfterBlock seq => Sys2Proof.Machine.execStopAfterBlock seq s
  | .save seq => Sys2Proof.Machine.execSave seq s
  | .resume seq => Sys2Proof.Machine.execResume seq s
  | .resumeStream seq => Sys2Proof.Machine.execResumeStream seq s
  | .retireChannel seq => Sys2Proof.Machine.execRetireChannel seq s
  | .adoptFallback seq => Sys2Proof.Machine.execAdoptFallback seq s
  | .resetChannel seq => Sys2Proof.Machine.execResetChannel seq s
  | .pairMode seq => Sys2Proof.Machine.execPairMode seq s
  | .setFreqPlan seq => Sys2Proof.Machine.execSetFreqPlan seq s
  | .scheduleSlack seq => Sys2Proof.Machine.execScheduleSlack seq s
  | .setTideRole seq => Sys2Proof.Machine.execSetTideRole seq s
  | .substituteColumn seq => Sys2Proof.Machine.execSubstituteColumn seq s
  | .fwStage seq => Sys2Proof.Machine.execFwStage seq s
  | .fwActivate seq => Sys2Proof.Machine.execFwActivate seq s
  | .calibrate seq => Sys2Proof.Machine.execCalibrate seq s
  | .hbmRetrain seq => Sys2Proof.Machine.execHbmRetrain seq s
  | .recoveryDecision c => Sys2Proof.Machine.execRecoveryDecision c s
  | .rollback => Sys2Proof.Machine.execRollback s
  | .columnSubstitution c p => Sys2Proof.Machine.execColumnSubstitution c p s
  | .phaseCalibration r margin => Sys2Proof.Machine.execPhaseCalibration r margin s
  | .hbmRetrainTask n ok => Sys2Proof.Machine.execHbmRetrainTask n ok s
  | .mgmtFwSwitch => Sys2Proof.Machine.execMgmtFwSwitch s
  | .slackTaskEnd t => Sys2Proof.Machine.execSlackTaskEnd t s
  | .slackSpanEnd => Sys2Proof.Machine.execSlackSpanEnd s
  | .pairCompare slot c => Sys2Proof.Machine.execPairCompare slot c s
  | .pairStall slot => Sys2Proof.Machine.execPairStall slot s
  | .eventOccurrence => Sys2Proof.Machine.execEventOccurrence s
  | .eventTimeout e => Sys2Proof.Machine.execEventTimeout e s
  | .eventClaim v wide => Sys2Proof.Machine.execEventClaim v wide s
  | .evcPendSet k w => Sys2Proof.Machine.execEvcPendSet k w s
  | .evcPendClr k w => Sys2Proof.Machine.execEvcPendClr k w s
  | .evcMaskSet k w => Sys2Proof.Machine.execEvcMaskSet k w s
  | .evcMaskClr k w => Sys2Proof.Machine.execEvcMaskClr k w s
  | .evcPendWindowWrite k w => Sys2Proof.Machine.execEvcPendWindowWrite k w s
  | .evcMaskWindowWrite k w => Sys2Proof.Machine.execEvcMaskWindowWrite k w s
  | .evcCfgWrite e w => Sys2Proof.Machine.execEvcCfgWrite e w s
  | .mgmtWake core => Sys2Proof.Machine.execMgmtWake core s
  | .windowTableWrite n part w => Sys2Proof.Machine.execWindowTableWrite n part w s
  | .wtabFlush => Sys2Proof.Machine.execWtabFlush s
  | .clearNext c => Sys2Proof.Machine.execClearNext c s
  | .breakwaterEnable n on => Sys2Proof.Machine.execBreakwaterEnable n on s
  | .breakwaterInvalidate n => Sys2Proof.Machine.execBreakwaterInvalidate n s
  | .channelPowerOff mask => Sys2Proof.Machine.execChannelPowerOff mask s
  | .quiesce => Sys2Proof.Machine.execQuiesce s
  | .retrainFull => Sys2Proof.Machine.execRetrainFull s
  | .peerSend mask => Sys2Proof.Machine.execPeerSend mask s
  | .replyRingEnable w => Sys2Proof.Machine.execReplyRingEnable w s
  | .replyConsWrite w => Sys2Proof.Machine.execReplyConsWrite w s
  | .fltConsWrite w => Sys2Proof.Machine.execFltConsWrite w s
  | .readClear off size => Sys2Proof.Machine.execReadClear off size s
  | .latchedLowRead off => Sys2Proof.Machine.execLatchedLowRead off s
  | .registerWrite off size val => Sys2Proof.Machine.execRegisterWrite off size val s
  | .configRequest write off val => Sys2Proof.Machine.execConfigRequest write off val s
  | .doeCdat entry => Sys2Proof.Machine.execDoeCdat entry s
  | .doeCompliance request => Sys2Proof.Machine.execDoeCompliance request s
  | .doeAbort m => Sys2Proof.Machine.execDoeAbort m s
  | .getVersion => Sys2Proof.Machine.execGetVersion s
  | .getCapabilities => Sys2Proof.Machine.execGetCapabilities s
  | .negotiateAlgorithms algs => Sys2Proof.Machine.execNegotiateAlgorithms algs s
  | .getDigests => Sys2Proof.Machine.execGetDigests s
  | .getCertificate slot off len => Sys2Proof.Machine.execGetCertificate slot off len s
  | .challenge slot nonce => Sys2Proof.Machine.execChallenge slot nonce s
  | .getMeasurements index sign nonce => Sys2Proof.Machine.execGetMeasurements index sign nonce s
  | .keyExchange slot exchange => Sys2Proof.Machine.execKeyExchange slot exchange s
  | .finish session verified => Sys2Proof.Machine.execFinish session verified s
  | .endSession session => Sys2Proof.Machine.execEndSession session s
  | .sidebandRecoveryWrite off data => Sys2Proof.Machine.execSidebandRecoveryWrite off data s
  | .linkUp laneBad slow => Sys2Proof.Machine.execLinkUp laneBad slow s
  | .linkRecovery => Sys2Proof.Machine.execLinkRecovery s
  | .linkLoss => Sys2Proof.Machine.execLinkLoss s
  | .linkDownLimit => Sys2Proof.Machine.execLinkDownLimit s
  | .surpriseRemoval => Sys2Proof.Machine.execSurpriseRemoval s
  | .moduleInsert ample => Sys2Proof.Machine.execModuleInsert ample s
  | .pwrEnAssert => Sys2Proof.Machine.execPwrEnAssert s
  | .pwrEnDeassert => Sys2Proof.Machine.execPwrEnDeassert s
  | .inputFault trip => Sys2Proof.Machine.execInputFault trip s
  | .deviceReset => Sys2Proof.Machine.execDeviceReset s
  | .thermtrip sensor => Sys2Proof.Machine.execThermtrip sensor s
  | .bringupPhaseEnd env => Sys2Proof.Machine.execBringupPhaseEnd env s
  | .bringupFailed die => Sys2Proof.Machine.execBringupFailed die s
  | .noiseHealthFail => Sys2Proof.Machine.execNoiseHealthFail s
  | .droopStretch firing => Sys2Proof.Machine.execDroopStretch firing s
  | .sensorRead temps => Sys2Proof.Machine.execSensorRead temps s
  | .ceilingEvaluate mean => Sys2Proof.Machine.execCeilingEvaluate mean s
  | .clockDrift r margin => Sys2Proof.Machine.execClockDrift r margin s
  | .railArrive => Sys2Proof.Machine.execRailArrive s
  | .perstNDeassert => Sys2Proof.Machine.execPerstNDeassert s
  | .inputReaches46v => Sys2Proof.Machine.execInputReaches46v s
  | .sopenComplete c => Sys2Proof.Machine.execSopenComplete c s
  | .scancelComplete c => Sys2Proof.Machine.execScancelComplete c s
  | .bisnpResponse off dirty => Sys2Proof.Machine.execBisnpResponse off dirty s
  | .peerReplyWrite reqId off data => Sys2Proof.Machine.execPeerReplyWrite reqId off data s
  | .doeDiscovery m index => Sys2Proof.Machine.execDoeDiscovery m index s
  | .doeObjectDiscarded m protocol len => Sys2Proof.Machine.execDoeObjectDiscarded m protocol len s
  | .tapInstruction op => Sys2Proof.Machine.execTapInstruction op s
  | .ccoreInstructionFault c => Sys2Proof.Machine.execCcoreInstructionFault c s
  | .pairRingPoll c => Sys2Proof.Machine.execPairRingPoll c s
  | .retirementWindowExpiry c => Sys2Proof.Machine.execRetirementWindowExpiry c s

end Sys2Proof.Machine
end

