-- ==== Sys2Proof/Safety.lean ====
section
/-! DEFINITION. The words in which statements speak of states: what completes, which slot of a bundle
is about to act, and which change falls due when. -/
namespace Sys2Proof.Machine

/-- A command is refused or stopped by nothing: it answers a next state. -/
def completes (i : Instr) (s : State) : Prop := ∃ t, exec i s = .next t

/-- A slot of the bundle `l` that cell `k`, of a channel of the grade, issued in this cycle has not
acted yet. -/
def State.flies (s : State) (k : CellId) (slot : Nat) (l : Latched) : Prop :=
  s.hasChan k.ch = true ∧ s.slotReady k slot = some l

/-- The outcome a slot starts from: the cell with the slot marked as having acted, and nothing done. -/
def State.begun (s : State) (k : CellId) (slot : Nat) : Out := Out.none_ ((s.cell k).markDone slot)

/-- The channel in whose cells, edges or core a row acts; a row of no one channel has none. -/
def channelOf : Instr → Option Chn
  | .bundleIssue k | .mxnop k | .mxcfg k | .mma k | .close k | .vnop k | .vmov k | .vsel k |
    .vcvt k | .vand k | .vor k | .vxor k | .vandn k | .vshl k | .vshr k | .vsar k | .viadd k |
    .visub k | .vimul k | .vmax k | .vmin k | .vadd k | .vsub k | .vmul k | .vfma k | .vabs k |
    .vneg k | .vdiv k | .vsqrt k | .vrcp k | .vrsq k | .vexp2 k | .vlog2 k | .vcmp k | .vmaskn k
    | .vmaskb k | .vmlog k | .vlsum k | .vlprod k | .vlmax k | .vlmin k | .vland k | .vlor k |
    .vlargmax k | .vlargmin k | .vrsum k | .vrprod k | .vrmax k | .vrmin k | .vrand k | .vror k
    | .vrargmax k | .vrargmin k | .vflg k | .lsnop k | .lpush k | .spop k | .lcopy k | .shld k |
    .shlds k | .ixset k | .ltide k | .lrand k | .lcyc k | .route k | .cnop k | .loop k | .idle k
    | .idleEnd k | .bend k | .shsw k | .tchk k | .barr k | .bwait k | .fset k | .fclr k |
    .frdo k | .frda k | .sgnl k | .take k => some k.ch
  | .barrierRelease c _ | .edgePlanRun c _ | .blockEnd c | .gateClose c | .savePointWrite c |
    .gateCheckPass c | .jointReady c | .blockRelease c | .gateWaitLong c | .ccoreWaitLong c |
    .alu c | .iaddk c | .bandk c | .bork c | .bxork c | .shiftk c | .cltsk c | .cltuk c | .ldk c
    | .shins c | .load c | .store c | .branch c | .call c | .jreg c | .ssig c | .swait c |
    .stake c | .sset c | .srd c | .msend c | .msendComplete c | .mrecv c | .mrecvComplete c |
    .mpoll c | .gate c | .bcast c | .sopen c | .scancel c | .sdepth c | .wkrd c | .wkwr c |
    .wicketComplete c | .csrr c | .csrw c | .rdtide c | .rdfwait c | .rdrand c | .rdcyc c |
    .flgclr c | .evsig c | .fetchRequest c _ | .readReturn c _ _ | .drainWrite c _ |
    .recoveryDecision c | .columnSubstitution c _ | .pairCompare _ c | .clearNext c |
    .sopenComplete c | .scancelComplete c | .ccoreInstructionFault c | .pairRingPoll c |
    .retirementWindowExpiry c => some c
  | _ => none

/-- No order of the tide line has reached its mark. -/
def State.noMark (s : State) : Prop :=
  ∀ n o, s.orderAt n = some o → s.tide.count.toNat < o.mark.toNat

/-- A change of cell `k` falls due at the end of cycle `n`. -/
def State.dueAt (t : State) (k : CellId) (n : Nat) (e : CellEffect) : Prop :=
  ∃ d ∈ (t.chan k.ch).dues, d.at_ = n ∧ d.cell = k.num ∧ d.effect = e

/-- The row of lane results under a mask: masked lanes hold 0 (R146). -/
def maskedRow (m : W32) (f : Fin 32 → W32) : Row :=
  Vector.ofFn fun i : Fin 32 => if bitAt m i.val then f i else 0

/-- What a cell command may change at most: its channels' state, faults and events of the cycle,
columns whose substitution is due. -/
def sameButChans (s t : State) : Prop :=
  { t with chans := s.chans, newFaults := s.newFaults, ev := s.ev, recov := s.recov } = s

/-- What a command of channel `c` alone may change at most: that channel's state. -/
def onlyChan (s t : State) (c : Chn) : Prop := t = s.setChan c (t.chan c)

/-- The control core of channel `c`, of the grade, issues in this cycle the instruction word `w`, which
is of the kind named and whose codeword is good. -/
def State.issues (s : State) (c : Chn) (kind : CoreKind) (w : W32) : Prop :=
  s.hasChan c = true ∧ s.coreReady c = true ∧ (s.chan c).core.fetch.2.bad = none ∧
    (s.chan c).core.pc < returnAddr ∧ (s.chan c).core.word = w ∧ coreKind w = some kind

/-- The core after an instruction that goes on to the next one (R542). -/
def Core.goesOn (k : Core) (cy : Nat) : Core := { k with pc := k.pc + 4, readyAt := cy + 1 }

/-- A memory whose codewords are all good. -/
def Mem.allGood (m : Mem) : Prop := m.resid = [] ∧ m.poison = []

/-- It is the turn of the accepted command `c`, of this sequence and opcode. -/
def State.turnOf (s : State) (op : Nat) (seq : W64) (c : Cmd) : Prop :=
  s.nextCmd = some c ∧ c.seq = seq ∧ c.opcode = op

/-- The state in which a command acts: it is marked as begun. -/
def State.begunCmd (s : State) (seq : W64) : State := s.modCmd seq fun c => { c with begun := true }

/-- The accepted command `c` has reached its end with a status, a reason and a result. -/
def State.ended (t : State) (c : Cmd) (status reason : Nat) (result : BitVec 192) : Prop :=
  ∃ x ∈ t.cmd.accepted, x.seq = c.seq ∧ x.packet = c.packet ∧ x.begun = true ∧ x.finished = true ∧
    x.status = BitVec.ofNat 16 status ∧ x.reason = BitVec.ofNat 16 reason ∧ x.result = result

/-- It has done what was asked: OK, or OK_CLAMPED when a field was clamped, at acceptance or (`more`)
as it began. -/
def State.endedOk (t : State) (c : Cmd) (more : Bool) (result : BitVec 192) : Prop :=
  t.ended c (if c.clamp = 0 ∧ more = false then stOK else stCLAMPED) 0 result

/-- It has begun and waits for its end. -/
def State.waitsOn (t : State) (c : Cmd) : Prop :=
  ∃ x ∈ t.cmd.accepted, x.seq = c.seq ∧ x.packet = c.packet ∧ x.begun = true ∧ x.finished = false

/-- A reply is held while the ring has no room or the link is down, and else, when none is held before
it, written into the ring, with the ring's header. -/
def State.handsOut (s t : State) (x : BitVec 512) : Prop :=
  (s.cmd.room = false ∨ s.cxl.up = false → t.cmd.held = s.cmd.held ++ [x] ∧ t.cmd.prod = s.cmd.prod) ∧
  (s.cmd.room = true → s.cxl.up = true → s.cmd.held = [] →
    t.cmd.held = [] ∧ t.cmd.prod = s.cmd.prod + 1 ∧
    t.host = ((({ s with cmd := t.cmd } : State).hostPut
      (s.cmd.ringBase.toNat + 64 + 64 * (s.cmd.prod.toNat % s.cmd.ringSize)) (bytesLE 64 x.toNat)).ringHeader).host)

/-- A reply's fields (R390). -/
def isReply (x : BitVec 512) (c : Cmd) (status reason : W16) (result : BitVec 192) (tick : W64) : Prop :=
  fld x 0 64 = c.seq ∧ fldN x 64 16 = c.opcode ∧ fld x 80 16 = status ∧ fld x 96 32 = c.clamp ∧
    fld x 128 64 = c.accept ∧ fld x 192 64 = tick ∧ fld x 256 192 = result ∧ fld x 448 16 = reason ∧
    crcGood 64 x.toNat = true

/-- A command has asked for a task of a window: it is attached to the next stored window, to one that
firmware stores at the earliest mark, or, while no slot is free, listed. -/
def State.asked (s t : State) (task : SlackTask) (seq : W64) : Prop :=
  ∃ u : Task, u.task = task ∧ seq ∈ u.cmds ∧
    (∀ m, s.nextWindow = some m → u ∈ t.svc.tasks ∧ u.mark = m) ∧
    (s.nextWindow = none → s.freeOrder ≠ none → u ∈ t.svc.tasks ∧ u.mark = s.earliestMark) ∧
    (s.nextWindow = none → s.freeOrder = none → u ∈ t.svc.listed)

end Sys2Proof.Machine
end

