-- ==== Sys2Proof/Certificates/Slice0/Obligations.lean ====
section
/-! DEFINITION. The statements for the provers, in the order of OBLIGATIONS.json. -/
open Sys2Proof Sys2Proof.Machine

/-- A step runs the command at the front of the queue, or is one cycle. With a command c at the
front of the queue, a step is exec of c on the state whose queue is the rest. The queue is the
model's own. With no command waiting a step answers the state one cycle of the compute clock later
(the model's choice, log 4). (01_architecture.md, 95_what_each_step_holds.md) -/
def Obligations.StepRunsFrontCommand : Prop :=
  (∀ (c : Instr) (rest : List Instr) (s : State),
    step { s with pending := c :: rest } = exec c { s with pending := rest }) ∧
  (∀ s : State, s.pending = [] → step s = .next s.cycle)

/-- Reset values that the spec gives. After reset the tide unit is SELF at count 0 and unlocked,
every channel is in NO_IMAGE with PCOL0 and PCOL1 out of service, the fault log, the command window,
the event controller, the clock and the power registers hold the reset values of their tables, and
no command waits. After reset the fault log holds at most 4,096 records and the map of sync counts
is in canonical form. (R64, R244, R377, R418, R424, R456, R476, R477, R518, R278, R357) -/
def Obligations.ResetState : Prop :=
  (let s := State.reset
  s.pending = [] ∧ s.tide.count = 0 ∧ s.tide.role = 0 ∧ s.tide.locked = false ∧ s.tide.hold = false ∧
    s.tide.advance = 0x00010000 ∧
    (∀ c : Chn, (s.chan c).gate.st = .noImage ∧ (s.chan c).regs.out0 = 80 ∧ (s.chan c).regs.out1 = 81 ∧
      (s.chan c).regs.gwLim = 1000 ∧ (s.chan c).regs.stopAfter = BitVec.allOnes 64 ∧
      (s.chan c).regs2.ahead = 4 ∧ (s.chan c).regs2.waitLim = 10000 ∧ (s.chan c).regs2.stallLimit = 1000) ∧
    s.flt.prod = 0 ∧ s.flt.cons = 0 ∧ s.flt.cadence = 100000 ∧ s.flt.autoRollback = true ∧
    s.flt.autoSubst = true ∧ s.flt.autoRetire = true ∧ s.flt.retireLimit = 3 ∧
    s.cmd.next = 1 ∧ s.cmd.prod = 0 ∧ s.cmd.cons = 0 ∧ s.cmd.enable = false ∧ s.cmd.ringLog2 = 6 ∧
    s.ev.spur = 0 ∧ Ev.reset.count = 1 ∧ Ev.reset.masked = true ∧ Ev.reset.enable = false ∧
    s.cxl.degLimit = 16 ∧ s.cxl.downLimit = 1000000 ∧ s.cxl.quiesced = false ∧
    s.pwr.thresh = 30 ∧ s.pwr.kmax = 8 ∧ s.pwr.warn = 15 ∧ s.pwr.tceil = 16 ∧ s.pwr.cap = 1850 ∧
    s.svc.phase = 0 ∧ s.svc.defLen = 5000) ∧
  ((State.reset.flt.prod - State.reset.flt.cons).toNat ≤ 4096 ∧
    Smap.wf 0 State.reset.sync.counts = true)

/-- No-operations only mark their slot, and rows of an absent channel do nothing. MXNOP, VNOP, LSNOP
and CNOP in a bundle issued in this cycle leave everything as it was; only the model's own mark of
the slot changes. A row that acts in the cells, the edges or the core of one channel leaves a part
whose grade lacks that channel as it was. (R3, R186, R191, R194, R199) -/
def Obligations.NoOperations : Prop :=
  (∀ (k : CellId) (s : State) (l : Latched) (e : Instr × Nat × Nat),
    e ∈ [(Instr.mxnop k, slMX, fldN l.mx 0 4), (Instr.vnop k, slVX, fldN l.vx 0 6),
         (Instr.lsnop k, slLS, lsOp l.ls), (Instr.cnop k, slCT, ctOp l.ct)] →
    e.2.2 = 0 → s.flies k e.2.1 l →
    exec e.1 s = .next (s.setCell k ((s.cell k).markDone e.2.1))) ∧
  ∀ (i : Instr) (c : Chn) (s : State), channelOf i = some c → s.hasChan c = false → exec i s = .next s

/-- Elementwise integer operations. VAND, VOR, VXOR, VANDN, VSHL, VSHR, VSAR, VIADD, VISUB and
VIMUL, read good sources, write at the end of cycle c + L - 1 the 32-bit result of each unmasked
lane and 0 in each masked lane: shift counts are taken modulo 32, sums and products modulo 2^32.
(R145, R146, R154, R156, R191) -/
def Obligations.IntegerLaneResults : Prop :=
  ∀ (k : CellId) (s : State) (l : Latched) (o : Out) (a b c : Src)
    (e : Instr × Nat × Nat × (W32 → W32 → W32)),
    e ∈ ([(Instr.vand k, 0x04, 2, fun x y => x &&& y), (Instr.vor k, 0x05, 2, fun x y => x ||| y),
         (Instr.vxor k, 0x06, 2, fun x y => x ^^^ y), (Instr.vandn k, 0x07, 2, fun x y => x &&& ~~~y),
         (Instr.vshl k, 0x08, 2, fun x y => x <<< (y.toNat % 32)),
         (Instr.vshr k, 0x09, 2, fun x y => x >>> (y.toNat % 32)),
         (Instr.vsar k, 0x0A, 2, fun x y => BitVec.ofInt 32 (x.toInt / 2 ^ (y.toNat % 32))),
         (Instr.viadd k, 0x0B, 2, fun x y => BitVec.ofNat 32 (x.toNat + y.toNat)),
         (Instr.visub k, 0x0C, 2, fun x y => BitVec.ofInt 32 (x.toInt - y.toInt)),
         (Instr.vimul k, 0x0D, 3, fun x y => BitVec.ofNat 32 (x.toNat * y.toNat))] : List (Instr × Nat × Nat × (W32 → W32 → W32))) →
    s.flies k slVX l → fldN l.vx 0 6 = e.2.1 → (vxWord l.vx).dst.isDst = true →
    (s.begun k slVX).readSrcs l (vxWord l.vx) .i32 2 = (o, some (a, b, c)) →
    ∃ t f, exec e.1 s = .next t ∧
      dstEffect o.cell l (vxWord l.vx) .i32
        (maskedRow (o.cell.mask (vxWord l.vx).msk) fun i => e.2.2.2 a.row[i] b.row[i]) = some f ∧
      t.dueAt k (s.cy + e.2.2.1 - 1) f

/-- Elementwise F32 operations. VADD, VSUB, VMUL, VFMA, VDIV, VSQRT, VRCP, VRSQ, VEXP2, VLOG2, VABS
and VNEG, read good sources, write at the end of cycle c + L - 1 the correctly rounded result of
each unmasked lane and +0 in each masked lane, and the flags of the unmasked lanes join the flag
word in the same cycle. (R145, R146, R152, R153, R155, R163, R191) -/
def Obligations.FloatLaneResults : Prop :=
  ∀ (k : CellId) (s : State) (l : Latched) (o : Out) (a b c : Src)
    (e : Instr × Nat × Nat × Nat × (Nat → Nat → Nat → Nat × Flags)),
    e ∈ [(Instr.vadd k, 0x10, 2, 4, fun x y _ => fmtF32.addW x y),
         (Instr.vsub k, 0x11, 2, 4, fun x y _ => fmtF32.addV (fmtF32.unpack x) (fmtF32.unpack y).negate),
         (Instr.vmul k, 0x12, 2, 4, fun x y _ => fmtF32.mulW x y),
         (Instr.vfma k, 0x13, 3, 4, fun x y z => fmtF32.fmaW Config.fmaZeroInf x y z),
         (Instr.vabs k, 0x14, 1, 2, fun x _ _ =>
           if (fmtF32.unpack x).isNan then (0x7FC00000, 0) else (x % 2 ^ 31, 0)),
         (Instr.vneg k, 0x15, 1, 2, fun x _ _ =>
           if (fmtF32.unpack x).isNan then (0x7FC00000, 0) else ((x + 2 ^ 31) % 2 ^ 32, 0)),
         (Instr.vdiv k, 0x16, 2, 12, fun x y _ => fmtF32.divW x y),
         (Instr.vsqrt k, 0x17, 1, 12, fun x _ _ => fmtF32.sqrtW x),
         (Instr.vrcp k, 0x18, 1, 8, fun x _ _ => fmtF32.divW 0x3F800000 x),
         (Instr.vrsq k, 0x19, 1, 8, fun x _ _ => fmtF32.rsqW x),
         (Instr.vexp2 k, 0x1A, 1, 10, fun x _ _ => fmtF32.exp2W x),
         (Instr.vlog2 k, 0x1B, 1, 10, fun x _ _ => fmtF32.log2W x)] →
    s.flies k slVX l → fldN l.vx 0 6 = e.2.1 → (vxWord l.vx).dst.isDst = true →
    (s.begun k slVX).readSrcs l (vxWord l.vx) .f32 e.2.2.1 = (o, some (a, b, c)) →
    let m := o.cell.mask (vxWord l.vx).msk
    let r := fun i : Fin 32 => e.2.2.2.2 a.row[i].toNat b.row[i].toNat c.row[i].toNat
    let fl := orFlags ((List.finRange 32).map fun i => if bitAt m i.val then (r i).2 else 0) |||
      a.flagsUnder m ||| b.flagsUnder m ||| c.flagsUnder m
    ∃ t f, exec e.1 s = .next t ∧
      dstEffect o.cell l (vxWord l.vx) .f32 (maskedRow m fun i => w32 (r i).1) = some f ∧
      t.dueAt k (s.cy + e.2.2.2.1 - 1) f ∧
      (fl ≠ 0 → t.dueAt k (s.cy + e.2.2.2.1 - 1) (.flags fl))

/-- Moves, selections, maxima, minima and conversions. VMOV, VSEL, VMAX, VMIN and VCVT, read good
sources in the form that TY (for VCVT, FN) names, write at the end of cycle c + L - 1 the moved
word, the word that the mask of SC selects, the larger or smaller value, or the converted value of
each unmasked lane, and 0 in each masked lane. (R145, R146, R147, R156, R157, R161, R191, R192) -/
def Obligations.TypedLaneResults : Prop :=
  ∀ (k : CellId) (s : State) (l : Latched) (o : Out) (a b c : Src)
    (e : Instr × Nat × Nat × Nat × Form × Form × (Nat → Nat → Nat → Nat → Nat)),
    let v := vxWord l.vx
    let form : Form := if v.ty = 1 then .i32 else if v.ty = 2 then .narrow else .f32
    e ∈ [(Instr.vmov k, 0x01, 1, 2, form, form, fun _ x _ _ => x),
         (Instr.vsel k, 0x02, 3, 2, form, form, fun i x y z => if z.testBit i then x else y),
         (Instr.vmax k, 0x0E, 2, 2, form, form, fun _ x y _ =>
           if v.ty = 1 then (if (w32 x).slt (w32 y) then y else x)
           else (pickF true x y).1),
         (Instr.vmin k, 0x0F, 2, 2, form, form, fun _ x y _ =>
           if v.ty = 1 then (if (w32 y).slt (w32 x) then y else x)
           else (pickF false x y).1),
         (Instr.vcvt k, 0x03, 1, 3,
           if v.fn = 1 then .i32 else if v.fn = 3 then .narrow else .f32,
           if v.fn = 0 then .i32 else if v.fn = 2 then .narrow else .f32,
           fun _ x _ _ =>
             if v.fn = 0 then (f32ToI32 x).1 else if v.fn = 1 then (i32ToF32 (w32 x)).1
             else if v.fn = 2 then (widenFrom v.fmt (narrowTo v.fmt x).1).1 else x)] →
    s.flies k slVX l → fldN l.vx 0 6 = e.2.1 → v.fn ≤ 3 ∨ e.1 ≠ .vcvt k → v.dst.isDst = true →
    (s.begun k slVX).readSrcs l v e.2.2.2.2.1 e.2.2.1 = (o, some (a, b, c)) →
    ∃ t f, exec e.1 s = .next t ∧
      dstEffect o.cell l v e.2.2.2.2.2.1
        (maskedRow (o.cell.mask v.msk) fun i =>
          w32 (e.2.2.2.2.2.2 i.val a.row[i].toNat b.row[i].toNat c.row[i].toNat)) = some f ∧
      t.dueAt k (s.cy + e.2.2.2.1 - 1) f

/-- An operation with a failed source writes nothing. When a queue pop of an elementwise operation,
a compare or a lane reduction fails or a codeword it reads is bad, the operation writes no
destination and no flag; the command still completes, with the state that the failed read left.
(R69, R73, R191, R353) -/
def Obligations.FailedSourceWritesNothing : Prop :=
  ∀ (k : CellId) (s : State) (l : Latched) (o : Out) (e : Instr × Nat × Nat × Form),
    let v := vxWord l.vx
    let form : Form := if v.ty = 1 then .i32 else if v.ty = 2 then .narrow else .f32
    let form2 : Form := if v.ty = 1 then .i32 else .f32
    e ∈ [(Instr.vmov k, 0x01, 1, form), (Instr.vsel k, 0x02, 3, form), (Instr.vand k, 0x04, 2, .i32),
         (Instr.vor k, 0x05, 2, .i32), (Instr.vxor k, 0x06, 2, .i32), (Instr.vandn k, 0x07, 2, .i32),
         (Instr.vshl k, 0x08, 2, .i32), (Instr.vshr k, 0x09, 2, .i32), (Instr.vsar k, 0x0A, 2, .i32),
         (Instr.viadd k, 0x0B, 2, .i32), (Instr.visub k, 0x0C, 2, .i32), (Instr.vimul k, 0x0D, 2, .i32),
         (Instr.vmax k, 0x0E, 2, form), (Instr.vmin k, 0x0F, 2, form), (Instr.vadd k, 0x10, 2, .f32),
         (Instr.vsub k, 0x11, 2, .f32), (Instr.vmul k, 0x12, 2, .f32), (Instr.vfma k, 0x13, 3, .f32),
         (Instr.vabs k, 0x14, 1, .f32), (Instr.vneg k, 0x15, 1, .f32), (Instr.vdiv k, 0x16, 2, .f32),
         (Instr.vsqrt k, 0x17, 1, .f32), (Instr.vrcp k, 0x18, 1, .f32), (Instr.vrsq k, 0x19, 1, .f32),
         (Instr.vexp2 k, 0x1A, 1, .f32), (Instr.vlog2 k, 0x1B, 1, .f32), (Instr.vcmp k, 0x1C, 2, form2),
         (Instr.vlsum k, 0x20, 1, form2), (Instr.vlprod k, 0x21, 1, form2), (Instr.vlmax k, 0x22, 1, form2),
         (Instr.vlmin k, 0x23, 1, form2), (Instr.vland k, 0x24, 1, form2), (Instr.vlor k, 0x25, 1, form2),
         (Instr.vlargmax k, 0x26, 1, form2), (Instr.vlargmin k, 0x27, 1, form2)] →
    s.flies k slVX l → fldN l.vx 0 6 = e.2.1 →
    (s.begun k slVX).readSrcs l v e.2.2.2 e.2.2.1 = (o, none) →
    ∃ t : State, exec e.1 s = .next t ∧ t.cell k = o.cell ∧ (t.chan k.ch).dues = (s.chan k.ch).dues ∧
      (o.faults ≠ [] → t.newFaults ≠ s.newFaults)

/-- Compares and mask operations. VCMP, VMASKN, VMASKB and VMLOG write their destination mask at the
end of cycle c + 1: the predicate of each unmasked lane and 0 in masked lanes; the low n bits set; a
broadcast register's word; AND, OR, AND-NOT or XOR of two masks. (R145, R146, R157, R190, R191,
R192) -/
def Obligations.MaskOperations : Prop :=
  ∀ (k : CellId) (s : State) (l : Latched) (d : Nat),
    let v := vxWord l.vx
    let b := s.begun k slVX
    s.flies k slVX l → v.dst = .mask d → d ≠ 0 →
    (fldN l.vx 0 6 = 0x1C → ∀ (o : Out) (x y z : Src),
      b.readSrcs l v (if v.ty = 1 then .i32 else .f32) 2 = (o, some (x, y, z)) →
      ∃ t m, exec (.vcmp k) s = .next t ∧ t.dueAt k (s.cy + 1) (.mask d m) ∧
        ∀ i : Fin 32, bitAt m i.val = (bitAt (o.cell.mask v.msk) i.val &&
          (if v.ty = 1 then cmpI v.fn x.row[i].toNat y.row[i].toNat
           else cmpF v.fn x.row[i].toNat y.row[i].toNat))) ∧
    (fldN l.vx 0 6 = 0x1D → ∀ n, v.sa = .imm n →
      ∃ t m, exec (.vmaskn k) s = .next t ∧ t.dueAt k (s.cy + 1) (.mask d m) ∧
        ∀ i : Fin 32, bitAt m i.val = decide (i.val < n)) ∧
    (fldN l.vx 0 6 = 0x1E → ∀ n, v.sa = .bcast n →
      ∃ t : State, exec (.vmaskb k) s = .next t ∧ t.dueAt k (s.cy + 1) (.mask d ((s.cell k).bc.getD n 0))) ∧
    (fldN l.vx 0 6 = 0x1F → v.fn ≤ 3 → ∀ p q, v.sa = .mask p → v.sb = .mask q →
      ∃ t : State, exec (.vmlog k) s = .next t ∧
        let x := (s.cell k).mask p
        let y := (s.cell k).mask q
        t.dueAt k (s.cy + 1) (.mask d
          (if v.fn = 0 then x &&& y else if v.fn = 1 then x ||| y else if v.fn = 2 then x &&& ~~~y
           else x ^^^ y)))

/-- Lane reductions, row reductions and the flag word. VLSUM, VLPROD, VLMAX, VLMIN, VLAND, VLOR,
VLARGMAX and VLARGMIN, read a good source, write at the end of cycle c + L - 1 the reduction of the
unmasked lanes into all 32 lanes of the destination, with its flags. VRSUM, VRPROD, VRMAX, VRMIN,
VRAND, VROR, VRARGMAX and VRARGMIN write at the end of cycle c + L - 1, lane by lane under the mask,
the reduction of rows 0 to n - 1 of a tile, a void row counting as the default NaN or the most
negative integer; VFLG writes the flag word into every unmasked lane. (R145, R158, R160, R161, R191,
R148, R159) -/
def Obligations.LaneAndRowReductions : Prop :=
  (∀ (k : CellId) (s : State) (l : Latched) (o : Out) (a b c : Src) (e : Instr × Nat × Nat),
    let v := vxWord l.vx
    let form : Form := if v.ty = 1 then .i32 else .f32
    e ∈ [(Instr.vlsum k, 0, 14), (Instr.vlprod k, 1, 14), (Instr.vlmax k, 2, 7), (Instr.vlmin k, 3, 7),
         (Instr.vland k, 4, 4), (Instr.vlor k, 5, 4), (Instr.vlargmax k, 6, 8), (Instr.vlargmin k, 7, 8)] →
    s.flies k slVX l → fldN l.vx 0 6 = 0x20 + e.2.1 → v.dst.isDst = true →
    (s.begun k slVX).readSrcs l v form 1 = (o, some (a, b, c)) →
    let m := o.cell.mask v.msk
    let r := redFn 5 (v.ty = 1) e.2.1
      ((List.finRange 32).map fun i => if bitAt m i.val then some a.row[i].toNat else none)
    ∃ t f, exec e.1 s = .next t ∧
      dstEffect o.cell l v (if e.2.1 < 6 then form else .i32) (Vector.replicate 32 (w32 r.1)) = some f ∧
      t.dueAt k (s.cy + e.2.2 - 1) f ∧
      (r.2 ||| a.flagsUnder m ≠ 0 → t.dueAt k (s.cy + e.2.2 - 1) (.flags (r.2 ||| a.flagsUnder m)))) ∧
  (∀ (k : CellId) (s : State) (l : Latched),
    let v := vxWord l.vx
    let form : Form := if v.ty = 1 then .i32 else .f32
    let m := (s.cell k).mask v.msk
    s.flies k slVX l → v.dst.isDst = true →
    (∀ (e : Instr × Nat × Nat),
      e ∈ [(Instr.vrsum k, 0, 18), (Instr.vrprod k, 1, 18), (Instr.vrmax k, 2, 9), (Instr.vrmin k, 3, 9),
           (Instr.vrand k, 4, 5), (Instr.vror k, 5, 5), (Instr.vrargmax k, 6, 10),
           (Instr.vrargmin k, 7, 10)] →
      fldN l.vx 0 6 = 0x28 + e.2.1 → ∀ g r n, v.sa = .tile g r → v.sb = .imm n → n ≤ 16 →
      let lane := fun i : Fin 32 => redFn 4 (v.ty = 1) e.2.1 ((List.range 16).map fun r =>
        if r < n then some (match Smap.find? (s.cell k).tiles (16 * g + r) with
          | some row => row[i].toNat
          | none => voidWord form) else none)
      ∃ t f, exec e.1 s = .next t ∧
        dstEffect (s.cell k) l v (if e.2.1 < 6 then form else .i32)
          (maskedRow m fun i => w32 (lane i).1) = some f ∧
        t.dueAt k (s.cy + e.2.2 - 1) f) ∧
    (fldN l.vx 0 6 = 0x30 →
      ∃ t f, exec (.vflg k) s = .next t ∧
        dstEffect (s.cell k) l v .i32 (maskedRow m fun _ => w32 (s.cell k).flags.toNat) = some f ∧
        t.dueAt k (s.cy + 1) f))

/-- What a command of a bundle slot leaves unchanged. When a command of the VX slot answers a next
state, nothing outside its channel changes but faults, events and due substitutions; in its channel
the other cells, the core, the gate's state and plan, the links, sums and queues of streams stay; in
its cell only the pop marks of its input queues change: lines, tiles, masks, flags, broadcast
registers, index table, pages, banks and configuration stay until the result falls due. When a
command of the MX, LS, RT or CT slot, LRAND, SGNL and TAKE apart, answers a next state, nothing
outside the channels' state changes but faults, events and due substitutions; in its own cell the
scratchpad, tiles, masks, flags, broadcast registers, index table, configuration and code pages stay
until a result falls due, and no other cell's registers change. (R140, R145, R163, R164, R191, R78,
R110, R142, R194, R197, R199) -/
def Obligations.CellFrames : Prop :=
  (∀ (k : CellId) (s t : State) (i : Instr),
    i ∈ [.vnop k, .vmov k, .vsel k, .vcvt k, .vand k, .vor k, .vxor k, .vandn k, .vshl k, .vshr k, .vsar k,
         .viadd k, .visub k, .vimul k, .vmax k, .vmin k, .vadd k, .vsub k, .vmul k, .vfma k, .vabs k,
         .vneg k, .vdiv k, .vsqrt k, .vrcp k, .vrsq k, .vexp2 k, .vlog2 k, .vcmp k, .vmaskn k, .vmaskb k,
         .vmlog k, .vlsum k, .vlprod k, .vlmax k, .vlmin k, .vland k, .vlor k, .vlargmax k, .vlargmin k,
         .vrsum k, .vrprod k, .vrmax k, .vrmin k, .vrand k, .vror k, .vrargmax k, .vrargmin k, .vflg k] →
    exec i s = .next t →
    sameButChans s t ∧ (∀ c, c ≠ k.ch → t.chan c = s.chan c) ∧
    (∀ n, n ≠ k.num → (t.chan k.ch).cell n = (s.chan k.ch).cell n) ∧
    { t.cell k with qinPop := (s.cell k).qinPop, seq := (s.cell k).seq } = s.cell k ∧
    { t.chan k.ch with
        cells := (s.chan k.ch).cells, dues := (s.chan k.ch).dues, ledger := (s.chan k.ch).ledger,
        regs2 := (s.chan k.ch).regs2 } = s.chan k.ch) ∧
  (∀ (k : CellId) (s t : State) (i : Instr),
    i ∈ [.mxnop k, .mxcfg k, .mma k, .close k, .lsnop k, .lpush k, .spop k, .lcopy k, .shld k, .shlds k,
         .ixset k, .ltide k, .lcyc k, .route k, .cnop k, .loop k, .idle k, .bend k, .shsw k, .tchk k,
         .barr k, .bwait k, .fset k, .fclr k, .frdo k, .frda k] →
    exec i s = .next t →
    sameButChans s t ∧
    (∀ c n, (c, n) ≠ (k.ch, k.num) →
      { (t.chan c).cell n with seq := ((s.chan c).cell n).seq } = (s.chan c).cell n) ∧
    (let x := t.cell k
     let y := s.cell k
     x.pad = y.pad ∧ x.tiles = y.tiles ∧ x.masks = y.masks ∧ x.flags = y.flags ∧ x.bc = y.bc ∧
     x.index = y.index ∧ x.cfg = y.cfg ∧ x.page0 = y.page0 ∧ x.page1 = y.page1 ∧ x.qin = y.qin ∧
     x.qout = y.qout ∧ x.activeB = y.activeB) ∧
    (∀ c, (t.chan c).core = (s.chan c).core ∧ (t.chan c).sq = (s.chan c).sq ∧ (t.chan c).dq = (s.chan c).dq ∧
      (t.chan c).chain = (s.chan c).chain ∧ (t.chan c).gate.st = (s.chan c).gate.st ∧
      (t.chan c).resident = (s.chan c).resident))

/-- Loads and stores of the LS slot, and the faults of a queue pop. LPUSH pushes a half-line of the
scratchpad; SPOP stores the head of an input queue into a half-line; LCOPY copies a line; LTIDE
writes the tide count, LCYC the block cycle and the block sequence number, LRAND 256 random bits or,
from an unhealthy instance, poisoned zeros; IXSET takes a good line as the index table. Each result
lands at the end of cycle c + 1, of LRAND c + 3. SPOP from an empty input queue raises QUEUE with
cause UNDERFLOW, and SPOP of a beat whose tag is not the expected one pops it and raises TAG with
the two tags and their distance; in both cases nothing is stored. (R145, R176, R194, R195, R488,
R69, R73, R74) -/
def Obligations.LineMoves : Prop :=
  (∀ (k : CellId) (s : State) (l : Latched), s.flies k slLS l →
    let c := s.cell k
    let a := genLine c.index l (fldN l.ls 5 7)
    let line := (Coded.check (Smap.get Coded.zero c.pad a)).1
    let half := bitAt l.ls 12
    (lsOp l.ls = 1 → ∃ t : State, exec (.lpush k) s = .next t ∧ t.dueAt k (s.cy + 1) (.push (fldN l.ls 13 3)
      (Coded.check ((Smap.get Coded.zero c.pad a).part (if half then 4 else 0) 4 : Beat)).1)) ∧
    (lsOp l.ls = 2 → ∀ e es, c.qin.getD (fldN l.ls 13 3) [] = e :: es →
      expTag c.index l (fldN l.ls 13 3) (fldN l.ls 16 3) = e.tag.toNat →
      ∃ t : State, exec (.spop k) s = .next t ∧ bitAt (t.cell k).qinPop (fldN l.ls 13 3) = true ∧
        t.dueAt k (s.cy + 1) (.half a half (Coded.check e.beat).1)) ∧
    (lsOp l.ls = 3 → ∃ t : State, exec (.lcopy k) s = .next t ∧
      t.dueAt k (s.cy + 1) (.line (genLine c.index l (fldN l.ls 25 7)) line)) ∧
    (lsOp l.ls = 6 → (Coded.check (Smap.get Coded.zero c.pad a)).2.bad = none →
      ∃ t : State, exec (.ixset k) s = .next t ∧ t.dueAt k (s.cy + 1) (.index line.data)) ∧
    (lsOp l.ls = 7 → ∃ t : State, exec (.ltide k) s = .next t ∧
      t.dueAt k (s.cy + 1) (.line a (Coded.ofData (s.tide.count.setWidth 1024)))) ∧
    (lsOp l.ls = 8 → ∃ t : State, exec (.lrand k) s = .next t ∧
      ((s.sec.drbgs.getD k.ch.val ⟨0, false⟩).unhealthy = true →
        t.dueAt k (s.cy + 3) (.line a (Coded.zero : Line).poisonAll) ∧ t.draw = s.draw) ∧
      ((s.sec.drbgs.getD k.ch.val ⟨0, false⟩).unhealthy = false →
        (s.sec.drbgs.getD k.ch.val ⟨0, false⟩).used < 65536 →
        t.dueAt k (s.cy + 3) (.line a (Coded.ofData ((Config.entropy s.draw).setWidth 1024))) ∧
          t.draw = s.draw + 1)) ∧
    (lsOp l.ls = 9 → ∃ t : State, exec (.lcyc k) s = .next t ∧
      t.dueAt k (s.cy + 1) (.line a (Coded.ofData (BitVec.ofNat 1024
        (s.cy - (s.chan k.ch).gate.releaseCy + (s.chan k.ch).gate.seq.toNat * 2 ^ 64)))))) ∧
  (∀ (k : CellId) (s : State) (l : Latched), s.flies k slLS l → lsOp l.ls = 2 →
    let c := s.cell k
    let q := fldN l.ls 13 3
    let x := expTag c.index l q (fldN l.ls 16 3)
    (c.qin.getD q [] = [] →
      ∃ (t : State) (r : FaultRec), exec (.spop k) s = .next t ∧ t.newFaults = s.newFaults ++ [r] ∧
        r.cls = 2 ∧ r.cause = 1 ∧ r.unit_ = 3 ∧ r.d0 = w64 q ∧ (t.chan k.ch).dues = (s.chan k.ch).dues ∧
        (t.cell k).qinPop = c.qinPop) ∧
    (∀ e es, c.qin.getD q [] = e :: es → x ≠ e.tag.toNat →
      ∃ (t : State) (r : FaultRec), exec (.spop k) s = .next t ∧ t.newFaults = s.newFaults ++ [r] ∧
        r.cls = 1 ∧ r.cause = 1 ∧ r.unit_ = 3 ∧ r.bundle = l.addr ∧
        r.d0 = w64 (x + 8 * e.tag.toNat + 64 * ((e.tag.toNat + 8 - x) % 8) + 512 * q) ∧
        (t.chan k.ch).dues = (s.chan k.ch).dues ∧ bitAt (t.cell k).qinPop q = true))

/-- Shutter loads, swap and configuration. SHLD and SHLDS pop a beat with the expected tag and, into
the inactive bank, write a row pair or the scale row under the weight format in force, forming its
check entries, complete two cycles later; into the active bank they raise LOAD_ACTIVE and load
nothing. SHSW swaps at the end of the cycle to a complete inactive bank that the same bundle does
not load, else raises INCOMPLETE. MXCFG takes the low 64 bits of a line, reserved bits 0, at the end
of cycle c + 1. (R114, R115, R116, R117, R136, R139, R194, R199) -/
def Obligations.ShutterLoads : Prop :=
  ∀ (k : CellId) (s : State) (l : Latched),
    let c := s.cell k
    let q := fldN l.ls 13 3
    let bank := bitAt l.ls 19
    (∀ (i : Instr) (scale : Bool), (i, scale) ∈ [(Instr.shld k, false), (Instr.shlds k, true)] →
      s.flies k slLS l → lsOp l.ls = (if scale then 5 else 4) →
      ∀ e es, c.qin.getD q [] = e :: es → expTag c.index l q (fldN l.ls 16 3) = e.tag.toNat →
      ∃ t : State, exec i s = .next t ∧ bitAt (t.cell k).qinPop q = true ∧
        (bank = c.activeB → (t.cell k).bankA = c.bankA ∧ (t.cell k).bankB = c.bankB ∧
          ∃ r ∈ t.newFaults, r.cls = 3 ∧ r.cause = 2 ∧ r.unit_ = 3) ∧
        (bank ≠ c.activeB → (Coded.check e.beat).2.bad = none →
          (t.cell k).bank bank =
            (if scale then (c.bank bank).loadScale (fldN c.cfg 4 4) s.cy ((Coded.check e.beat).1.part 0 2)
             else (c.bank bank).loadPair (fldN c.cfg 4 4) s.cy
               ((fldN l.ls 20 3 + l.sel (fldN l.ls 23 2)) % 8) (Coded.check e.beat).1) ∧
          ((t.cell k).bank bank).readyAt = s.cy + 2)) ∧
    (s.flies k slCT l → ctOp l.ct = 0x04 →
      let ok := (c.bank (!c.activeB)).complete s.cy && !loadsBank l c (!c.activeB)
      ∃ t : State, exec (.shsw k) s = .next t ∧
        (ok = true → t.dueAt k s.cy .swap ∧ t.newFaults = s.newFaults) ∧
        (ok = false → (t.chan k.ch).dues = (s.chan k.ch).dues ∧
          ∃ r ∈ t.newFaults, r.cls = 3 ∧ r.cause = 3 ∧ r.unit_ = 5)) ∧
    (s.flies k slMX l → fldN l.mx 0 4 = 1 →
      let w := Coded.check ((Smap.get Coded.zero c.pad (genLine c.index l (fldN l.mx 4 7))).part 0 1 : Coded 1)
      w.2.bad = none →
      ∃ t : State, exec (.mxcfg k) s = .next t ∧
        t.dueAt k (s.cy + 1) (.config (fld w.1.data 0 64 &&& 0x00000000FFFF1FFF#64)))

/-- MMA and CLOSE. An MMA in a configured cell, with a complete active bank of the format in force,
with buffers filled by it or before, and at a cell that is not open with a matching row, adds its
cell's products to that row (or to zero at an opening cell) and drives the row east, over the seam
at x = 79, unless it closes the strand; the close's rounded line or half-line lands at the end of
cycle c + 5. An MMA with a fault cause raises one SHUTTER record for each cause and drives its row
with all lanes invalid, unless it is OFF and no row arrived (the model's choice, log 78). CLOSE at
an accumulating close, with a matching row, adds the arriving sums to zero, or to the carry that it
reads, and stores the totals as two carry lines one or two cycles later, or rounds them to a line of
F32 three cycles later. A CLOSE of MODE 3 or at another configuration, without a row, or with a row
of another class or window, raises a record for each of these causes and stores nothing. (R110,
R112, R116, R123, R126, R128, R129, R131, R132, R137, R139, R187) -/
def Obligations.MatrixRow : Prop :=
  (∀ (k : CellId) (s : State) (l : Latched), s.flies k slMX l → fldN l.mx 0 4 = 2 →
    let c := s.cell k
    let g := strandOf c.cfg
    let e := s.envOf k
    let fetched := fun (a : Nat) => (Coded.check (Smap.get Coded.zero c.pad (genLine c.index l a))).1
    let act := if bitAt l.mx 4 then some (fetched (fldN l.mx 5 7)) else c.actBuf
    let scl := if bitAt l.mx 17 then some (fetched (fldN l.mx 18 7)) else c.scaleBuf
    let grp := (fldN l.mx 12 3 + l.sel (fldN l.mx 15 2)) % 8
    let sby := genLine c.index l (fldN l.mx 25 7) % 128
    (∀ (st : SumBeat) (a : Line), g.cls ≠ 0 →
      (g.isClose = true → 1 ≤ g.cmode ∧ g.cmode ≤ (if g.cls = 3 then 3 else 4)) →
      (g.isClose = false → g.cmode = 0) →
      c.active.complete s.cy = true → c.active.wfmt = some (BitVec.ofNat 4 g.wfmt) →
      (s.cy = 0 ∨ c.halfAt ≠ some (s.cy - 1)) →
      (g.isOpen = true → st = rowStart g c none) →
      (g.isOpen = false → e.sum = some st ∧ st.resid = 0 ∧ st.poison = 0 ∧ st.parity = c.activeB ∧ st.cls = g.cls ∧
        st.win.toNat = g.win ∧ st.soff.toInt = g.soff) →
      act = some a → bitAt a.poison grp = false →
      ∀ sc : Line, (isMx g.afmt = true → scl = some sc ∧ bitAt sc.poison (sby / 16) = false) →
      let data := fld a.data (128 * grp) 128
      let asc := if isMx g.afmt then e8m0 (fldN sc.data (8 * sby) 8) else some 0
      let row := if g.cls = 3 then halfRow g c.active data st else exactRow g c.active data asc st
      ∃ t : State, exec (.mma k) s = .next t ∧
        (g.isClose = false → k.x.val < 79 → t.newFaults = s.newFaults ∧
          (⟨s.cy + 5, k.num + 1, row, false⟩ : SumOnLane) ∈ (t.chan k.ch).sums) ∧
        (g.isClose = false → k.x.val = 79 → k.ch.val < 2 →
          (s.seamOpen k.ch = true → t.newFaults = s.newFaults ∧
            (⟨s.cy + 7, k.num - 79, row, false⟩ : SumOnLane) ∈ (t.chan (seamPeer k.ch)).sums) ∧
          (s.seamOpen k.ch = false → (t.chan (seamPeer k.ch)).sums = (s.chan (seamPeer k.ch)).sums ∧
            ∃ r : FaultRec, t.newFaults = s.newFaults ++ [r] ∧ r.cls = 8 ∧ r.cause = 1)) ∧
        (g.isClose = true → (g.cmode = 2 ∨ g.cmode = 3) →
          t.dueAt k (s.cy + 5) (.half (genLine c.index l (fldN l.mx 32 7)) (bitAt l.mx 39)
            (Coded.ofData (packBeat 16 32 fun n =>
              (closeLane g (bitAt row.invalid n) (row.sums.getD n 0)).1)))) ∧
        (g.isClose = true → (g.cmode = 1 ∨ g.cmode = 4) →
          t.dueAt k (s.cy + 5) (.line (genLine c.index l (fldN l.mx 32 7))
            (Coded.ofData (packLine 32 32 fun n =>
              (closeLane g (bitAt row.invalid n) (row.sums.getD n 0)).1))))) ∧
    (let c' := { c with actBuf := act, scaleBuf := scl }
     let b := if g.isOpen then none else e.sum.map fun b => b.receive.1
     mmaCauses e g c' b ≠ [] →
      ∃ t rs more, exec (.mma k) s = .next t ∧ t.newFaults = s.newFaults ++ rs ++ more ∧
        (k.x.val < 79 → more = []) ∧ (∀ r ∈ more, r.cls = 8) ∧
        rs.map FaultRec.cause = mmaCauses e g c' b ∧ (∀ r ∈ rs, r.cls = 3) ∧
        (t.chan k.ch).dues = (s.chan k.ch).dues ∧
        (g.isClose = false → (g.off = false ∨ b.isSome = true) → k.x.val < 79 →
          ∃ x ∈ (t.chan k.ch).sums, x.at_ = s.cy + 5 ∧ x.cell = k.num + 1 ∧ x.beat.invalid = BitVec.allOnes 32))) ∧
  (∀ (k : CellId) (s : State) (l : Latched), s.flies k slMX l → fldN l.mx 0 4 = 3 →
    let c := s.cell k
    let g := strandOf c.cfg
    let mode := fldN l.mx 4 2
    let crd := genLine c.index l (fldN l.mx 6 7)
    let cwr := genLine c.index l (fldN l.mx 13 7)
    let carry := fun (a : Nat) => Coded.check (Smap.get Coded.zero c.pad a)
    let configured := mode ≠ 3 ∧ (g.cls = 1 ∨ g.cls = 2) ∧ g.role = 2 ∧ g.cmode = 5
    let fits := fun (b : SumBeat) => b.cls = g.cls ∧ b.win.toNat = g.win ∧ b.soff.toInt = g.soff
    (¬ configured ∨ (s.envOf k).sum = none ∨ (∃ b, (s.envOf k).sum = some b ∧ ¬ fits b) →
      ∃ (t : State) (rs : List FaultRec), exec (.close k) s = .next t ∧ t.newFaults = s.newFaults ++ rs ∧
        (∀ r ∈ rs, r.cls = 3) ∧ (t.chan k.ch).dues = (s.chan k.ch).dues ∧
        ((∃ r ∈ rs, r.cause = 4) ↔ ¬ configured) ∧
        ((∃ r ∈ rs, r.cause = 6 ∧ r.unit_ = 7) ↔ (s.envOf k).sum = none) ∧
        ((∃ r ∈ rs, r.cause = 8) ↔ ∃ b, (s.envOf k).sum = some b ∧ ¬ fits b)) ∧
    (∀ b, configured → (s.envOf k).sum = some b → b.resid = 0 → b.poison = 0 → fits b →
      (mode ≠ 0 → (carry crd).2.bad = none ∧ (carry ((crd + 1) % 1024)).2.bad = none) →
      let read := fun (n : Nat) => if mode = 0 then CarryLane.num 0
        else carryOf (if n < 16 then fld (carry crd).1.data (64 * n) 64
          else fld (carry ((crd + 1) % 1024)).1.data (64 * (n - 16)) 64)
      let total := fun (n : Nat) => (read n).add (bitAt b.invalid n) (b.sums.getD n 0)
      ∃ t : State, exec (.close k) s = .next t ∧
        (mode = 2 → t.dueAt k (s.cy + 3) (.line cwr (Coded.ofData (packLine 32 32 fun n =>
          ((total n).toF32 g.lam).1)))) ∧
        (mode ≠ 2 →
          t.dueAt k (s.cy + 1 + mode) (.line cwr (Coded.ofData (packLine 64 16 fun n =>
            (total n).store.1))) ∧
          t.dueAt k (s.cy + 1 + mode) (.line ((cwr + 1) % 1024) (Coded.ofData (packLine 64 16 fun n =>
            (total (n + 16)).store.1))))))

/-- ROUTE. A ROUTE none of whose named output queues is empty gives each input queue, at the end of
the cycle, the beat of the first of north, east, south, west and lend that names it and carries one;
it sends each link inside the channel the beat of its source field, which reaches the neighbour
after the link's latency; and it marks every output queue it names as popped. (R66, R81, R84, R85,
R197, R198) -/
def Obligations.RouteMovesBeats : Prop :=
  ∀ (k : CellId) (s : State) (l : Latched), s.flies k slRT l →
    let c := s.cell k
    (∀ q : Fin 8, (∃ i ∈ [1, 2, 3, 4], rtSrc l.rt i = 8 + q.val) → c.qout.getD q.val [] ≠ []) →
    let e := s.envOf k
    let src : Nat → Option QEntry := fun v =>
      if v = 1 then e.north else if v = 2 then e.east else if v = 3 then e.south else if v = 4 then e.west
      else if v = 5 then e.lend l.rt
      else if 8 ≤ v then ((c.qout.getD (v - 8) []).head?).map fun x => ⟨(Coded.check x.beat).1, x.tag⟩
      else none
    let into : Nat → Option QEntry := fun q =>
      ((if bitAt l.rt (16 + q) then e.north else none).toList ++
       (if bitAt l.rt (24 + q) then e.east else none).toList ++
       (if bitAt l.rt (32 + q) then e.south else none).toList ++
       (if bitAt l.rt (40 + q) then e.west else none).toList ++
       (if bitAt l.rt (48 + q) then e.lend l.rt else none).toList).head?
    ∃ t : State, exec (.route k) s = .next t ∧
      (∀ (q : Fin 8) (x : QEntry), into q.val = some x → t.dueAt k s.cy (.arrive q.val x)) ∧
      (∀ i ∈ [1, 2, 3, 4], ∀ n p lat x, linkTarget k i = some (k.ch, n, p, lat) → p ≠ .drain →
        src (rtSrc l.rt i) = some x → (⟨s.cy + lat, n, p, x⟩ : LinkBeat) ∈ (t.chan k.ch).links) ∧
      (∀ q : Fin 8, (∃ i ∈ [1, 2, 3, 4], rtSrc l.rt i = 8 + q.val) →
        bitAt (t.cell k).qoutPop q.val = true)

/-- Issue of a bundle. A cell that may issue in a running channel, at a good bundle whose check
nibble fits its address, latches the bundle with its reserved slots as no-operations and the loop
indices in force, and its next address follows the open loops; each reserved slot raises one CODE
record. At a bundle that fails its checks it stops for the rest of the block with one CODE record.
(R168, R169, R170, R174, R181, R202) -/
def Obligations.BundleIssue : Prop :=
  ∀ (k : CellId) (s : State), s.hasChan k.ch = true → (s.chan k.ch).gate.st = .running →
    let q := (s.cell k).seq
    q.canIssue s.cy = true →
    let r := Coded.check ((s.cell k).bundle q.page q.addr)
    (r.2.bad = none → fldN r.1.data 252 4 = q.addr % 16 →
      ∃ t rs, exec (.bundleIssue k) s = .next t ∧
        (t.cell k).seq.cur = some ⟨clearSlots r.1.data (badSlots (k.y.val = 0) r.1.data), q.addr, q.page,
          loopIndex q.loops 0, loopIndex q.loops 1, loopIndex q.loops 2, s.cy, 0⟩ ∧
        (t.cell k).seq.addr = (nextIssue q.addr q.loops).1 ∧
        (t.cell k).seq.loops = (nextIssue q.addr q.loops).2 ∧ (t.cell k).seq.nextAt = s.cy + 1 ∧
        t.newFaults = s.newFaults ++ rs ∧ rs.length = (badSlots (k.y.val = 0) r.1.data).length ∧
        ∀ x ∈ rs, x.cls = 7 ∧ x.cause = 3 ∧ x.unit_ = 6) ∧
    (r.2.bad ≠ none ∨ fldN r.1.data 252 4 ≠ q.addr % 16 →
      ∃ (t : State) (x : FaultRec), exec (.bundleIssue k) s = .next t ∧ t.newFaults = s.newFaults ++ [x] ∧ x.cls = 7 ∧ x.unit_ = 6 ∧
        (t.cell k).seq.running = false ∧ (t.cell k).seq.stopped = true ∧ (t.cell k).seq.cur = q.cur)

/-- A counted loop runs its body N times. From the first bundle of a loop body of B bundles with n
more iterations to come, issuing as the next-address rule says reaches after (n + 1) x B bundles the
bundle after the body with the loop closed, and after j x B bundles with j at most n it stands at
the first bundle again with index advanced by j. (R180, R181) -/
def Obligations.LoopIterates : Prop :=
  ∀ (a b n x : Nat) (ps : List Loop), 1 ≤ b → a + b ≤ 512 → (∀ p ∈ ps, p.last ≠ a + b - 1) →
    let go := fun (m : Nat) => Nat.iterate (fun st : Nat × List Loop => nextIssue st.1 st.2) m
      (a, ⟨a, a + b - 1, n, x⟩ :: ps)
    (∀ j, j ≤ n → go (j * b) = (a, ⟨a, a + b - 1, n - j, x + j⟩ :: ps)) ∧
    go ((n + 1) * b) = ((a + b) % 512, ps)

/-- LOOP, IDLE, its end, and BEND. LOOP opens a loop over the B bundles after its own, with index 0
and N - 1 iterations left; IDLE with count n holds the sequencer until cycle c + n + 1, and the hold
ends in that cycle; BEND ends the cell's issue for the block. Each changes nothing else of the state
but its slot's mark. (R180, R182, R184, R199) -/
def Obligations.SequencerControl : Prop :=
  ∀ (k : CellId) (s : State) (l : Latched),
    let m := (s.cell k).markDone slCT
    (s.flies k slCT l →
      (ctOp l.ct = 0x01 → exec (.loop k) s = .next (s.setCell k { m with seq := { m.seq with
        addr := (l.addr + 1) % 512
        loops := ⟨l.addr + 1, l.addr + 1 + fldN l.ct 18 9, fldN l.ct 6 12, 0⟩ :: m.seq.loops } })) ∧
      (ctOp l.ct = 0x02 → exec (.idle k) s = .next (s.setCell k { m with seq := { m.seq with
        idle := true, nextAt := s.cy + (fldN l.ct 6 12 + 1) + 1 } })) ∧
      (ctOp l.ct = 0x03 → exec (.bend k) s = .next (s.setCell k { m with seq := { m.seq with
        running := false } }))) ∧
    (s.hasChan k.ch = true → (s.cell k).seq.idle = true → (s.cell k).seq.nextAt ≤ s.cy →
      exec (.idleEnd k) s = .next (s.setCell k { s.cell k with seq := { (s.cell k).seq with idle := false } })) ∧
    (s.hasChan k.ch = true → s.cy < (s.cell k).seq.nextAt → exec (.idleEnd k) s = .next s)

/-- Barriers and flag trees. BARR by a member with a clear latch sets it; with the last latch the
group completes, and its release falls L cycles later. A release that is due acts first, so an
arrival in the release cycle counts toward the next completion and is no REARRIVE. BARR by a cell
that is no member sets no latch and raises SYNC with cause NONMEMBER, naming group and cell. A
release that is due ends every member's wait and clears every latch. FSET and FCLR by a member set
or clear its contribution; FRDO and FRDA by a member write a mask, at the end of the cycle, with all
ones or all zeros as the OR or the AND delivered in this block cycle says; in the first L block
cycles these are 0 and 1. A cell that is no member changes no mask and no contribution and raises
NONMEMBER. (R91, R92, R93, R183, R94, R200) -/
def Obligations.BarriersAndFlagTrees : Prop :=
  (∀ (k : CellId) (s : State) (l : Latched),
    let g := fldN l.ct 6 12
    let b := Smap.get Barrier.none_ (((s.chan k.ch).releaseGroup g s.cy).barriers) g
    (s.flies k slCT l → ctOp l.ct = 0x08 →
      (b.members.contains k.num = true → b.latched.contains k.num = false →
        ∃ t : State, exec (.barr k) s = .next t ∧ t.newFaults = s.newFaults ∧
          let b' := Smap.get Barrier.none_ (t.chan k.ch).barriers g
          (∀ n, n ∈ b'.latched ↔ n = k.num ∨ n ∈ b.latched) ∧ b'.members = b.members ∧
          ((∀ n ∈ b.members, n = k.num ∨ n ∈ b.latched) →
            b'.releaseAt = some (s.cy + treeLatency b.members.length)) ∧
          ((∃ n ∈ b.members, n ≠ k.num ∧ n ∉ b.latched) → b'.releaseAt = none)) ∧
      (b.members.contains k.num = true → b.latched.contains k.num = true →
        ∃ (t : State) (r : FaultRec), exec (.barr k) s = .next t ∧ t.newFaults = s.newFaults ++ [r] ∧ r.cls = 5 ∧ r.cause = 1) ∧
      (b.members.contains k.num = false →
        ∃ (t : State) (r : FaultRec), exec (.barr k) s = .next t ∧ t.newFaults = s.newFaults ++ [r] ∧ r.cls = 5 ∧ r.cause = 8 ∧
          r.d0 = w64 g ∧ r.d1 = w64 k.num ∧
          Smap.get Barrier.none_ (t.chan k.ch).barriers g = b)) ∧
    (s.flies k slCT l → ctOp l.ct = 0x09 → b.members.contains k.num = true →
      ∃ t : State, exec (.bwait k) s = .next t ∧ (t.cell k).seq.waitGroup = some g ∧ t.newFaults = s.newFaults) ∧
    (∀ (c : Chn) (g : Nat), s.hasChan c = true →
      let b := Smap.get Barrier.none_ (s.chan c).barriers g
      (∀ r, b.releaseAt = some r → r ≤ s.cy →
        ∃ t : State, exec (.barrierRelease c g) s = .next t ∧
          (Smap.get Barrier.none_ (t.chan c).barriers g).latched = [] ∧
          (∀ e ∈ (t.chan c).cells, e.2.seq.waitGroup ≠ some g) ∧ onlyChan s t c) ∧
      ((b.releaseAt = none ∨ ∃ r, b.releaseAt = some r ∧ s.cy < r) →
        ∃ t : State, exec (.barrierRelease c g) s = .next t ∧ t.chan c = s.chan c))) ∧
  (∀ (k : CellId) (s : State) (l : Latched), s.flies k slCT l →
    let n := fldN l.ct 6 10
    let x := s.treeOf k n
    let off := (s.envOf k).off
    (x.members.contains k.num = true →
      (ctOp l.ct = 0x0A → ∃ t : State, exec (.fset k) s = .next t ∧ t.newFaults = s.newFaults ∧
        ∀ m, m ∈ (t.treeOf k n).set_ ↔ m = k.num ∨ m ∈ x.set_) ∧
      (ctOp l.ct = 0x0B → ∃ t : State, exec (.fclr k) s = .next t ∧ t.newFaults = s.newFaults ∧
        ∀ m, m ∈ (t.treeOf k n).set_ ↔ m ≠ k.num ∧ m ∈ x.set_) ∧
      (ctOp l.ct = 0x0C → ∃ t : State, exec (.frdo k) s = .next t ∧
        t.dueAt k s.cy (.mask (fldN l.ct 16 3) (if (x.deliver off).1 then BitVec.allOnes 32 else 0)) ∧
        (off < treeLatency x.members.length → t.dueAt k s.cy (.mask (fldN l.ct 16 3) 0))) ∧
      (ctOp l.ct = 0x0D → ∃ t : State, exec (.frda k) s = .next t ∧
        t.dueAt k s.cy (.mask (fldN l.ct 16 3) (if (x.deliver off).2 then BitVec.allOnes 32 else 0)) ∧
        (off < treeLatency x.members.length → t.dueAt k s.cy (.mask (fldN l.ct 16 3) (BitVec.allOnes 32))))) ∧
    (x.members.contains k.num = false →
      ∀ i op, (i, op) ∈ [(Instr.fset k, 0x0A), (Instr.fclr k, 0x0B), (Instr.frdo k, 0x0C),
          (Instr.frda k, 0x0D)] → ctOp l.ct = op →
        ∃ (t : State) (r : FaultRec), exec i s = .next t ∧ t.newFaults = s.newFaults ++ [r] ∧ r.cls = 5 ∧ r.cause = 8 ∧
          r.d0 = w64 n ∧ r.d1 = w64 k.num ∧ (t.treeOf k n).set_ = x.set_ ∧
          (t.chan k.ch).dues = (s.chan k.ch).dues))

/-- TCHK, SGNL and TAKE. TCHK finds nothing when the head of the queue carries the expected tag,
else raises TAG with cause CHECK, or QUEUE on an empty queue, and pops nothing; SGNL and TAKE send a
signal or a take of 1 to 512 tokens, which arrives after the latency between channel and counter.
(R199, R201, R279, R282) -/
def Obligations.TagCheckAndSignals : Prop :=
  ∀ (k : CellId) (s : State) (l : Latched), s.flies k slCT l →
    let c := s.cell k
    let q := fldN l.ct 6 3
    let x := expTag c.index l q (fldN l.ct 9 3)
    let n := fldN l.ct 6 17
    (ctOp l.ct = 0x05 →
      ∃ t : State, exec (.tchk k) s = .next t ∧ (t.cell k).qin = c.qin ∧ (t.cell k).qinPop = c.qinPop ∧
        (∀ e es, c.qin.getD q [] = e :: es → e.tag.toNat = x → t.newFaults = s.newFaults) ∧
        (∀ e es, c.qin.getD q [] = e :: es → e.tag.toNat ≠ x →
          ∃ r, t.newFaults = s.newFaults ++ [r] ∧ r.cls = 1 ∧ r.cause = 2 ∧ r.unit_ = 5) ∧
        (c.qin.getD q [] = [] → ∃ r, t.newFaults = s.newFaults ++ [r] ∧ r.cls = 2 ∧ r.cause = 1 ∧ r.unit_ = 5)) ∧
    (∀ i op kind, (i, op, kind) ∈ [(Instr.sgnl k, 0x10, SyncKind.signal), (Instr.take k, 0x11, SyncKind.take)] →
      ctOp l.ct = op →
      ∃ (t : State) (o : SyncOp), exec i s = .next t ∧ t.sync.ops = s.sync.ops ++ [o] ∧ t.sync.counts = s.sync.counts ∧
        o.counter = n ∧ o.kind = kind ∧ o.n = fldN l.ct 23 9 + 1 ∧ o.src = .cell k.ch.val k.num ∧
        o.at_ = s.cy + (if n / 32768 = k.ch.val then 10 else if n / 32768 = (midPeer k.ch).val then 14 else 18))

/-- Signals and takes at a counter. A lone signal or take that reaches a present counter adds or
subtracts its tokens and enters the ledgers; one that would take the count above 2^31 - 1 or below 0
leaves the count and every ledger counter, and raises SYNC with OVERFLOW or UNDERFLOW, the counter
in DETAIL0 and the count before in DETAIL1, from a cell with unit CT and the issue cycle, from a
control core with unit CCORE and CYCLE_OFF all ones. (R279, R280, R283, R296) -/
def Obligations.CounterArithmetic : Prop :=
  ∀ (n : Nat) (s : State) (o : SyncOp),
    s.sync.ops = [o] → o.counter = n → o.at_ ≤ s.cy → s.counterAbsent n = false → s.sync.waits = [] →
    Smap.wf 0 s.sync.counts = true →
    (o.kind = .signal ∨ o.kind = .take) → o.n ≠ 0 →
    (∀ c m, o.src = .cell c m → c < 4 ∧ m < 2560) → (∀ e, o.src = .endpoint e → e < 4) →
    let v := (s.count n).toInt
    let v' := if o.kind = .signal then v + o.n else v - o.n
    ((o.kind = .signal ∧ v' < 2 ^ 31 ∨ o.kind = .take ∧ 0 ≤ v') →
      ∃ t : State, exec (.counterOpArrive n) s = .next t ∧ (t.count n).toInt = v' ∧ t.sync.ops = [] ∧
        t.newFaults = s.newFaults ∧ (∀ m, m ≠ n → t.count m = s.count m)) ∧
    ((o.kind = .signal ∧ 2 ^ 31 ≤ v' ∨ o.kind = .take ∧ v' < 0) →
      ∃ (t : State) (r : FaultRec), exec (.counterOpArrive n) s = .next t ∧ t.count n = s.count n ∧ t.newFaults = s.newFaults ++ [r] ∧
        r.cls = 5 ∧ r.cause = (if o.kind = .signal then 5 else 4) ∧ r.d0 = w64 n ∧
        r.d1 = (s.count n).signExtend 64 ∧ (∀ c, (t.chan c).ledger = (s.chan c).ledger) ∧
        (∀ c m, o.src = .cell c m → r.unit_ = 5 ∧ r.cycleOff = o.cycleOff ∧ r.chan = c) ∧
        (∀ e, o.src = .endpoint e → r.unit_ = 9 ∧ r.cycleOff = 0xFFFFFFFF ∧ r.chan = e))

/-- From the gate check to the end of a block. When the check of a leader's gate passes and no stop
has come, every channel of the block's set gets the same release cycle, 16 cycles ahead for one
channel and 24 for a joint block. In that cycle the block starts: its channel is RUNNING, its
attempt count and sequence number are set, GATE returns the sequence number, and every cell of its
bands starts at the entry's address and page with no open loop. In block cycle L the gate begins;
before it BLOCK_END does nothing. (R211, R213, R214, R219, R220, R222, R258) -/
def Obligations.BlockRuns : Prop :=
  ∀ (c : Chn) (s : State) (b : BEntry), s.hasChan c = true → s.newFaults = [] →
    ((s.chan c).gate.target = some b → beLeader b = c.val → s.wrongPeer c b = none →
      s.noMark → (s.chan c).gate.resetDue = false →
      s.mayPass c (BitVec.allOnes 7) = true → (∀ d ∈ s.setOf b, (s.chan d).gate.lateStop = 0) →
      ∃ t : State, exec (.gateCheckPass c) s = .next t ∧
        (∀ d ∈ s.setOf b, t.chan d = { s.chan d with gate := { (s.chan d).gate with
          phase := .delay (s.cy + if (s.setOf b).length = 1 then 16 else 24) } }) ∧
        (∀ d, d ∉ s.setOf b → t.chan d = s.chan d)) ∧
    (∀ r, (s.chan c).gate.phase = .delay r → (s.chan c).gate.target = some b → s.setOf b = [c] →
      (s.cy < r → exec (.blockRelease c) s = .next s) ∧
      (r ≤ s.cy → ∃ t : State, exec (.blockRelease c) s = .next t ∧ (t.chan c).gate.st = .running ∧
        (t.chan c).gate.releaseCy = s.cy ∧ (t.chan c).gate.block = some b ∧
        (t.chan c).gate.lastSeq = (s.chan c).gate.seq ∧
        (t.chan c).gate.attempt = (s.chan c).gate.nextAttempt ∧
        (∀ n d, (s.chan c).core.wait = .gate n d → (s.chan c).gate.restarted = false →
          (t.chan c).core.wait = .none ∧ (d ≠ 0 → (t.chan c).core.regs.getD d.toNat 0 = (s.chan c).gate.seq)) ∧
        (∀ band < 8, ∀ i < 320, beBand b c band = true →
          ((t.chan c).cell (320 * band + i)).seq = { Seq.reset with
            running := true, page := bePage b, addr := beStart b, nextAt := s.cy }) ∧
        (∀ d, d ≠ c → t.chan d = s.chan d))) ∧
    ((s.chan c).gate.block = some b → (s.chan c).gate.st = .running →
      (s.cy < (s.chan c).gate.releaseCy + beLen b → exec (.blockEnd c) s = .next s) ∧
      ((s.chan c).gate.releaseCy + beLen b ≤ s.cy →
        exec (.blockEnd c) s = .next (s.setChan c { s.chan c with gate := { (s.chan c).gate with
          st := .gate, phase := .closing } })))

/-- Steps 2 to 11 of a gate. When a block of one channel has ended and nothing of it is under way,
its gate gathers the flag words. With every ledger comparison equal, no latch set, no mark reached,
no save point or window due and no fault, the block sequence number goes up by one, tiles are void,
masks all ones, sequencers at rest and flag-tree contributions 0, and the channel stops for a halt
that has come, else waits in step 11. With a fault that no replay answers the channel is HELD, keeps
its sequence number, and raises CH_HELD. (R146, R148, R164, R218, R225, R299) -/
def Obligations.GateCloses : Prop :=
  ∀ (c : Chn) (s : State) (b : BEntry), s.hasChan c = true → s.newFaults = [] →
    (s.chan c).gate.block = some b → s.setOf b = [c] → s.closed c = true →
    (∀ e ∈ s.growth c b ++ s.identities c, e.2.1 = e.2.2) →
    (∀ g ∈ (s.chan c).barriers, g.2.latched = []) →
    s.noMark → s.recov.saveDue = false → (s.chan c).gate.slackPassed = true →
    (s.chan c).gate.resetDue = false → (s.chan c).regs2.fwDue = false →
    (s.chan c).regs.stopAfter ≠ (s.chan c).gate.seq → (s.chan c).gate.stopNow = false →
    ∃ t : State, exec (.gateClose c) s = .next t ∧
      (t.chan c).regs.gateOr = (s.chan c).cells.foldl (fun acc e => acc ||| e.2.flags) 0 ∧
      ((s.chan c).gate.faulted = false →
        (t.chan c).gate.seq = (s.chan c).gate.seq + 1 ∧
        (∀ e ∈ (t.chan c).cells, e.2.tiles = [] ∧ e.2.seq = Seq.reset ∧
          e.2.masks = Vector.replicate 8 (BitVec.allOnes 32)) ∧
        (∀ e ∈ (t.chan c).trees, e.2.set_ = []) ∧
        ((s.chan c).gate.halted = true → (t.chan c).gate.st = .stopped ∧ (t.chan c).gate.stopCause = 1) ∧
        ((s.chan c).gate.halted = false → (t.chan c).gate.st = .gate ∧
          (t.chan c).gate.phase = (if (s.chan c).core.wait.isGate then .opening else .waitGate))) ∧
      ((s.chan c).gate.faulted = true → s.mayReplay [c] = false →
        (t.chan c).gate.st = .held ∧ (t.chan c).gate.seq = (s.chan c).gate.seq ∧
        0x010 + 0x10 * c.val ∈ t.ev.raised)

/-- Joint readiness, long waits, and the clear request. A channel of a joint block that is not its
leader, whose own conditions hold and whose leader does not wait for another joint block, becomes
ready. An opening phase longer than its limit raises GATE_WAIT_LONG once. A 1 written to CLEAR_NEXT
is kept until the gate. (R164, R221, R228) -/
def Obligations.GateSignals : Prop :=
  ∀ (c : Chn) (s : State), s.hasChan c = true →
    (∀ b l, (s.chan c).gate.target = some b → beLeader b = (l : Chn).val → l ≠ c →
      s.noMark → s.mayPass c 0b0110111 = true → (s.chan c).gate.ready = false →
      (∀ e, (s.chan l).gate.target = some e → bitAt (beChset e) c.val = true → beJoint e = beJoint b) →
      exec (.jointReady c) s = .next (s.setChan c { s.chan c with gate := { (s.chan c).gate with ready := true } })) ∧
    ((s.chan c).gate.st = .gate → (s.chan c).regs.gwLim ≠ 0 → (s.chan c).gate.longSaid = false →
      (s.chan c).regs.gwLim.toNat < (s.chan c).gate.openTicks →
      ∃ t : State, exec (.gateWaitLong c) s = .next t ∧ (t.chan c).gate.longSaid = true ∧
        t.ev.raised = s.ev.raised ++ [0x010 + 0x10 * c.val + 4] ∧
        { (t.chan c).gate with longSaid := false } = (s.chan c).gate) ∧
    (((s.chan c).regs.gwLim = 0 ∨ (s.chan c).gate.longSaid = true ∨
        (s.chan c).gate.openTicks ≤ (s.chan c).regs.gwLim.toNat) → exec (.gateWaitLong c) s = .next s) ∧
    exec (.clearNext c) s = .next (s.setChan c { s.chan c with
      regs := { (s.chan c).regs with clearNext := true } })

/-- When a save point falls due, is written and is complete. A save point is due once the cadence,
if it is not 0, has passed. A bound channel that waits before a save block writes its state,
sequence number and tick into the slot that is not its newest, first invalidating it. When every
bound channel has written, the slots are complete and newest, the number goes up, and CHn_SAVEAT's
count is the tick; a save that failed raises SAVE_FAILED and leaves the slots and the newest slot as
they were. (R361, R362, R363, R365, R366) -/
def Obligations.SavePoints : Prop :=
  ∀ (s : State),
    (s.flt.cadence ≠ 0 → s.flt.cadence.toNat ≤ s.recov.saveTicks →
      exec .saveDue s = .next { s with recov := { s.recov with saveDue := true } }) ∧
    ((s.flt.cadence = 0 ∨ s.recov.saveTicks < s.flt.cadence.toNat) → exec .saveDue s = .next s) ∧
    (∀ c : Chn, s.hasChan c = true → s.noMark → s.saveWanted c = true → s.messagesOut = false →
      (∀ d ∈ s.bound, s.saveWanted d = true ∧ (s.chan d).core.bcasts = []) → (∀ b a, s.stackWait b a = false) →
      (s.chan c).gate.saved = false → (s.keeper = some c → s.checkSaveSet.copySaveSet.isSome = true) →
      ∃ (t : State) (v : Slot), exec (.savePointWrite c) s = .next t ∧
        t.slotOf c (s.chan c).nextSlot = some v ∧ v.complete = false ∧ v.number = s.recov.nextNumber ∧
        v.tick = s.tide.count ∧ v.seq = (s.chan c).gate.seq ∧ v.regs = (s.chan c).core.regs ∧
        v.dmem = (s.chan c).core.dmem ∧ v.ledger = (s.chan c).ledger ∧ v.inbox = (s.port c.val).inbox ∧
        c.val ∈ t.recov.written ∧ t.recov.saveActive = true ∧ (t.chan c).gate.saved = true ∧
        t.slotOf c (!(s.chan c).nextSlot) = s.slotOf c (!(s.chan c).nextSlot) ∧
        (if (s.chan c).nextSlot then (t.chan c).regs2.bValid = false ∧ (t.chan c).regs2.aValid = (s.chan c).regs2.aValid
         else (t.chan c).regs2.aValid = false ∧ (t.chan c).regs2.bValid = (s.chan c).regs2.bValid)) ∧
    (s.recov.saveActive = true → (∀ c ∈ s.bound, c.val ∈ s.recov.written) →
      (∀ c, (s.chan c).gate.resetDue = false) →
      (s.recov.saveFailed = false → s.recov.saveStop = false →
        ∃ t : State, exec .saveComplete s = .next t ∧ t.recov.nextNumber = s.recov.nextNumber + 1 ∧
          t.flt.saveAt = s.tide.count ∧ t.recov.saveDue = false ∧ t.recov.saveActive = false ∧
          ∀ c ∈ s.bound, ∀ v, s.slotOf c (s.chan c).nextSlot = some v →
            t.slotOf c (s.chan c).nextSlot = some { v with complete := true } ∧
            (t.chan c).regs2.newestB = (s.chan c).nextSlot ∧ (t.chan c).regs2.saveSeq = v.seq) ∧
      (s.recov.saveFailed = true →
        ∃ t : State, exec .saveComplete s = .next t ∧ t.recov.slots = s.recov.slots ∧
          t.recov.nextNumber = s.recov.nextNumber ∧ 0x005 ∈ t.ev.raised ∧
          ∀ c, (t.chan c).regs2.newestB = (s.chan c).regs2.newestB ∧
            (t.chan c).regs2.aValid = (s.chan c).regs2.aValid ∧ (t.chan c).regs2.bValid = (s.chan c).regs2.bValid))

/-- What firmware decides for a held channel. It decides nothing where the channel is not held, has
no recorded fault, or a recovery, quiesce or management switch is under way. Faults of which none
was seen in the last rollback begin a rollback when AUTO_ROLLBACK is set, and every bound channel
that runs or is at its gate is to stop; with it clear firmware only raises RECOVERY_WAIT. A fault
seen again is reproduced, whatever AUTO_ROLLBACK says: it raises FAULT_REPRODUCED and begins no
rollback, but for a poisoned codeword that has not fallen back yet and finds an older save point,
which is restored when AUTO_ROLLBACK is set. (R354, R359, R360, R367) -/
def Obligations.RecoveryDecision : Prop :=
  ∀ (c : Chn) (s : State), s.hasChan c = true → s.newFaults = [] →
    (((s.chan c).gate.st ≠ .held ∨ s.blockFaults c = [] ∨ s.flt.recovering = true ∨ s.svc.mgmtSwitch = true ∨
        s.cxl.quiescing = true ∨ s.cxl.quiesced = true) → exec (.recoveryDecision c) s = .next s) ∧
    ((s.chan c).gate.st = .held → s.blockFaults c ≠ [] → s.flt.recovering = false → s.svc.mgmtSwitch = false →
      s.cxl.quiescing = false → s.cxl.quiesced = false →
      let again := fun (f : Nat × Nat × Nat × W64) => f ∈ s.blockFaults c ∧ f ∈ s.recov.lastFaults
      let poisoned := ∃ f, again f ∧ f.1 = 7 ∧ f.2.1 = 4
      let waits := ∃ t : State, exec (.recoveryDecision c) s = .next t ∧ t.flt = s.flt ∧ t.recov = s.recov ∧
        t.ev.raised = s.ev.raised ++ [0x002]
      let reproduces := ∃ t : State, exec (.recoveryDecision c) s = .next t ∧ t.flt = s.flt ∧
        t.recov.rolling = s.recov.rolling ∧ 0x003 ∈ t.ev.raised ∧
        ∀ d ∈ s.bound, (t.chan d).regs2.reproduced = true
      let rolls := fun (older : Bool) (quiet : Prop) =>
        ∃ (t : State) (r : Option Nat), exec (.recoveryDecision c) s = .next t ∧ t.flt.recovering = true ∧
          t.recov.rolling = .rollback older r ∧ t.recov.lastFaults = s.blockFaults c ∧ (quiet → r = none) ∧
          ∀ d ∈ s.bound, (s.chan d).gate.st = .running ∨ (s.chan d).gate.st = .gate →
            (t.chan d).gate.stopNow = true
      ((¬ ∃ f, again f) → s.flt.autoRollback = false → waits) ∧
      ((¬ ∃ f, again f) → s.flt.autoRollback = true → rolls false (s.flt.autoRetire = false)) ∧
      ((∃ f, again f) → ¬ poisoned → reproduces) ∧
      (poisoned → s.recov.fellBack ≠ [] ∨ s.olderNumber = none → reproduces) ∧
      (∀ n, poisoned → s.recov.fellBack = [] → s.olderNumber = some n →
        (s.flt.autoRollback = false → waits) ∧
        (s.flt.autoRollback = true →
          rolls (decide (s.keeper.map (fun k => (s.chan k).regs2.newestB) = some s.recov.lastSlotB)) True)))

/-- A rollback restores the save point. When a rollback is under way, no column is due and every
bound channel is at rest, with a save point that every bound channel holds complete, each channel's
core registers, data memory and block sequence number are those of its slot again and its rollback
count goes up, ROLLBACK is raised and recovery ends; until every bound channel is at rest nothing
happens. (R367, R368, R369) -/
def Obligations.RollbackRestores : Prop :=
  ∀ (s : State) (older : Bool), s.newFaults = [] → s.noMark → s.recov.rolling = .rollback older none →
    s.svc.mgmtSwitch = false →
    ((∃ c ∈ s.bound, (s.chan c).canRoll = false) → exec .rollback s = .next s) ∧
    ((∀ c ∈ s.bound, (s.chan c).canRoll = true) → s.recov.subDue = [] →
      (∀ c, (s.chan c).gate.resetDue = false) → ∀ n, s.canRestore older = some n →
      ∃ t : State, exec .rollback s = .next t ∧ t.flt.recovering = false ∧ t.recov.rolling = .none ∧
        t.recov.lastNumber = n ∧ t.job.rollback = true ∧ 0x004 ∈ t.ev.raised ∧
        ∀ c ∈ s.bound, ∀ v, s.restoreSlot older c = some v →
          (t.chan c).core.regs = v.regs ∧ (t.chan c).core.dmem = v.dmem ∧ (t.chan c).gate.seq = v.seq ∧
          (t.chan c).regs2.rollbacks = satInc (s.chan c).regs2.rollbacks)

/-- A column gives way to the nearest healthy spare. The work of a started substitution task takes
its column out of service in place of the nearest healthy spare, counts it, writes the map to flash,
raises COLUMN_SUBSTITUTED and gives the task its outcome; where no such task runs the command
changes nothing. With two different out-of-service columns in ascending order among p0 to p81,
logical columns 0 to 79 lie in ascending order on in-service columns; substituting an in-service
column for a spare gives again such a map, in which that column is marked failed and out of service,
and the saturating count goes up. (R99, R102, R103, R104, R98) -/
def Obligations.ColumnSubstitution : Prop :=
  (∀ (c : Chn) (p : Nat) (s : State), s.hasChan c = true →
    (s.runningTask (.substitute c p) = none → exec (.columnSubstitution c p) s = .next s) ∧
    (∀ u sp, s.runningTask (.substitute c p) = some u → u.outcome = none →
      (s.chan c).spareFor p = some sp →
      ∃ t : State, exec (.columnSubstitution c p) s = .next t ∧
        (t.chan c).regs = (s.chan c).regs.substitute p sp ∧
        t.sec.spareMaps.get c = ((s.chan c).regs.substitute p sp).colmap ∧
        0x010 + 0x10 * c.val + 2 ∈ t.ev.raised ∧ (c.val, p) ∉ t.recov.subDue ∧
        (∀ d, d ≠ c → (t.chan d).regs = (s.chan d).regs) ∧
        ∃ x ∈ t.svc.tasks, x.task = .substitute c p ∧ x.outcome.isSome = true)) ∧
  (∀ (ch : Chan), ch.regs.out0.toNat < ch.regs.out1.toNat → ch.regs.out1.toNat ≤ 81 →
    (∀ x < 80, ch.pcol x ≤ 81 ∧ ch.pcol x ≠ ch.regs.out0.toNat ∧ ch.pcol x ≠ ch.regs.out1.toNat) ∧
    (∀ x y, x < y → y < 80 → ch.pcol x < ch.pcol y) ∧
    (∀ p sp, p ≤ 81 → p ≠ ch.regs.out0.toNat → p ≠ ch.regs.out1.toNat → ch.spareFor p = some sp →
      let r := ch.regs.substitute p sp
      r.out0.toNat < r.out1.toNat ∧ r.out1.toNat ≤ 81 ∧
      (p = r.out0.toNat ∧ r.out0Failed = true ∨ p = r.out1.toNat ∧ r.out1Failed = true) ∧
      (sp = ch.regs.out0.toNat ∨ sp = ch.regs.out1.toNat) ∧
      sp ≠ r.out0.toNat ∧ sp ≠ r.out1.toNat ∧ r.substCount = satInc ch.regs.substCount))

/-- Windows of counts, and the fault log's consumer. When the correction window has passed, column
and stack counts of the window restart at 0 and time starts anew; before that nothing changes.
Rollbacks older than the retirement window stop counting for their channel. A write of FLT_CONS
between its value and FLT_PROD is taken, any other ignored. (R357, R358, R370, R371) -/
def Obligations.RecoveryWindows : Prop :=
  ∀ (s : State),
    (s.recov.ceTicks < s.flt.ceWin.toNat → exec .ceWindowExpiry s = .next s) ∧
    (s.flt.ceWin.toNat ≤ s.recov.ceTicks →
      ∃ t : State, exec .ceWindowExpiry s = .next t ∧ t.recov.ceTicks = 0 ∧
        (∀ c ∈ s.channels, (t.chan c).regs2 = { (s.chan c).regs2 with ceCol := [] }) ∧
        t.mem.msd = s.mem.msd.map fun (d : MsdRegs) => { d with ceWindow := 0 }) ∧
    (∀ c : Chn, s.hasChan c = true →
      ∃ t : State, exec (.retirementWindowExpiry c) s = .next t ∧
        { t with recov := { t.recov with rollTicks := s.recov.rollTicks } } = s ∧
        ∀ e, e ∈ t.recov.rollTicks ↔ e ∈ s.recov.rollTicks ∧ ¬ (e.1 = c.val ∧ s.flt.retWin.toNat ≤ e.2)) ∧
    (∀ w : W64,
      (s.flt.cons.toNat ≤ w.toNat → w.toNat ≤ s.flt.prod.toNat →
        exec (.fltConsWrite w) s = .next { s with flt := { s.flt with cons := w } }) ∧
      ((w.toNat < s.flt.cons.toNat ∨ s.flt.prod.toNat < w.toNat) → exec (.fltConsWrite w) s = .next s))

/-- The fault log never holds more than 4,096 records. From every state whose fault log holds at
most 4,096 unconsumed records, every step, whatever the command or with none, leads to such a state:
a full log loses records and overwrites none. (R236, R357, R358) -/
def Obligations.FaultLogNeverOverfills : Prop :=
  ∀ s t : State, (s.flt.prod - s.flt.cons).toNat ≤ 4096 → step s = .next t →
    (t.flt.prod - t.flt.cons).toNat ≤ 4096

/-- The map of sync counts stays in canonical form. From every state whose map of sync counts is
canonical (numbers strictly rising, none with the count 0 an unlisted counter reads as), every step
leads to such a state, so that a counter has one count and equal counts are equal data. (R278, R279,
R286, R343, R360, R367, R374) -/
def Obligations.CountsStayCanonical : Prop :=
  ∀ s t : State, Smap.wf 0 s.sync.counts = true → step s = .next t → Smap.wf 0 t.sync.counts = true

/-- Arithmetic and transfers of the control core. ALU in each of its functions, IADDK, BANDK, BORK,
BXORK, SHIFTK, CLTSK, CLTUK, LDK and SHINS write their result into s(d), of which s0 stays 0, and
the core goes on with the next instruction in the next cycle; division by 0 gives 0, shifts take
their count modulo 64. A branch whose condition on s(d) holds, a CALL and a JREG go to their target:
inside instruction memory at a multiple of 4 the program counter takes it; the address just past it
returns from the entry point; beyond it the core issues no more and CODE is raised. CALL and JREG
leave pc + 4 in s(d). A branch not taken goes on. At a target that is no multiple of 4, which the
spec does not state, the program counter is a free value (log 21). (R205, R206, R207, R542) -/
def Obligations.CoreArithmetic : Prop :=
  (∀ (c : Chn) (s : State) (w : W32),
    let k := (s.chan c).core
    let a := k.reg (fldN w 16 5)
    let b := k.reg (fldN w 11 5)
    let k16 := BitVec.ofInt 64 (fldI w 0 16)
    let u16 := BitVec.ofNat 64 (fldN w 0 16)
    (∀ e ∈ ([(0x000, a + b), (0x001, a - b), (0x002, a &&& b), (0x003, a ||| b), (0x004, a ^^^ b),
        (0x005, a <<< (b.toNat % 64)), (0x006, a >>> (b.toNat % 64)),
        (0x007, BitVec.ofInt 64 (a.toInt / 2 ^ (b.toNat % 64))),
        (0x008, if a = b then 1 else 0), (0x009, if a.slt b then 1 else 0), (0x00A, if a.ult b then 1 else 0),
        (0x00B, BitVec.ofNat 64 (a.toNat * b.toNat)),
        (0x00C, BitVec.ofInt 64 (a.toInt * b.toInt / 2 ^ 64)),
        (0x00D, BitVec.ofNat 64 (a.toNat * b.toNat / 2 ^ 64)),
        (0x00E, if b = 0 then 0 else a.sdiv b), (0x00F, if b = 0 then 0 else a / b),
        (0x010, if b = 0 then 0 else a.srem b), (0x011, if b = 0 then 0 else a % b),
        (0x012, if a.slt b then a else b), (0x013, if a.slt b then b else a)] : List (Nat × W64)),
      s.issues c .alu w → fldN w 0 11 = e.1 →
      ∃ t : State, exec (.alu c) s = .next t ∧ (t.chan c).core = (k.setReg (fldN w 21 5) e.2).goesOn s.cy) ∧
    (∀ e ∈ ([(Instr.iaddk c, CoreKind.iaddk, a + k16), (Instr.bandk c, CoreKind.bandk, a &&& u16),
        (Instr.bork c, CoreKind.bork, a ||| u16), (Instr.bxork c, CoreKind.bxork, a ^^^ u16),
        (Instr.shiftk c, CoreKind.shiftk, if fldN w 6 2 = 0 then a <<< fldN w 0 6
          else if fldN w 6 2 = 1 then a >>> fldN w 0 6 else BitVec.ofInt 64 (a.toInt / 2 ^ fldN w 0 6)),
        (Instr.cltsk c, CoreKind.cltsk, if a.slt k16 then 1 else 0),
        (Instr.cltuk c, CoreKind.cltuk, if a.ult k16 then 1 else 0),
        (Instr.ldk c, CoreKind.ldk, BitVec.ofInt 64 (fldI w 0 21)),
        (Instr.shins c, CoreKind.shins, (a <<< 16) ||| u16)] : List (Instr × CoreKind × W64)),
      s.issues c e.2.1 w →
      ∃ t : State, exec e.1 s = .next t ∧ (t.chan c).core = (k.setReg (fldN w 21 5) e.2.2).goesOn s.cy)) ∧
  (∀ (c : Chn) (s : State) (w : W32),
    let k := (s.chan c).core
    let v := k.reg (fldN w 21 5)
    let taken := (fldN w 18 3 = 0 ∧ v = 0) ∨ (fldN w 18 3 = 1 ∧ v ≠ 0) ∨ (fldN w 18 3 = 2 ∧ v.toInt < 0) ∨
      (fldN w 18 3 = 3 ∧ 0 ≤ v.toInt) ∨ (fldN w 18 3 = 4 ∧ 0 < v.toInt) ∨ (fldN w 18 3 = 5 ∧ v.toInt ≤ 0)
    (s.issues c .branch w → ¬ taken →
      ∃ t : State, exec (.branch c) s = .next t ∧ (t.chan c).core = k.goesOn s.cy) ∧
    (∀ (i : Instr) (kind : CoreKind) (tgt : W64) (link : Bool),
      (i, kind, tgt, link) ∈ ([(.branch c, .branch, w64 k.pc + BitVec.ofInt 64 (4 * fldI w 0 18), false),
        (.call c, .call, w64 k.pc + BitVec.ofInt 64 (4 * fldI w 0 21), true),
        (.jreg c, .jreg, k.reg (fldN w 16 5) + BitVec.ofInt 64 (4 * fldI w 0 16), true)] :
          List (Instr × CoreKind × W64 × Bool)) →
      s.issues c kind w → (kind = .branch → taken) →
      let k' : Core := { (if link then k.setReg (fldN w 21 5) (w64 (k.pc + 4)) else k) with readyAt := s.cy + 1 }
      ∃ t : State, exec i s = .next t ∧
        (tgt.toNat < 0x10000 → tgt.toNat % 4 = 0 → (t.chan c).core = { k' with pc := tgt.toNat } ∧
          t.newFaults = s.newFaults) ∧
        (tgt.toNat < 0x10000 → tgt.toNat % 4 ≠ 0 → { (t.chan c).core with pc := k.pc } = { k' with pc := k.pc }) ∧
        (tgt.toNat = 0x10000 → (t.chan c).core = { k' with pc := 0x10000, returned := true } ∧
          (t.port c.val).isOpen = false) ∧
        (0x10000 < tgt.toNat → (t.chan c).core = { k' with dead := true } ∧
          ∃ r, t.newFaults = s.newFaults ++ [r] ∧ r.cls = 7 ∧ r.cause = 2 ∧ r.unit_ = 9)))

/-- LOAD and STORE of the control core. In a data memory without bad codewords, LOAD reads 1, 2, 4
or 8 bytes, little-endian, from s(a) plus OFS accesses, wrapping within 256 KiB, zero- or
sign-extended into s(d); STORE changes exactly those bytes. A LOAD that meets a bad codeword raises
CODE and writes no register. (R205, R206, R207, R353) -/
def Obligations.CoreMemory : Prop :=
  ∀ (c : Chn) (s : State) (w : W32),
    let k := (s.chan c).core
    let n : Nat := 2 ^ (fldN w 13 3 % 4)
    let a := (k.reg (fldN w 16 5) + BitVec.ofInt 64 (fldI w 0 13 * (n : Int))).toNat % 2 ^ 18
    let v := ofBytesLE ((List.range n).map fun j => k.dmem.byte ((a + j) % 2 ^ 18))
    (s.issues c .load w → k.dmem.allGood →
      ∃ t : State, exec (.load c) s = .next t ∧ (t.chan c).core = (k.setReg (fldN w 21 5)
        (if 4 ≤ fldN w 13 3 then BitVec.ofInt 64 (BitVec.ofNat (8 * n) v).toInt else BitVec.ofNat 64 v)).goesOn s.cy) ∧
    (s.issues c .load w → (k.dread a n).2.bad ≠ none →
      ∃ (t : State) (r : FaultRec), exec (.load c) s = .next t ∧ (t.chan c).core = k.goesOn s.cy ∧
        t.newFaults = s.newFaults ++ [r] ∧ r.cls = 7 ∧ r.unit_ = 9 ∧ r.chan = c.val ∧
        r.bundle = k.pc % 65536) ∧
    (s.issues c .store w → k.dmem.allGood →
      ∃ t : State, exec (.store c) s = .next t ∧
        { (t.chan c).core with dmem := k.dmem } = k.goesOn s.cy ∧ (t.chan c).core.dmem.allGood ∧
        (t.chan c).core.dmem.bytes = (List.range n).foldl (fun m j => Smap.put 0 m ((a + j) % 2 ^ 18)
          (BitVec.ofNat 8 ((k.reg (fldN w 21 5)).toNat / 256 ^ j))) k.dmem.bytes ∧
        (Smap.wf 0 k.dmem.bytes = true → ∀ x < 2 ^ 18, (t.chan c).core.dmem.byte x =
          if (x + 2 ^ 18 - a) % 2 ^ 18 < n then
            BitVec.ofNat 8 ((k.reg (fldN w 21 5)).toNat / 256 ^ ((x + 2 ^ 18 - a) % 2 ^ 18))
          else k.dmem.byte x))

/-- Counter instructions of the control core. SSIG, STAKE and SSET send their operation and go on;
SWAIT and SRD send it and stall. A lone SRD that arrives answers the count one latency later; a lone
SWAIT of at most the count is served at once, takes its tokens and frees the core, and one of more
stays pending; on an absent counter neither waits, SRD answers 0 and ABSENT_COUNTER is raised.
(R279, R281, R282, R285, R286) -/
def Obligations.CoreSync : Prop :=
  ∀ (c : Chn) (s : State) (w : W32),
    let k := (s.chan c).core
    let n := (k.reg (fldN w 16 5)).toNat % 2 ^ 17
    let m := (k.reg (fldN w 11 5)).toNat % 2 ^ 31
    (∀ (i : Instr) (kind : CoreKind) (op : SyncKind) (tok : Nat),
      (i, kind, op, tok) ∈ ([(.ssig c, .ssig, .signal, m), (.stake c, .stake, .take, m),
        (.sset c, .sset, .set ((k.reg (fldN w 11 5)).setWidth 32), 0),
        (.swait c, .swait, .wait, m), (.srd c, .srd, .read (BitVec.ofNat 5 (fldN w 21 5)), 0)] :
          List (Instr × CoreKind × SyncKind × Nat)) →
      s.issues c kind w →
      ∃ (t : State) (o : SyncOp), exec i s = .next t ∧ t.sync.ops = s.sync.ops ++ [o] ∧
        o.at_ = s.cy + syncLatency c n ∧ o.counter = n ∧ o.kind = op ∧ o.n = tok ∧ o.src = .endpoint c.val ∧
        (t.chan c).core.pc = k.pc + 4 ∧ (t.chan c).core.regs = k.regs ∧
        (i = .swait c → (t.chan c).core.wait = .counter (syncLatency c n)) ∧
        (i ≠ .swait c → (t.chan c).core.wait = .none) ∧
        (i = .srd c → (t.chan c).core.readyAt = s.cy + 2 * syncLatency c n + 1)) ∧
    (∀ (j : Nat) (o : SyncOp), s.hasChan c = true → s.sync.ops = [o] → o.counter = j → o.at_ ≤ s.cy →
      o.src = .endpoint c.val → s.sync.waits = [] → Smap.wf 0 s.sync.counts = true →
      ∃ t : State, exec (.counterOpArrive j) s = .next t ∧ t.sync.ops = [] ∧
        (∀ d, o.kind = .read d → (t.chan c).core.readBack =
          some (d, if s.counterAbsent j then 0 else (s.count j).signExtend 64, s.cy + syncLatency c j) ∧
          t.count j = s.count j) ∧
        (o.kind = .wait → s.counterAbsent j = true → (t.chan c).core.wait = .none ∧ t.count j = s.count j) ∧
        (o.kind = .wait → s.counterAbsent j = false → (o.n : Int) ≤ (s.count j).toInt →
          (t.count j).toInt = (s.count j).toInt - o.n ∧ (t.chan c).core.wait = .none ∧
          (t.chan c).core.readyAt = s.cy + syncLatency c j ∧ t.sync.waits = []) ∧
        (o.kind = .wait → s.counterAbsent j = false → (s.count j).toInt < o.n →
          t.count j = s.count j ∧ (t.chan c).core = k ∧ t.sync.waits.length = 1) ∧
        (s.counterAbsent j = true →
          ∃ r, t.newFaults = s.newFaults ++ [r] ∧ r.cls = 5 ∧ r.cause = 7 ∧ r.d0 = w64 j ∧ r.d1 = BitVec.allOnes 64))

/-- Sending, carrying and receiving messages. MSEND to an existing endpoint puts the 32-byte block
with destination and tag of s(b) into the outbound port, or, while that holds four, stalls until
MSEND_COMPLETE finds room. MESSAGE_DELIVER moves the oldest message of a port to its destination's
input, and into the inbox when that has room; while the input is taken it waits, and a closed port
absorbs it. A send that waits for the limit raises SEND_STALL once and goes on waiting. MRECV takes
the oldest message of the inbox that passes the filter of s(b), its payload into data memory and
source and tag into s(d); with none it stalls until MRECV_COMPLETE finds one. MPOLL counts the
messages that pass. A SWAIT or MRECV that has waited CHn_WAITLIM ticks raises CCORE_WAIT_LONG once.
(R289, R290, R291, R294, R295, R288, R292) -/
def Obligations.CoreMessages : Prop :=
  (∀ (c : Chn) (s : State) (w : W32),
    let k := (s.chan c).core
    let b := k.reg (fldN w 11 5)
    let out := (s.port c.val).out
    (s.issues c .msend w → s.hasPort (fldN b 0 8) = true ∨ 4 ≤ out.length →
      ∃ (t : State) (m : Msg), exec (.msend c) s = .next t ∧ m.src = BitVec.ofNat 8 c.val ∧ m.dst = fld b 0 8 ∧
        m.tag = fld b 8 16 ∧ m.payload = joinCws (k.dmem.readCws (msgBlock (k.reg (fldN w 16 5))) 2) ∧
        (t.chan c).core.pc = k.pc + 4 ∧
        (out.length < 4 → (t.port c.val).out = out ++ [m] ∧ (t.chan c).core.wait = .none) ∧
        (4 ≤ out.length → (t.port c.val).out = out ∧ (t.chan c).core.wait = .send m)) ∧
    (s.issues c .msend w → s.hasPort (fldN b 0 8) = false → out.length < 4 →
      ∃ t : State, exec (.msend c) s = .next t ∧ t.port c.val = s.port c.val ∧ (t.chan c).core = k.goesOn s.cy ∧
        (t.chan c).ledger.getD (ldMsgNodest - 1) 0 = (s.chan c).ledger.getD (ldMsgNodest - 1) 0 + 1) ∧
    (∀ m : Msg, s.hasChan c = true → k.wait = .send m →
      (4 ≤ out.length → exec (.msendComplete c) s = .next s) ∧
      (out.length < 4 → ∃ t : State, exec (.msendComplete c) s = .next t ∧
        (s.hasPort m.dst.toNat = true → (t.port c.val).out = out ++ [m]) ∧
        (s.hasPort m.dst.toNat = false → t.port c.val = s.port c.val) ∧
        (t.chan c).core.wait = .none ∧ (t.chan c).core.readyAt = s.cy + 1) ∧
      (k.stallRaised = false → (s.chan c).regs2.stallLimit.toNat ≤ k.sendTicks →
        ∃ (t : State) (r : FaultRec), exec (.sendStall (Fin.ofNat 8 c.val)) s = .next t ∧ t.newFaults = s.newFaults ++ [r] ∧
          r.cls = 9 ∧ r.unit_ = 9 ∧ r.bundle = (k.pc - 4) % 65536 ∧
          (t.chan c).core = { k with stallRaised := true }) ∧
      (k.stallRaised = true → exec (.sendStall (Fin.ofNat 8 c.val)) s = .next s)) ∧
    (∀ (n : Fin 4) (m : Msg), (s.sync.mgmt[n]).sending = some m → (s.sync.mgmt[n]).stallRaised = false →
      Config.mgmtStallLimit ≤ (s.sync.mgmt[n]).sendTicks →
      ∃ (t : State) (r : FaultRec), exec (.sendStall (Fin.ofNat 8 (4 + n.val))) s = .next t ∧
        t.newFaults = s.newFaults ++ [r] ∧ r.cls = 9 ∧ r.unit_ = 0x11 ∧ r.chan = 0xFF ∧
        (t.sync.mgmt[n]).sending = some m ∧ (t.sync.mgmt[n]).stallRaised = true) ∧
    (∀ (src dst : Byte) (i j : Nat) (m : Msg) (rest : List Msg), portOf src.toNat = some i →
      portOf dst.toNat = some j → (s.port i).out = m :: rest → m.dst = dst →
      (4 ≤ i → (s.sync.mgmt.getD (i - 4) .reset).sending = none) →
      ((s.port j).isOpen = true → (s.port j).input = none →
        ∃ t : State, exec (.messageDeliver src dst) s = .next t ∧ (t.port i).out = rest ∧
          ((s.port j).inbox.length < 16 → (t.port j).inbox = (s.port j).inbox ++ [m] ∧ (t.port j).input = none) ∧
          (16 ≤ (s.port j).inbox.length → (t.port j).inbox = (s.port j).inbox ∧ (t.port j).input = some m)) ∧
      ((s.port j).isOpen = true → (s.port j).input ≠ none → exec (.messageDeliver src dst) s = .next s) ∧
      ((s.port j).isOpen = false →
        ∃ t : State, exec (.messageDeliver src dst) s = .next t ∧ (t.port i).out = rest ∧
          (t.port j).inbox = (s.port j).inbox))) ∧
  (∀ (c : Chn) (s : State) (w : W32),
    let k := (s.chan c).core
    let f := k.reg (fldN w 11 5)
    let pass := fun (m : Msg) => bitAt f 63 || m.tag = fld f 8 16
    let inbox := (s.port c.val).inbox
    (s.issues c .mrecv w →
      (inbox.any pass = false →
        ∃ t : State, exec (.mrecv c) s = .next t ∧ (t.port c.val) = (s.port c.val) ∧
          (t.chan c).core.pc = k.pc + 4 ∧ (t.chan c).core.regs = k.regs ∧
          (t.chan c).core.wait = .recv (msgBlock (k.reg (fldN w 16 5))) f (BitVec.ofNat 5 (fldN w 21 5))) ∧
      (∀ pre m post, inbox = pre ++ m :: post → pre.any pass = false → pass m = true →
        (s.port c.val).input = none →
        ∃ t : State, exec (.mrecv c) s = .next t ∧ (t.port c.val).inbox = pre ++ post ∧
          (t.chan c).core.wait = .none ∧ (t.chan c).core.pc = k.pc + 4 ∧
          (fldN w 21 5 ≠ 0 → (t.chan c).core.reg (fldN w 21 5) = w64 (m.src.toNat + 256 * m.tag.toNat)) ∧
          (∀ r, r ≠ fldN w 21 5 → (t.chan c).core.reg r = k.reg r) ∧
          (t.chan c).core.dmem = k.dmem.writeCws (msgBlock (k.reg (fldN w 16 5))) (splitCws m.payload))) ∧
    (∀ a g d, s.hasChan c = true → k.wait = .recv a g d →
      (inbox.any (passes g) = false → exec (.mrecvComplete c) s = .next s) ∧
      (∀ pre m post, inbox = pre ++ m :: post → pre.any (passes g) = false → passes g m = true →
        (s.port c.val).input = none →
        ∃ t : State, exec (.mrecvComplete c) s = .next t ∧ (t.port c.val).inbox = pre ++ post ∧
          (t.chan c).core.wait = .none ∧ (t.chan c).core.dmem = k.dmem.writeCws a (splitCws m.payload))) ∧
    (s.issues c .mpoll w →
      ∃ t : State, exec (.mpoll c) s = .next t ∧
        (t.chan c).core = (k.setReg (fldN w 21 5) (w64 (inbox.filter pass).length)).goesOn s.cy) ∧
    (s.hasChan c = true → ((∃ l, k.wait = .counter l) ∨ ∃ a g d, k.wait = .recv a g d) →
      k.waitLong = false → (s.chan c).regs2.waitLim ≠ 0 → (s.chan c).regs2.waitLim.toNat ≤ k.waitTicks →
      ∃ t : State, exec (.ccoreWaitLong c) s = .next t ∧ t.ev.raised = s.ev.raised ++ [0x010 + 0x10 * c.val + 5] ∧
        (t.chan c).core = { k with waitLong := true } ∧ (t.chan c).regs2.waitLong = true) ∧
    (s.hasChan c = true → (k.waitLong = true ∨ (s.chan c).regs2.waitLim = 0 ∨
        k.waitTicks < (s.chan c).regs2.waitLim.toNat) → exec (.ccoreWaitLong c) s = .next s))

/-- GATE and BCAST. GATE that names a good entry of the channel stalls the core, names the block to
open next, and puts a gate that waits for it into its check; GATE that names no entry, or one whose
CRC fails, raises BAD_BLOCK, gives all ones, and holds a channel whose gate waits. BCAST keeps a
value for the cells of its bands, all bands when none is named. (R150, R221, R222, R224, R240) -/
def Obligations.CoreGateAndBroadcast : Prop :=
  ∀ (c : Chn) (s : State) (w : W32),
    let k := (s.chan c).core
    let i := k.reg (fldN w 16 5)
    (s.issues c .gate w → (∀ o ∈ s.sync.ops, o.src ≠ .endpoint c.val) → s.newFaults = [] →
      s.intervalFaults c = [] →
      (s.badEntry c i = none →
        ∃ t : State, exec (.gate c) s = .next t ∧
          (t.chan c).core = { k with
            pc := k.pc + 4, readyAt := s.cy + 1, wait := .gate i.toNat (BitVec.ofNat 5 (fldN w 21 5)) } ∧
          (t.chan c).gate.next = s.part.blocks[i.toNat]? ∧ (t.chan c).gate.nextIdx = i.toNat ∧
          ((s.chan c).gate.phase = .waitGate → (t.chan c).gate.phase = .opening) ∧
          ((s.chan c).gate.phase ≠ .waitGate → (t.chan c).gate.phase = (s.chan c).gate.phase)) ∧
      ((s.part.blocks[i.toNat]? = none ∨ ∃ b, s.part.blocks[i.toNat]? = some b ∧ crcGood 64 b.toNat = false) →
        ∃ t : State, exec (.gate c) s = .next t ∧
          (t.chan c).core = (k.setReg (fldN w 21 5) (BitVec.allOnes 64)).goesOn s.cy ∧
          (t.chan c).gate.faulted = true ∧ 0x000 ∈ t.ev.raised ∧
          ((s.chan c).gate.st = .gate → (s.chan c).gate.phase = .waitGate → (t.chan c).gate.st = .held))) ∧
    (s.issues c .bcast w →
      ∃ t : State, exec (.bcast c) s = .next t ∧
        (t.chan c).core = { k with
          pc := k.pc + 4, readyAt := s.cy + 1, landAt := s.cy + 40
          bcasts := k.bcasts ++ [(fldN w 8 3, if fldN w 0 8 = 0 then 0xFF else fld w 0 8, fld (k.reg (fldN w 16 5)) 0 32)] })

/-- SYS instructions and instructions that cannot issue. A reserved instruction acts as nothing and
raises CODE with cause OPCODE; a core whose next codeword is bad, or whose program counter lies past
instruction memory, raises CODE, keeps its registers and program counter, and issues no more. CSRR
reads the channel number, the gate mark or EVIN, which it clears, and CSRW writes the gate mark; a
reserved number raises CODE with cause OPCODE, CSRR then writing 0. RDTIDE, RDFWAIT and RDCYC read
their counts. RDRAND gives 64 bits of its healthy instance, and from an unhealthy one raises CODE
POISONED and writes nothing. FLGCLR asks for a clear at the next gate. EVSIG adds its software event
to those raised with the next cycle. (R174, R205, R353, R164, R207, R421, R487, R488, R543) -/
def Obligations.CoreSystem : Prop :=
  (∀ (c : Chn) (s : State), s.hasChan c = true → s.coreReady c = true →
    let k := (s.chan c).core
    (k.pc < 0x10000 → k.fetch.2.bad = none → coreKind k.word = none →
      ∃ (t : State) (r : FaultRec), exec (.ccoreInstructionFault c) s = .next t ∧
        (t.chan c).core = k.goesOn s.cy ∧ t.newFaults = s.newFaults ++ [r] ∧ r.cls = 7 ∧ r.cause = 3 ∧
        r.unit_ = 9 ∧ r.bundle = k.pc % 65536) ∧
    (k.pc < 0x10000 → k.fetch.2.bad = none → coreKind k.word ≠ none →
      exec (.ccoreInstructionFault c) s = .next s) ∧
    (0x10000 ≤ k.pc ∨ k.fetch.2.bad ≠ none →
      ∃ (t : State) (r : FaultRec), exec (.ccoreInstructionFault c) s = .next t ∧
        (t.chan c).core = { k with dead := true } ∧ t.newFaults = s.newFaults ++ [r] ∧ r.cls = 7 ∧
        r.unit_ = 9 ∧ t.coreReady c = false)) ∧
  (∀ (c : Chn) (s : State) (w : W32),
    let k := (s.chan c).core
    let d := fldN w 21 5
    let n := fldN w 0 12
    (s.issues c .csrr w → ∃ t : State, exec (.csrr c) s = .next t ∧
      (n = 0 → (t.chan c).core = (k.setReg d (w64 c.val)).goesOn s.cy) ∧
      (n = 1 → (t.chan c).core = (k.setReg d (s.chan c).regs.gateMark).goesOn s.cy) ∧
      (n = 2 → (t.chan c).core = { (k.setReg d (k.evin.setWidth 64)).goesOn s.cy with evin := 0 }) ∧
      (2 < n → (t.chan c).core = (k.setReg d 0).goesOn s.cy ∧
        ∃ r, t.newFaults = s.newFaults ++ [r] ∧ r.cls = 7 ∧ r.cause = 3 ∧ r.unit_ = 9)) ∧
    (s.issues c .csrw w → ∃ t : State, exec (.csrw c) s = .next t ∧ (t.chan c).core = k.goesOn s.cy ∧
      (n = 1 → (t.chan c).regs = { (s.chan c).regs with gateMark := k.reg (fldN w 16 5) } ∧
        t.newFaults = s.newFaults) ∧
      (n ≠ 1 → (t.chan c).regs = (s.chan c).regs ∧
        ∃ r, t.newFaults = s.newFaults ++ [r] ∧ r.cls = 7 ∧ r.cause = 3 ∧ r.unit_ = 9)) ∧
    (s.issues c .rdtide w → ∃ t : State, exec (.rdtide c) s = .next t ∧
      (t.chan c).core = (k.setReg d s.tide.count).goesOn s.cy) ∧
    (s.issues c .rdfwait w → ∃ t : State, exec (.rdfwait c) s = .next t ∧
      (t.chan c).core = (k.setReg d (s.chan c).regs.gwStream).goesOn s.cy) ∧
    (s.issues c .rdcyc w → ∃ t : State, exec (.rdcyc c) s = .next t ∧
      (t.chan c).core = (k.setReg d (s.chan c).regs.cycles).goesOn s.cy) ∧
    (s.issues c .rdrand w → ∃ t : State, exec (.rdrand c) s = .next t ∧
      ((s.sec.drbgs.getD c.val ⟨0, false⟩).unhealthy = false →
        (s.sec.drbgs.getD c.val ⟨0, false⟩).used < 65536 →
        (t.chan c).core = (k.setReg d (fld (Config.entropy s.draw) 0 64)).goesOn s.cy ∧
          (t.sec.drbgs.getD c.val ⟨0, false⟩).used = (s.sec.drbgs.getD c.val ⟨0, false⟩).used + 1) ∧
      ((s.sec.drbgs.getD c.val ⟨0, false⟩).unhealthy = true → (t.chan c).core = k.goesOn s.cy ∧
        ∃ r, t.newFaults = s.newFaults ++ [r] ∧ r.cls = 7 ∧ r.cause = 4 ∧ r.unit_ = 9)) ∧
    (s.issues c .flgclr w → ∃ t : State, exec (.flgclr c) s = .next t ∧ (t.chan c).core = k.goesOn s.cy ∧
      (t.chan c).regs = { (s.chan c).regs with clearNext := true }) ∧
    (s.issues c .evsig w → ∃ t : State, exec (.evsig c) s = .next t ∧ (t.chan c).core = k.goesOn s.cy ∧
      t.ev.signals = s.ev.signals ++ [0x100 + 0x40 * c.val + fldN w 0 6] ∧ t.ev.raised = s.ev.raised))

/-- What a control-core instruction leaves unchanged. When an arithmetic, memory, transfer or
reading instruction of the control core answers a next state, no other channel's core, cells, ledger
or registers change, nor the tide unit, memory, sync counters, commands or links; in its channel the
cells, the gate, the streams and the digest chain stay, and instruction memory; only a STORE changes
data memory, and only s(d) changes among the registers, none for a STORE or BRANCH. (R205, R207) -/
def Obligations.CoreFrame : Prop :=
  ∀ (c : Chn) (s t : State) (i : Instr),
    i ∈ [.alu c, .iaddk c, .bandk c, .bork c, .bxork c, .shiftk c, .cltsk c, .cltuk c, .ldk c, .shins c,
         .load c, .store c, .branch c, .call c, .jreg c, .csrr c, .rdtide c, .rdfwait c, .rdcyc c, .sdepth c,
         .mpoll c] →
    exec i s = .next t →
    { t with chans := s.chans, newFaults := s.newFaults, ev := s.ev, ports := s.ports, draw := s.draw } = s ∧
    (∀ d, d ≠ c → t.chan d = s.chan d) ∧
    { t.chan c with core := (s.chan c).core, regs2 := (s.chan c).regs2, ledger := (s.chan c).ledger } = s.chan c ∧
    (t.chan c).core.imem = (s.chan c).core.imem ∧
    (i ≠ .store c → (t.chan c).core.dmem = (s.chan c).core.dmem) ∧
    (∀ r, r ≠ fldN (s.chan c).core.word 21 5 → (t.chan c).core.reg r = (s.chan c).core.reg r) ∧
    (i = .store c ∨ i = .branch c → (t.chan c).core.regs = (s.chan c).core.regs)

/-- SOPEN, SCANCEL and SDEPTH. SOPEN and SCANCEL stall the core; SOPEN_COMPLETE, once the queue has
a pending place, appends a stream with a good descriptor to its queue and frees the core, and for a
bad descriptor raises DESCRIPTOR and opens nothing. SCANCEL empties its queue, drops what is on its
way and returns the credits of what was held. SDEPTH reads the number of beats. (R322, R324, R326,
R330, R332, R342) -/
def Obligations.StreamsOpenAndCancel : Prop :=
  ∀ (c : Chn) (s : State) (w : W32),
    let k := (s.chan c).core
    let a := k.reg (fldN w 16 5)
    (s.issues c .sopen w → ∃ t : State, exec (.sopen c) s = .next t ∧
      (t.chan c).core = { k with
        pc := k.pc + 4, readyAt := s.cy + 1, wait := .sopen (fldN a 0 16) (k.reg (fldN w 11 5)) }) ∧
    (∀ i need, s.hasChan c = true → k.wait = .sopen i need → (s.part.streamDescs.get c)[i]? = none →
      ∃ (t : State) (r : FaultRec), exec (.sopenComplete c) s = .next t ∧
        t.newFaults = s.newFaults ++ [r] ∧ r.cls = 10 ∧ r.cause = 4 ∧ r.unit_ = 10 ∧ r.chan = c.val ∧
        (t.chan c).core = { k with wait := .none, readyAt := s.cy + 1 } ∧
        (t.chan c).sq = (s.chan c).sq ∧ (t.chan c).dq = (s.chan c).dq) ∧
    (∀ i need d, s.hasChan c = true → k.wait = .sopen i need → (s.part.streamDescs.get c)[i]? = some d →
      (s.queueFull c d = true → exec (.sopenComplete c) s = .next s) ∧
      (s.queueFull c d = false → s.checkDesc d = none →
        ∃ t : State, exec (.sopenComplete c) s = .next t ∧ t.newFaults = s.newFaults ∧
          (t.chan c).core = { k with wait := .none, readyAt := s.cy + 1 } ∧
          (sdDrain d = false → (t.chan c).dq = (s.chan c).dq ∧ t.sqOf c (sdQueue d) =
            ({ s.sqOf c (sdQueue d) with
              pend := (s.sqOf c (sdQueue d)).pend ++ [⟨i, need, 0, 0, false, none⟩] } : StreamQ).settle (s.lenOf c)) ∧
          (sdDrain d = true → sdQueue d < 32 → (t.chan c).sq = (s.chan c).sq ∧ t.dqOf c (sdQueue d) =
            ({ s.dqOf c (sdQueue d) with
              pend := (s.dqOf c (sdQueue d)).pend ++ [⟨i, need, 0, 0, false, none⟩] } : DrainQ).settle (s.lenOf c))) ∧
      (∀ x, s.queueFull c d = false → s.checkDesc d = some x →
        ∃ (t : State) (r : FaultRec), exec (.sopenComplete c) s = .next t ∧
          t.newFaults = s.newFaults ++ [r] ∧ r.cls = 10 ∧ r.cause = x.1 ∧ r.unit_ = 10 ∧ r.chan = c.val ∧
          (t.chan c).core = { k with wait := .none, readyAt := s.cy + 1 } ∧
          (t.chan c).sq = (s.chan c).sq ∧ (t.chan c).dq = (s.chan c).dq)) ∧
    (s.issues c .scancel w →
      let q := fldN a 0 6
      ∃ t : State, exec (.scancel c) s = .next t ∧
        (t.chan c).core = { k with pc := k.pc + 4, readyAt := s.cy + 1, wait := .scancel q } ∧
        (t.sqOf c q).beats = [] ∧ (t.sqOf c q).arrived = [] ∧ (t.sqOf c q).cur = none ∧
        (t.sqOf c q).pend = [] ∧ (t.sqOf c q).halted = false ∧ (∀ r ∈ (t.sqOf c q).reads, r.dropped = true) ∧
        (t.sqOf c q).reads.length = (s.sqOf c q).reads.length ∧
        (t.chan c).ledger.getD 12 0 = (s.chan c).ledger.getD 12 0 +
          w64 ((s.sqOf c q).beats.length + (s.sqOf c q).arrived.length)) ∧
    (∀ q, s.hasChan c = true → k.wait = .scancel q → (s.sqOf c q).beats = [] →
      ∃ t : State, exec (.scancelComplete c) s = .next t ∧
        t = s.setChan c { s.chan c with core := { k with wait := .none, readyAt := s.cy + 1 } }) ∧
    (s.issues c .sdepth w → ∃ t : State, exec (.sdepth c) s = .next t ∧
      (t.chan c).core = (k.setReg (fldN w 21 5) (w64 (if bitAt a 6 then (s.dqOf c (fldN a 0 6)).beats.length
        else (s.sqOf c (fldN a 0 6)).beats.length))).goesOn s.cy)

/-- Requests and returns of a stream queue. The queue whose turn it is requests its stream's next
beat and spends a credit, or, on a page it may not use, halts with cause and address and raises
STREAM_PAGE; a queue whose turn it is not requests nothing. A beat that returns and is next in order
enters the queue with its position modulo 8 as tag; one ahead of its turn waits; one of a cancelled
stream returns its credit and is dropped. (R306, R325, R326, R330, R332, R333) -/
def Obligations.BeatsAreFetched : Prop :=
  ∀ (c : Chn) (q : Nat) (s : State), s.hasChan c = true → q < 64 →
    let x := s.sqOf c q
    (s.fetchTurn c q = false → exec (.fetchRequest c q) s = .next s) ∧
    (s.fetchTurn c q = true → ∀ st, x.cur = some st →
      let t0 := s.tensor (sdTensor (s.sdesc c st.desc))
      let ix := s.indexBytes (queueDie c false q) (q % 16) t0 (sdStart (s.sdesc c st.desc) + st.next)
      let s1 := s.indexReads (queueDie c false q) (tdShared (s.tensor (tdIndex t0))) (hdmOf ix)
      let go := s1.placeBeat (queueDie c false q) (q % 16) t0 false (sdStart (s.sdesc c st.desc) + st.next)
      (s.indexWaits ix = true → exec (.fetchRequest c q) s = .next s) ∧
      (∀ s' locs, s.indexWaits ix = false → go = (s', locs, none) →
        ∃ t : State, exec (.fetchRequest c q) s = .next t ∧ t.sqOf c q = { x with
          cur := some { st with next := st.next + 1 }
          reads := x.reads ++ [⟨st.next, fmtNibbles (tdFmt t0), locs.map (·.1), false, tdShared t0⟩] } ∧
        (t.chan c).ledger.getD 11 0 = (s.chan c).ledger.getD 11 0 + 1) ∧
      (∀ s' locs v, s.indexWaits ix = false → go = (s', locs, some (.range v)) →
        ∃ (t : State) (r : FaultRec), exec (.fetchRequest c q) s = .next t ∧ r ∈ t.newFaults ∧ r.cls = 10 ∧
          r.cause = 7 ∧ r.chan = c.val ∧ r.d1 = BitVec.ofInt 64 v ∧
          t.sqOf c q = { x with cur := some { st with dead := true } } ∧ (t.chan c).ledger = (s.chan c).ledger) ∧
      (∀ s' locs cause va, s.indexWaits ix = false → go = (s', locs, some (.page cause va)) →
        ∃ t : State, exec (.fetchRequest c q) s = .next t ∧
          t.sqOf c q = { x with halted := true, cause := BitVec.ofNat 3 cause, haltVA := va } ∧
          0x010 + 0x10 * c.val + 3 ∈ t.ev.raised ∧ (t.chan c).ledger = (s.chan c).ledger)) ∧
    (∀ pos r, x.reads.find? (fun r => r.pos = pos) = some r → r.hdmBytes.any (s.stackWait true) = false →
      (s.cxl.up = true ∨ r.locs.any Loc.host = false) →
      ∃ t : State, exec (.readReturn c q pos) s = .next t ∧ t.mem.hdm = s.mem.hdm ∧
        (r.dropped = true → (t.sqOf c q).beats = x.beats ∧ (t.sqOf c q).reads = dropRead pos x.reads ∧
          (t.chan c).ledger.getD 12 0 = (s.chan c).ledger.getD 12 0 + 1) ∧
        (∀ st, r.dropped = false → x.cur = some st → x.arrived = [] → st.delivered = pos →
          (t.sqOf c q).beats = x.beats ++ [⟨⟨s.gatherBeat r, BitVec.ofNat 3 pos⟩, st.desc, st.need, pos, st.upTo⟩] ∧
          (t.chan c).ledger = (s.chan c).ledger) ∧
        (∀ st, r.dropped = false → x.cur = some st → x.arrived = [] → st.delivered ≠ pos →
          (t.sqOf c q).beats = x.beats ∧ (t.sqOf c q).arrived = [(pos, s.gatherBeat r)]))

/-- Drains and the edge plan. A drain queue writes its oldest beat to its elements' addresses, in
HDM that the host does not hold and in host memory while the link is up, and drops it, or halts with
cause and address and raises STREAM_PAGE; one whose stream waits for earlier drains writes nothing.
A run of the edge plan acts in its own cycles only, once in each: an injection sends the head of its
stream queue into its port, and from an empty queue raises QUEUE; a drain takes what its column sent
into the drain queue, and raises QUEUE when that is full. (R69, R89, R327, R328, R329, R333) -/
def Obligations.DrainsAndEdgePlan : Prop :=
  ∀ (c : Chn) (s : State), s.hasChan c = true →
    (∀ q st b rest, q < 32 → (s.dqOf c q).cur = some st → (s.dqOf c q).beats = b :: rest →
      (s.dqOf c q).halted = false → st.dead = false → s.hasHeld 7 = false →
      let t0 := s.tensor (sdTensor (s.sdesc c st.desc))
      let ix := s.indexBytes (queueDie c true q) (q % 16) t0 (sdStart (s.sdesc c st.desc) + st.delivered)
      let s1 := s.indexReads (queueDie c true q) (tdShared (s.tensor (tdIndex t0))) (hdmOf ix)
      let go := s1.placeBeat (queueDie c true q) (q % 16) t0 true (sdStart (s.sdesc c st.desc) + st.delivered)
      (sdAfter (s.sdesc c st.desc) = true → s.drainsBelow c st.need.toNat = false →
        exec (.drainWrite c q) s = .next s) ∧
      (s.drainsPassed c st = true → s.indexWaits ix = false →
      (∀ s' locs, go = (s', locs, none) → (s.cxl.up = true ∨ ∀ l ∈ locs, l.1.host = false) →
        (∀ n, (s.msd n).retraining = false) → (∀ n, (s.msd n).snoop = []) →
        (tdDigest t0 = false ∨ s.job.active = false) →
        let put := beatWrites (Coded.check b.beat).1 (fmtNibbles (tdFmt t0)) locs
        ∃ t : State, exec (.drainWrite c q) s = .next t ∧ (t.dqOf c q).beats = rest ∧
          t.mem.hdm = s.mem.hdm.writeMarked (put false) ∧ t.host = (s.hostWrites (put true)).host) ∧
      (∀ s' locs cause va, go = (s', locs, some (.page cause va)) →
        ∃ t : State, exec (.drainWrite c q) s = .next t ∧ t.mem.hdm = s.mem.hdm ∧
          t.dqOf c q = { s.dqOf c q with halted := true, cause := BitVec.ofNat 3 cause, haltVA := va } ∧
          0x010 + 0x10 * c.val + 3 ∈ t.ev.raised))) ∧
    (∀ n r, (s.edgePlan c)[n]? = some r →
      let off := s.cy - (s.chan c).gate.releaseCy
      let k := (off - fldN r 0 32) / fldN r 64 16
      let port := fldN r 80 8
      let q := fldN r 88 6
      let now := (s.chan c).gate.st = .running ∧ fldN r 0 32 ≤ off ∧ (off - fldN r 0 32) % fldN r 64 16 = 0 ∧
        k < fldN r 32 32 ∧ n ∉ (s.chan c).edgeDone
      (¬ now → exec (.edgePlanRun c n) s = .next s) ∧
      (now → bitAt r 94 = false →
        (∀ b rest, (s.sqOf c q).beats = b :: rest →
          ∃ t : State, exec (.edgePlanRun c n) s = .next t ∧ (t.sqOf c q).beats = rest ∧
            (let e : QEntry := ⟨(Coded.check b.entry.beat).1, b.entry.tag⟩
             (port < 80 → (t.chan c).links = (s.chan c).links ++ [⟨s.cy + 1, port, .north, e⟩]) ∧
             (80 ≤ port → (t.chan c).lends = (s.chan c).lends ++ [⟨s.cy + 4, 0, .lend (port = 81), e⟩])) ∧
            n ∈ (t.chan c).edgeDone) ∧
        ((s.sqOf c q).beats = [] →
          ∃ (t : State) (x : FaultRec), exec (.edgePlanRun c n) s = .next t ∧
            t.newFaults = s.newFaults ++ [x] ∧ x.cls = 2 ∧ x.cause = 1 ∧ x.unit_ = 10 ∧
            x.d0 = w64 (q + 256 * port))) ∧
      (now → bitAt r 94 = true → q < 32 → ∀ o,
        (s.chan c).drainOut.find? (fun o => o.1 = s.cy && o.2.1 = port) = some o →
        ((s.dqOf c q).beats.length < (s.dqOf c q).cap →
          ∃ t : State, exec (.edgePlanRun c n) s = .next t ∧ (t.dqOf c q).beats =
            (s.dqOf c q).beats ++ [⟨(Coded.check o.2.2.beat).1, o.2.2.tag, (s.chan c).gate.seq⟩]) ∧
        ((s.dqOf c q).cap ≤ (s.dqOf c q).beats.length →
          ∃ (t : State) (x : FaultRec), exec (.edgePlanRun c n) s = .next t ∧
            t.newFaults = s.newFaults ++ [x] ∧ x.cls = 2 ∧ x.cause = 2 ∧ x.unit_ = 10 ∧
            t.dqOf c q = s.dqOf c q)))

/-- WKRD and WKWR. A wicket operation that would cross a 256-byte boundary answers status 5 at once;
any other stalls the core, and when it completes answers 1 on an absent page, 3 on a host page, 4 on
a reserved frame, 2 on a write to a protected page, moving nothing, or 0: a WKRD has then taken the
bytes of HDM into data memory, a WKWR has written those of data memory into HDM. (R338, R339) -/
def Obligations.WicketPath : Prop :=
  ∀ (c : Chn) (s : State) (w : W32),
    let k := (s.chan c).core
    let b := k.reg (fldN w 11 5)
    let va := b.toNat % 2 ^ 52
    let len := b.toNat / 2 ^ 52 % 2 ^ 8 + 1
    (∀ i kind wr, (i, kind, wr) ∈ ([(.wkrd c, .wkrd, false), (.wkwr c, .wkwr, true)] :
        List (Instr × CoreKind × Bool)) → s.issues c kind w →
      ∃ t : State, exec i s = .next t ∧
        (256 < va % 256 + len → (t.chan c).core = (k.setReg (fldN w 21 5) 5).goesOn s.cy) ∧
        (va % 256 + len ≤ 256 → (t.chan c).core = { k with
          pc := k.pc + 4, readyAt := s.cy + 1
          wait := .wicket wr (k.reg (fldN w 16 5)).toNat len va (BitVec.ofNat 5 (fldN w 21 5)) })) ∧
    (∀ wr a len va d, s.hasChan c = true → k.wait = .wicket wr a len va d →
      let e := s.entryFor (2 * c.val) 16 va
      let ok := bitAt e 0 = true ∧ fldN e 8 13 = va / 2 ^ 39 % 2 ^ 13
      let free : Core := { k with wait := .none, readyAt := s.cy + 1 }
      let hdm := fldN e 4 3 * 2 ^ 36 + fldN e 21 43 * 2 ^ 21 + va % 2 ^ 21
      (∀ st, (st = 1 ∧ ¬ ok ∨ st = 3 ∧ ok ∧ bitAt e 1 = true ∨
          st = 4 ∧ ok ∧ bitAt e 1 = false ∧ s.frameOk e = false ∨
          st = 2 ∧ ok ∧ bitAt e 1 = false ∧ s.frameOk e = true ∧ wr = true ∧ bitAt e 2 = false) →
        ∃ t : State, exec (.wicketComplete c) s = .next t ∧
          (t.chan c).core = free.setReg d.toNat (w64 st) ∧ t.mem.hdm = s.mem.hdm) ∧
      (ok → bitAt e 1 = false → s.frameOk e = true → (wr = true → bitAt e 2 = true) →
        (∀ n, (s.msd n).retraining = false) → (∀ n, (s.msd n).snoop = []) →
        ∃ t : State, exec (.wicketComplete c) s = .next t ∧
          (wr = false → t.mem.hdm = s.mem.hdm ∧
            (t.chan c).core = (free.takeBytes s.mem.hdm a hdm len).setReg d.toNat 0) ∧
          (wr = true → t.mem.hdm = s.mem.hdm.writeMarked (k.giveBytes a hdm len) ∧
            (t.chan c).core = free.setReg d.toNat 0)))

/-- Rows of the memory-side dies. A refresh is counted; a retry is counted by its kind, saturating,
and exhausted retries make a retrain due and raise HBM_LINK_ERROR; switching Breakwater off, and
invalidating it, drop every line. A scrub of a line whose codewords are all clean changes nothing;
of others it stores the corrected copies and counts them; a scrub period of 0 disables it. On a die
that the grade lacks these commands do nothing. (R3, R307, R337, R346, R350, R355, R356, R379) -/
def Obligations.MemorySideRows : Prop :=
  ∀ (n : Fin 8) (s : State),
    (s.hasMsd n = false →
      ∀ (wdata x on : Bool) (g : Nat), ∀ i ∈ [Instr.hbmRefresh n, .hbmRetry n wdata x, .breakwaterEnable n on,
        .breakwaterInvalidate n, .patrolScrub n g, .hbmRetrainTask n on], exec i s = .next s) ∧
    (s.hasMsd n = true →
      let d := s.msd n.val
      exec (.hbmRefresh n) s = .next (s.modMsd n.val fun d => { d with refresh := d.refresh + 1 }) ∧
      (∀ wdata : Bool, exec (.hbmRetry n wdata false) s = .next (s.modMsd n.val fun d =>
        if wdata then { d with retryWdata := satInc d.retryWdata } else { d with retryCa := satInc d.retryCa })) ∧
      (∀ wdata : Bool, ∃ t : State, exec (.hbmRetry n wdata true) s = .next t ∧
        (t.msd n.val).retrainDue = true ∧ t.ev.raised = s.ev.raised ++ [0x050 + 4 * n.val]) ∧
      (∀ on : Bool, exec (.breakwaterEnable n on) s = .next (s.modMsd n.val fun d =>
        { d with bwEnable := on, bwLines := if on then d.bwLines else [] })) ∧
      exec (.breakwaterInvalidate n) s = .next (s.modMsd n.val fun d => { d with bwLines := [] }) ∧
      (∀ g, d.scrubPeriod = 0 ∨ 2 ^ 28 ≤ g → exec (.patrolScrub n g) s = .next s) ∧
      (∀ g, g < 2 ^ 28 → d.scrubPeriod ≠ 0 →
        ∃ t : State, exec (.patrolScrub n g) s = .next t ∧
          t.mem.hdm = (List.range 16).foldl (fun m j => m.settle ((n.val * 2 ^ 36 + 256 * g) / 16 + j)) s.mem.hdm ∧
          ((∀ j < 16, (s.mem.hdm.cw ((n.val * 2 ^ 36 + 256 * g) / 16 + j)).clean = true) → t = s) ∧
          { t with mem := s.mem, ev := s.ev } = s ∧
          (t.msd n.val).bwLines = d.bwLines))

/-- CXL.mem accesses of the host. Before Memory_Active, and outside what the host may reach, a read
or write changes only the error count and its address, a read before Memory_Active with the poison
indication. A read of a line of the general range answers its 64 bytes and poison, and a cacheable
copy enters the snoop filter, where a full set has its oldest line back-invalidated first; a write
lands its enabled bytes, and one in the command window makes the expected slot due for examination.
The answer to a back-invalidate lands dirty data first and lets the write that waited follow. (R382,
R440, R441, R442, R443, R444, R445) -/
def Obligations.HostMemory : Prop :=
  ∀ (s : State) (off : Nat),
    (∀ cacheable : Bool, (s.cxl.memActive = false ∨ (s.hostAccess off).1 = false) →
      ∃ t : State, exec (.cxlMemRead off cacheable) s = .next t ∧ t.cxl.hdmErr = s.cxl.hdmErr + 1 ∧
        t.cxl.hdmErrAt = w64 off ∧ bitAt t.cxl.lineData 512 = !s.cxl.memActive ∧ t.mem = s.mem) ∧
    (∀ cacheable : Bool, s.cxl.memActive = true → (s.hostAccess off).1 = true →
      (∀ n, (s.msd n).retraining = false) →
      let set_ := Smap.get [] (s.msd (off / 64 * 64 / stackBytes)).snoop (off / 64 % 131072)
      (cacheable = true → s.cxl.quiesced = false → 16 ≤ set_.length → off / 64 ∉ set_ →
        exec (.cxlMemRead off cacheable) s = .next (s.issueSnoop (set_.getLastD (off / 64)))) ∧
      (cacheable = false ∨ s.cxl.quiesced = true ∨ set_.length < 16 ∨ off / 64 ∈ set_ →
      ∃ t : State, exec (.cxlMemRead off cacheable) s = .next t ∧ t.mem.hdm = s.mem.hdm ∧
        t.cxl.hdmErr = s.cxl.hdmErr ∧
        (cacheable = true → s.cxl.quiesced = false → t.snooped (off / 64) = true) ∧
        (∀ i < 64, fldN t.cxl.lineData (8 * i) 8 = (s.mem.hdm.goodByte (off / 64 * 64 + i)).toNat) ∧
        bitAt t.cxl.lineData 512 = (List.range 64).any fun i => s.mem.hdm.isPoison (off / 64 * 64 + i))) ∧
    (∀ data en id poison,
      ((s.cxl.memActive = false ∨ (s.hostAccess off).2 = false) →
        exec (.cxlMemWrite off data en id poison) s = .next { s with cxl := { s.cxl with
          hdmErr := s.cxl.hdmErr + 1, hdmErrAt := w64 off } }) ∧
      (s.cxl.memActive = true → (s.hostAccess off).2 = true → (∀ n, (s.msd n).retraining = false) → en ≠ 0 →
        ∃ t : State, exec (.cxlMemWrite off data en id poison) s = .next t ∧
          t.mem.hdm = s.mem.hdm.writeMarked ((List.range 64).filterMap fun i =>
            if bitAt en i then
              some (.plain (off / 64 * 64 + i) (BitVec.allOnes 8) (fld data (8 * i) 8) poison) else none) ∧
          (s.cmd.winBase.toNat ≤ off / 64 * 64 → off / 64 * 64 < s.cmd.winBase.toNat + 2 ^ 20 →
            (off / 64 * 64 - s.cmd.winBase.toNat) / 256 = s.cmd.next.toNat % 4096 → t.cmd.examine = true) ∧
          t.cmd.accepted = s.cmd.accepted)) ∧
    (∀ (dirty : Option (BitVec 512)) (h : HeldWrite), off / 64 ∈ s.mem.snooping → s.mem.heldWrites = [h] →
      h.lines = [off / 64] → (∀ n, (s.msd n).retraining = false) →
      let m := match dirty with
        | some d => s.mem.hdm.writeMarked (plainWrites (64 * (off / 64)) (bytesLE 64 d.toNat))
        | none => s.mem.hdm
      ∃ t : State, exec (.bisnpResponse off dirty) s = .next t ∧ t.mem.hdm = m.writeMarked h.writes ∧
        t.mem.heldWrites = [] ∧ off / 64 ∉ t.mem.snooping) ∧
    (∀ dirty, off / 64 ∉ s.mem.snooping → exec (.bisnpResponse off dirty) s = .next s)

/-- Window table and translation. A whole write replaces an entry, reserved bits [3] and [7] staying
0; a low word is held until the high word arrives and then both take effect together. A flush drops
every cached translation and reads as done when no request made under an old one is out. With no
translation cached, bits 38 to 21 of a virtual address select its entry, and no entry maps two pages
whose tags differ. An address translates by its entry: a page not present is ABSENT, a wrong tag
TAG, a write to a protected page WRITE_PROTECT, a frame outside the general range RESERVED, and else
HDM or host bytes of its frame. (R308) -/
def Obligations.WindowTable : Prop :=
  ∀ (s : State),
    (∀ n w, n < 2 ^ 18 →
      exec (.windowTableWrite n .whole w) s =
        .next { s with mem := { s.mem with wtab := Smap.put 0 s.mem.wtab n (w &&& 0xFFFFFFFFFFFFFF77) } } ∧
      exec (.windowTableWrite n .low w) s =
        .next { s with mem := { s.mem with wtabLow := Smap.upsert s.mem.wtabLow n (fld w 0 32) } } ∧
      exec (.windowTableWrite n .high w) s = .next { s with mem := { s.mem with
        wtab := Smap.put 0 s.mem.wtab n ((fld w 0 32 ++ (match Smap.find? s.mem.wtabLow n with
          | some l => l
          | none => fld (Smap.get 0 s.mem.wtab n) 0 32)) &&& 0xFFFFFFFFFFFFFF77)
        wtabLow := Smap.erase s.mem.wtabLow n } }) ∧
    (∃ t : State, exec .wtabFlush s = .next t ∧ (∀ n, (t.msd n).tcache = []) ∧ t.mem.wtab = s.mem.wtab ∧
      t.mem.hdm = s.mem.hdm ∧
      (s.readsOut = false → s.mem.heldWrites = [] → t.mem.flushing = false) ∧
      (s.readsOut = true → t.mem.flushing = true)) ∧
    (∀ (die eng va : Nat) (wr : Bool), (s.msd die).tcache = [] →
      (s.translate die eng va wr).2 = s.useEntry (Smap.get 0 s.mem.wtab (va / 2 ^ 21 % 2 ^ 18)) va wr) ∧
    (∀ (e : W64) (va va' : Nat) (wr wr' host host' : Bool) (b b' : Nat),
      s.useEntry e va wr = .ok host b → s.useEntry e va' wr' = .ok host' b' →
      va / 2 ^ 39 % 2 ^ 13 = va' / 2 ^ 39 % 2 ^ 13) ∧
    (∀ (e : W64) (va : Nat) (wr : Bool),
      let frame := fldN e 21 43 * 2 ^ 21
      let stack := fldN e 4 3
      s.useEntry e va wr =
        if bitAt e 0 = false then .bad 1
        else if fldN e 8 13 ≠ va / 2 ^ 39 % 2 ^ 13 then .bad 2
        else if wr = true ∧ bitAt e 2 = false then .bad 3
        else if bitAt e 1 = true then .ok true (frame + va % 2 ^ 21)
        else if stack < (if s.four then 8 else 6) ∧ frame < (if stack = 0 then 0xE80000000 else 0xF00000000) then
          .ok false (stack * 2 ^ 36 + frame + va % 2 ^ 21)
        else .bad 4)

/-- Examining a slot and completing a command. An examination that is due, while the watch may
accept, of a slot with another sequence only ends the need to examine; of a good packet accepts it,
with the tick, a journal entry and the next sequence; of one whose CRC fails accepts nothing, counts
it, and answers each new CRC value once. A command at its end leaves the accepted ones, gets its
completion entry and its reply; one that has not begun, or a STOP of a channel that still runs, goes
on. (R382, R385, R387, R388, R389, R390, R391, R396, R404, R412) -/
def Obligations.CommandSlots : Prop :=
  ∀ s : State,
    (s.cmd.examine = false ∨ s.watchOpen = false → exec .commandSlotExamine s = .next s) ∧
    (s.cmd.examine = true → s.watchOpen = true → s.stackWait true (s.slotAt s.cmd.next) = false →
      let x := s.slotBytesAt
      (fld x 0 64 ≠ s.cmd.next → ∃ t : State, exec .commandSlotExamine s = .next t ∧
        t.cmd = { s.cmd with examine := false }) ∧
      (fld x 0 64 = s.cmd.next → packetGood x = true →
        ∃ (t : State) (c : Cmd), exec .commandSlotExamine s = .next t ∧ t.cmd.next = s.cmd.next + 1 ∧
          t.cmd.accepted = s.cmd.accepted ++ [c] ∧ c.seq = s.cmd.next ∧ c.packet = x ∧ c.begun = false ∧
          c.accept = s.tide.count ∧ c.clamp = c.packetClamp ∧ t.cmd.jHead = s.cmd.jHead + 1 ∧
          (c.fields = none → c.finished = true ∧ c.status = BitVec.ofNat 16 stUNSUPPORTED) ∧
          (c.fields ≠ none → s.namesAbsent c = true → c.finished = true ∧ c.status = BitVec.ofNat 16 stABSENT) ∧
          (c.fields ≠ none → s.namesAbsent c = false → c.finished = false)) ∧
      (fld x 0 64 = s.cmd.next → packetGood x = false →
        ∃ t : State, exec .commandSlotExamine s = .next t ∧ t.cmd.next = s.cmd.next ∧
          t.cmd.accepted = s.cmd.accepted ∧ t.cmd.crcBad = satInc s.cmd.crcBad ∧
          (fld x 224 32 ∈ s.cmd.seenCrc → t.cmd.jHead = s.cmd.jHead ∧ t.cmd.held = s.cmd.held ∧ t.host = s.host) ∧
          (fld x 224 32 ∉ s.cmd.seenCrc → t.cmd.jHead = s.cmd.jHead + 1 ∧
            t.cmd.seenCrc = s.cmd.seenCrc ++ [fld x 224 32]))) ∧
    (∀ seq : W64,
      (s.cmdOf seq = none → exec (.commandComplete seq) s = .next s) ∧
      (∀ c : Cmd, s.cmdOf seq = some c →
        (c.begun = false → c.finished = false → exec (.commandComplete seq) s = .next s) ∧
        (c.opcode = opSTOP → c.open_ = true → (∃ d ∈ s.maskOf c, s.busyChan d = true) →
          exec (.commandComplete seq) s = .next s) ∧
        (c.finished = true →
          ∃ (t : State) (x : BitVec 512), exec (.commandComplete seq) s = .next t ∧
            t.cmd.accepted = s.cmd.accepted.filter (fun e => decide (e.seq ≠ seq)) ∧
            t.cmd.jHead = s.cmd.jHead + 1 ∧ isReply x c c.status c.reason c.result (s.doneTick c) ∧
            s.handsOut t x)))

/-- STOP_AFTER_BLOCK. STOP_AFTER_BLOCK writes CHn_STOPAFTER of every named channel, a sequence below
the channel's own taken as that, with clamp bit 1. The command completes when every named channel
has stopped, with OK when each has STOP_CAUSE 2 and else with ABORTED and WITHDRAWN; CHn_STOPAFTER
keeps its value. (R405) -/
def Obligations.StopAfterBlock : Prop :=
  ∀ (s : State) (seq : W64) (c : Cmd),
    (s.turnOf opSTOPAFTER seq c →
      let l := s.named (c.arg 0)
      let v := w64 (c.arg 1)
      let own := fun d => if v.toNat < (s.chan d).gate.current.toNat then (s.chan d).gate.current else v
      ∃ t : State, exec (.stopAfterBlock seq) s = .next t ∧
        (∀ d ∈ l, (t.chan d).regs = { (s.chan d).regs with stopAfter := own d } ∧
          (t.chan d).gate = (s.chan d).gate) ∧
        (∀ d, d ∉ l → t.chan d = s.chan d) ∧
        (l ≠ [] → ∃ x ∈ t.cmd.accepted, x.seq = seq ∧ x.open_ = true ∧
          x.packet = c.packet ∧ bitAt x.clamp 1 = (bitAt c.clamp 1 || l.any fun d => decide (own d ≠ v))) ∧
        (l = [] → t.endedOk c false (resOne 32 8 0))) ∧
    (s.cmdOf seq = some c → c.opcode = opSTOPAFTER → c.open_ = true →
      let l := s.maskOf c
      let res := resOne 32 8 (s.lowSeq l)
      ((∃ d ∈ l, (s.chan d).gate.st ≠ .stopped) → exec (.commandComplete seq) s = .next s) ∧
      ((∀ d ∈ l, (s.chan d).gate.st = .stopped) →
        ∃ (t : State) (x : BitVec 512), exec (.commandComplete seq) s = .next t ∧ s.handsOut t x ∧
          (∀ e ∈ t.cmd.accepted, e.seq ≠ seq) ∧ (∀ d, (t.chan d).regs = (s.chan d).regs) ∧
          ((∀ d ∈ l, (s.chan d).gate.stopCause = 2) →
            isReply x c (BitVec.ofNat 16 c.okStatus) 0 res s.tide.count) ∧
          ((∃ d ∈ l, (s.chan d).gate.stopCause ≠ 2) →
            isReply x c (BitVec.ofNat 16 stABORTED) (BitVec.ofNat 16 rsWITHDRAWN) res s.tide.count)))

/-- Information and state commands. IDENTIFY, QUERY_FEATURES, ATTEST and DUMP_STATE of a channel at
rest write their data to the host buffer, as far as asked, and answer the bytes written; a buffer
page that takes no DMA ends them with HOST_DMA; ATTEST and SEAL_RECEIPT into too short a buffer, and
DUMP_STATE and SEAL_RECEIPT of channels not at rest, are aborted. SEAL_RECEIPT starts a new segment
with the next number. EVENT_CONFIG writes an event's fields. CLEAR_FAULTS empties the fault log.
(R265, R358, R394, R398, R401, R402, R410, R423, R433, R494) -/
def Obligations.InfoCommands : Prop :=
  ∀ (s : State) (seq : W64) (c : Cmd),
    let b := s.begunCmd seq
    let a := c.arg 0
    (∀ (i : Instr) (op n : Nat) (bs : List Byte) (more : Bool) (res : BitVec 192),
      (i, op, n, bs, more, res) ∈ ([
        (.identify seq, opIDENTIFY, a, b.identityBlock.take (min 512 (c.arg 1)), decide (512 < c.arg 1),
          resSet (resSet (resSet (resOne 32 4 (min 512 (c.arg 1))) 36 1 s.grade) 37 1 0xB0) 38 1 s.chEn),
        (.queryFeatures seq, opFEATURES, a, b.featureBlock.take (min 64 (c.arg 1)), decide (64 < c.arg 1),
          resOne 32 4 (min 64 (c.arg 1)))] : List (Instr × Nat × Nat × List Byte × Bool × BitVec 192)) →
      s.turnOf op seq c →
      ∃ t : State, exec i s = .next t ∧ { t with cmd := s.cmd, host := s.host } = s ∧
        ((∀ j < bs.length, (n + j) / 4096 ∉ s.host.bad) → t.host = (s.hostPut n bs).host ∧ t.endedOk c more res) ∧
        ((∃ j < bs.length, (n + j) / 4096 ∈ s.host.bad) → t.ended c stFAULTED rsHOSTDMA resNone)) ∧
    (s.turnOf opATTEST seq c →
      let r := b.report (bytesLE 32 (c.arg 2))
      ∃ t : State, exec (.attest seq) s = .next t ∧ { t with cmd := s.cmd, host := s.host } = s ∧
        (c.arg 1 < r.length → t.ended c stABORTED rsSHORT (resOne 36 4 r.length) ∧ t.host = s.host) ∧
        (r.length ≤ c.arg 1 → (∃ j < r.length, (a + j) / 4096 ∈ s.host.bad) → t.ended c stFAULTED rsHOSTDMA resNone) ∧
        (r.length ≤ c.arg 1 → (∀ j < r.length, (a + j) / 4096 ∉ s.host.bad) →
          t.host = (s.hostPut a r).host ∧ t.endedOk c (decide (r.length < c.arg 1)) (resOne 32 4 r.length))) ∧
    (s.turnOf opDUMP seq c →
      let d := chnOf (c.arg 0)
      let rest := (s.chan d).gate.st = .stopped ∨ (s.chan d).gate.st = .held
      let parts := ((List.range 7).filter fun k => c.arg 1 / 2 ^ k % 2 = 1).map fun k => b.dumpSection d (k + 1)
      let full := parts.foldl (fun n p => n + (dumpBytes p).length) 0
      let out := dumpBytes (fitSections parts (c.arg 3))
      ∃ t : State, exec (.dumpState seq) s = .next t ∧
        { t with cmd := s.cmd, host := s.host, flt := s.flt, newFaults := s.newFaults, ev := s.ev } = s ∧
        (¬ rest → t.ended c stABORTED rsSTATE resNone ∧ t.host = s.host) ∧
        (rest → (∃ j < out.length, (c.arg 2 + j) / 4096 ∈ s.host.bad) → t.ended c stFAULTED rsHOSTDMA resNone) ∧
        (rest → (∀ j < out.length, (c.arg 2 + j) / 4096 ∉ s.host.bad) → t.host = (s.hostPut (c.arg 2) out).host ∧
          t.endedOk c (decide (full < c.arg 3)) (resSet (resOne 32 8 out.length) 40 8 full))) ∧
    (s.turnOf opSEAL seq c →
      let rest := s.job.active = true ∧ ∀ d ∈ s.bound, (s.chan d).gate.st = .stopped
      ∃ t : State, exec (.sealReceipt seq) s = .next t ∧
        (¬ rest → t.ended c stABORTED rsSTATE resNone ∧ t.job = s.job) ∧
        (rest → c.arg 1 < 528 → t.ended c stABORTED rsSHORT resNone ∧ t.job = s.job) ∧
        (rest → 528 ≤ c.arg 1 → s.host.bad = [] →
          t.endedOk c (decide (528 < c.arg 1)) (resOne 32 8 (s.job.rcptSeq + 1).toNat) ∧
          t.job.rcptSeq = s.job.rcptSeq + 1 ∧ t.job.seals = s.job.seals + 1 ∧ t.job.start = c.accept ∧
          t.job.active = true ∧ t.job.prev.isSome = true ∧
          ∀ d ∈ s.bound, (t.chan d).chain.parts = [] ∧ (t.chan d).chain.segRecords = 0 ∧
            (t.chan d).gate.st = .stopped ∧ (t.chan d).gate.seq = (s.chan d).gate.seq)) ∧
    (s.turnOf opEVENT seq c →
      ∃ t : State, exec (.eventConfig seq) s = .next t ∧ t.endedOk c false resNone ∧
        { t with cmd := s.cmd, ev := s.ev } = s ∧
        (t.evOf (c.arg 0)).count = BitVec.ofNat 16 (c.arg 1) ∧
        (t.evOf (c.arg 0)).timeout = BitVec.ofNat 32 (c.arg 2) ∧
        (t.evOf (c.arg 0)).vector = BitVec.ofNat 6 (c.arg 3) ∧
        (t.evOf (c.arg 0)).enable = decide (c.arg 4 = 1) ∧
        (c.arg 4 = 0 → (t.evOf (c.arg 0)).pend = false ∧ (t.evOf (c.arg 0)).occ = 0)) ∧
    (s.turnOf opCLEAR seq c →
      ∃ t : State, exec (.clearFaults seq) s = .next t ∧ t.endedOk c false (resOne 32 8 s.flt.prod.toNat) ∧
        { t with cmd := s.cmd } =
          { s with flt := { s.flt with cons := s.flt.prod, lostBit := false } })

/-- LOAD_IMAGE, VERIFY_IMAGE and BIND_CHANNELS. LOAD_IMAGE while a channel runs or is in its gate,
and BIND_CHANNELS then or of a variant that the image lacks, are aborted with STATE, with a retired
channel with RETIRED. A length of 0 does nothing and is answered OK. An image that the verifier
rejects is answered with the verifier's result and changes nothing but the summary of the last image
verified (the model's own field, log 102); one that passes is answered so by VERIFY_IMAGE, and
LOAD_IMAGE puts it in force, forgets save points and retirements, measures it, and loads the
channels of its main set, the others having no image. BIND_CHANNELS does the last for the variant
named. (R230, R231, R394, R402, R473, R516, R517) -/
def Obligations.ImageCommands : Prop :=
  ∀ (s : State) (seq : W64) (c : Cmd) (img : Image),
    let b := (s.begunCmd seq).summarize img
    let len := min (c.arg 1) (s.hdmSize - c.arg 0)
    let more := decide (len < c.arg 1)
    let meas := sha512 (s.hdmBytes (c.arg 0) len)
    let rest := ∀ d ∈ s.channels, (s.chan d).gate.st ≠ .running ∧ (s.chan d).gate.st ≠ .gate
    (∀ i op, (i, op) ∈ [(Instr.loadImage seq img, opLOAD), (Instr.verifyImage seq img, opVERIFY)] →
      s.turnOf op seq c →
      (len = 0 → ∃ t : State, exec i s = .next t ∧ t.endedOk c more resNone ∧ { t with cmd := s.cmd } = s) ∧
      (len ≠ 0 → (op = opLOAD → rest) → ∀ v, b.verify img len = some v →
        ∃ t : State, exec i s = .next t ∧ t.ended c stREJECTED 0 (verifyResult (some v) meas) ∧
          { t with cmd := s.cmd } = s.summarize img)) ∧
    (s.turnOf opVERIFY seq c → len ≠ 0 → b.verify img len = none →
      ∃ t : State, exec (.verifyImage seq img) s = .next t ∧ t.endedOk c more (verifyResult none meas) ∧
        { t with cmd := s.cmd } = s.summarize img) ∧
    (s.turnOf opLOAD seq c → len ≠ 0 → ¬ rest →
      ∃ t : State, exec (.loadImage seq img) s = .next t ∧ t.ended c stABORTED rsSTATE resNone ∧
        { t with cmd := s.cmd } = s) ∧
    (s.turnOf opLOAD seq c → len ≠ 0 → rest → b.verify img len = none →
      let clear := (chansOf img.main.chset).foldl State.powerChan (b.copyImage (c.arg 0) len).dropImage
      ∃ t : State, exec (.loadImage seq img) s = .next t ∧ t.endedOk c more (verifyResult none meas) ∧
        t.img.image = some (clear.loadedImage img) ∧ t.img.variant = 0 ∧
        t.img.retiredSet = 0 ∧ t.job.meas = meas ∧ (∀ n, t.recov.slots.getD n none = none) ∧
        ∀ d ∈ s.channels, (t.chan d).gate.st = (if bitAt t.part.chset d.val then .loaded else .noImage)) ∧
    (s.turnOf opBIND seq c →
      (¬ rest ∨ s.variantSet (c.arg 0) = none →
        ∃ t : State, exec (.bindChannels seq) s = .next t ∧ t.ended c stABORTED rsSTATE resNone ∧
          { t with cmd := s.cmd } = s) ∧
      (∀ m : BitVec 4, rest → s.variantSet (c.arg 0) = some m →
        ((∃ d ∈ chansOf m, (s.chan d).gate.st = .retired) →
          ∃ t : State, exec (.bindChannels seq) s = .next t ∧ t.ended c stABORTED rsRETIRED resNone ∧
            { t with cmd := s.cmd } = s) ∧
        ((∀ d ∈ chansOf m, (s.chan d).gate.st ≠ .retired) →
          ∃ t : State, exec (.bindChannels seq) s = .next t ∧ t.endedOk c false (resOne 32 1 m.toNat) ∧
            t.img.variant = c.arg 0 ∧ t.img.image = s.img.image ∧ t.job.active = false ∧
            (∀ n, t.recov.slots.getD n none = none) ∧
            ∀ d ∈ s.channels, (t.chan d).gate.st = (if (s.chan d).gate.st = .retired then .retired
              else if bitAt m d.val then .loaded else .noImage))))

/-- Run-control commands. START of channels that are LOADED or STOPPED, not by a reproduced fault,
puts each into its gate, its core running, a nonzero key beginning a job; else it is aborted and no
channel changes; naming no channel it does nothing. STOP asks each named channel to stop, or stores
a HALT order for a mark, a manager's into the line for one address, and spoiled by a held channel
ends FAULTED. SAVE makes a save point due. RESUME restores the newest save point; RETIRE_CHANNEL
begins its rollback; ADOPT_FALLBACK binds and restores a variant; RESET_CHANNEL clears a channel at
rest and holds it in reset for 1,024 cycles, and marks one that is not. RESUME_STREAM answers
whether the queue halted again. PAIR_MODE sets a compare slot or the membership. (R225, R335, R365,
R372, R373, R397, R399, R403, R404, R409, R515, R516) -/
def Obligations.RunCommands : Prop :=
  ∀ (s : State) (seq : W64) (c : Cmd),
    let l := s.named (c.arg 0)
    (s.turnOf opSTART seq c → s.noMark →
      let ready := ∀ d ∈ l, ((s.chan d).gate.st = .loaded ∨ (s.chan d).gate.st = .stopped) ∧
        (s.chan d).regs2.reproduced = false
      let bad := c.arg 1 ≠ 0 ∧ (l ≠ s.bound ∨ ∃ d ∈ s.bound, (s.chan d).gate.st = .running)
      ∃ t : State, exec (.start seq) s = .next t ∧
        ((∃ d ∈ l, (s.chan d).gate.st = .retired) →
          t.ended c stABORTED rsRETIRED resNone ∧ { t with cmd := s.cmd } = s) ∧
        (l = [] → t.endedOk c false resNone ∧ { t with cmd := s.cmd } = s) ∧
        (l ≠ [] → (∀ d ∈ l, (s.chan d).gate.st ≠ .retired) → ¬ ready ∨ bad →
          t.ended c stABORTED rsSTATE resNone ∧ { t with cmd := s.cmd } = s) ∧
        (ready → ¬ bad → l ≠ [] → (∀ d ∈ l, (s.chan d).regs2.slackEntered = false) →
          t.waitsOn c ∧
          (∀ d ∈ l, (t.chan d).gate.st = .gate ∧ (t.chan d).gate.stopNow = false ∧
            (c.hasMark = true → (t.chan d).regs.gateMark = c.mark) ∧
            ((s.chan d).gate.st = .loaded → (t.chan d).core.started = true)) ∧
          (c.arg 1 = 0 → t.job = s.job ∧ ∀ d, d ∉ l → t.chan d = s.chan d) ∧
          (c.arg 1 ≠ 0 → t.job.active = true ∧ t.job.key = BitVec.ofNat 256 (c.arg 1) ∧
            t.job.start = c.accept ∧ t.job.accum = []))) ∧
    (s.turnOf opSTOP seq c → c.lineStop = false →
      ∃ t : State, exec (.stop seq) s = .next t ∧
        ((∃ d ∈ l, (s.chan d).gate.st = .held) → t.ended c stFAULTED rsHELD resNone ∧ { t with cmd := s.cmd } = s) ∧
        (l = [] → t.endedOk c false (resOne 32 1 0) ∧ { t with cmd := s.cmd } = s) ∧
        ((∀ d ∈ l, (s.chan d).gate.st ≠ .held) → l ≠ [] →
          (c.hasMark = false → t.waitsOn c ∧ ∀ d, t.chan d = (if d ∈ l ∧ s.busyChan d = true then
            { s.chan d with gate := { (s.chan d).gate with stopNow := true } } else s.chan d)) ∧
          (c.hasMark = true → ∀ n, s.freeOrder = some n → t.waitsOn c ∧ ∃ o : Order, t.orderAt n = some o ∧
            o.typ = otHALT ∧ o.target = s.tide.addr ∧ o.mark = s.localMark c.mark ∧ fld o.arg 0 4 = bits4 l ∧
            ∀ d, t.chan d = s.chan d) ∧
          (c.hasMark = true → s.freeOrder = none → t.ended c stABORTED rsNOSLOT resNone))) ∧
    (s.turnOf opSTOP seq c → c.lineStop = true → s.tide.role ≠ rlMANAGER →
      ∃ t : State, exec (.stop seq) s = .next t ∧ t.ended c stABORTED rsNOTMANAGER resNone ∧
        { t with cmd := s.cmd } = s) ∧
    (s.turnOf opSTOP seq c → c.lineStop = true → s.tide.role = rlMANAGER →
      ∃ t : State, exec (.stop seq) s = .next t ∧ t.chans = s.chans ∧
        (s.freeLine = 0 → t.ended c stABORTED rsNOSLOT resNone ∧ t.line = s.line) ∧
        (0 < s.freeLine → t.endedOk c (decide (c.mark.toNat < s.earliestMark.toNat)) resNone ∧
          ∃ (k : Nat) (o : Order), s.line.sending.getD k none = none ∧ t.line.sending.getD k none = some o ∧
            o.typ = otHALT ∧ o.target.toNat = c.arg 2 ∧
            o.mark = (if c.mark.toNat < s.earliestMark.toNat then s.earliestMark else c.mark))) ∧
    (s.turnOf opSAVE seq c →
      ∃ t : State, exec (.save seq) s = .next t ∧ t.chans = s.chans ∧
        (s.bound = [] → t.ended c stABORTED rsSTATE resNone) ∧
        (s.bound ≠ [] → t.waitsOn c ∧ t.recov = { s.recov with
          saveDue := true, saveStop := s.recov.saveStop || decide (c.arg 0 = 1) })) ∧
    (s.turnOf opRESUME seq c → s.noMark → s.recov.rolling = .none → (∀ e, (s.chan e).gate.resetDue = false) →
      ∃ t : State, exec (.resume seq) s = .next t ∧
        (s.boundRest = false → t.ended c stABORTED rsSTATE resNone ∧ { t with cmd := s.cmd } = s) ∧
        (s.boundRest = true → s.canRestore false = none → t.ended c stABORTED rsNOSAVE resNone) ∧
        (s.boundRest = true → ∀ n, s.canRestore false = some n →
          ∀ d ∈ s.bound, ∀ v, s.restoreSlot false d = some v →
            (t.chan d).core.regs = v.regs ∧ (t.chan d).core.dmem = v.dmem ∧ (t.chan d).gate.seq = v.seq)) ∧
    (s.turnOf opRETIRE seq c →
      let d := chnOf (c.arg 0)
      ∃ t : State, exec (.retireChannel seq) s = .next t ∧
        ((s.chan d).gate.st = .retired → t.ended c stABORTED rsRETIRED resNone) ∧
        ((s.chan d).gate.st ≠ .retired → d ∉ s.bound → t.ended c stABORTED rsSTATE resNone) ∧
        (d ∈ s.bound → s.canRestore false = none → t.ended c stABORTED rsNOSAVE resNone) ∧
        (d ∈ s.bound → s.canRestore false ≠ none → t.waitsOn c ∧ t.flt.recovering = true ∧
          t.recov.rolling = .rollback false (some d.val) ∧
          ∀ e ∈ s.bound, (s.chan e).gate.st = .running ∨ (s.chan e).gate.st = .gate →
            (t.chan e).gate.stopNow = true)) ∧
    (s.turnOf opADOPT seq c →
      (s.boundRest = false → ∃ t : State, exec (.adoptFallback seq) s = .next t ∧
        t.ended c stABORTED rsSTATE resNone ∧ { t with cmd := s.cmd } = s) ∧
      (s.boundRest = true → ∀ v m, s.adoptee (c.arg 0) = some v → s.variantSet v = some m →
        (∀ d ∈ chansOf m, (s.chan d).gate.st ≠ .retired) → s.canRestore false ≠ none →
        ∃ t : State, exec (.adoptFallback seq) s = .next t ∧
          t.endedOk c false (resSet (resOne 32 1 v) 33 1 m.toNat) ∧ t.img.variant = v ∧
          ∀ d ∈ t.bound, (t.chan d).gate.st = .stopped)) ∧
    (s.turnOf opRESET seq c →
      ∃ t : State, exec (.resetChannel seq) s = .next t ∧
        ((∃ d ∈ l, (s.chan d).gate.st = .retired) → t.ended c stABORTED rsRETIRED resNone ∧ { t with cmd := s.cmd } = s) ∧
        ((∀ d ∈ l, (s.chan d).gate.st ≠ .retired) → (∃ d ∈ l, (s.chan d).gate.st = .noImage) →
          t.ended c stABORTED rsSTATE resNone ∧ { t with cmd := s.cmd } = s) ∧
        ((∀ d ∈ l, (s.chan d).gate.st ≠ .retired ∧ (s.chan d).gate.st ≠ .noImage) → l ≠ [] → t.waitsOn c ∧
          ∀ d ∈ l, (s.busyChan d = false → (s.chan d).regs2.slackEntered = false →
              (t.chan d).gate.inReset = some (s.cy + 1024) ∧ (t.chan d).cells = [] ∧
                (t.port d.val).isOpen = false ∧ t.job.active = false) ∧
            (s.busyChan d = true → (t.chan d).gate.resetDue = true ∧ (t.chan d).gate.stopNow = true ∧
              (t.chan d).gate.st = (s.chan d).gate.st))) ∧
    (s.turnOf opSTREAM seq c →
      let d := chnOf (c.arg 0)
      let drain := decide (c.arg 2 = 1)
      ∃ (t : State) (h : Bool), exec (.resumeStream seq) s = .next t ∧ t.endedOk c false (resOne 32 1 (boolBit h)) ∧
        h = (if drain then (t.dqOf d (c.arg 1)).halted else (t.sqOf d (c.arg 1)).halted) ∧
        ((if drain then (s.dqOf d (c.arg 1)).halted else (s.sqOf d (c.arg 1)).halted) = false →
          h = false ∧ t.chans = s.chans ∧ t.ev = s.ev)) ∧
    (s.turnOf opPAIR seq c →
      let manager := s.tide.role = rlMANAGER
      let rest := s.img.image = none ∨ ∀ d ∈ s.bound, (s.chan d).gate.st = .stopped
      ∃ t : State, exec (.pairMode seq) s = .next t ∧
        (c.arg 0 = 2 → manager → t.endedOk c false resNone ∧
          let p := t.pairSlot (c.arg 1)
          p.state = 1 ∧ p.addrA.toNat = c.arg 2 ∧ p.addrB.toNat = c.arg 3 ∧ p.ringA.toNat = c.arg 4 ∧
            p.ringB.toNat = c.arg 5 ∧ p.compared = 0 ∧ p.skipped = 0 ∧
            ∀ n < 8, n ≠ c.arg 1 → t.pairSlot n = s.pairSlot n) ∧
        (c.arg 0 = 2 → ¬ manager → t.ended c stABORTED rsNOTMANAGER resNone ∧ t.job = s.job) ∧
        (c.arg 0 = 0 → manager → t.endedOk c false resNone ∧ (t.pairSlot (c.arg 1)).state = 0) ∧
        (c.arg 0 = 1 ∨ c.arg 0 = 0 ∧ ¬ manager →
          (¬ rest → t.ended c stABORTED rsSTATE resNone ∧ t.chans = s.chans) ∧
          (rest → t.endedOk c false resNone ∧ ∀ d ∈ s.channels,
            (t.chan d).regs2.pairMember = decide (c.arg 0 = 1) ∧ (t.chan d).regs2.pairRing.toNat = c.arg 4 ∧
            (t.chan d).regs2.ringFull = false)))

/-- Time and service commands. SET_FREQ_PLAN and SCHEDULE_SLACK store their orders in free slots, at
their marks or the next boundary, or answer NO_ORDER_SLOT and store none. SET_TIDE_ROLE puts SELF or
WORKER in force, makes an eligible part on an idle line resume as manager, or places a HANDOVER
order; what only a manager may do is aborted elsewhere. SUBSTITUTE_COLUMN, CALIBRATE, HBM_RETRAIN
and FW_ACTIVATE attach a task to a window. FW_STAGE writes a verified image to the inactive slot,
and empties it otherwise; a count or length of 0 does nothing and is answered OK. (R50, R61, R62,
R394, R406, R407, R408, R460, R479, R480, R483, R507) -/
def Obligations.TimeCommands : Prop :=
  ∀ (s : State) (seq : W64) (c : Cmd),
    let manager := s.tide.role = rlMANAGER
    (s.turnOf opFREQ seq c →
      let n := c.arg 0
      ∃ t : State, exec (.setFreqPlan seq) s = .next t ∧
        (n = 0 → t.endedOk c false (resOne 32 1 0) ∧ { t with cmd := s.cmd } = s) ∧
        (n ≠ 0 → c.arg 1 = 1 → ¬ manager → t.ended c stABORTED rsNOTMANAGER resNone ∧ { t with cmd := s.cmd } = s) ∧
        (c.arg 1 = 1 → manager → s.freeLine < n → t.ended c stABORTED rsNOSLOT resNone ∧ t.line = s.line) ∧
        (n ≠ 0 → c.arg 1 = 1 → manager → n ≤ s.freeLine → (∃ more, t.endedOk c more (resOne 32 1 n)) ∧
          ∀ i < n, ∃ (k : Nat) (o : Order), t.line.sending.getD k none = some o ∧ o.typ = otFREQ ∧
            o.target.toNat = c.arg 2 ∧ o.arg = (c.planStep i).2 ∧
            o.mark = (if (c.planStep i).1.toNat < s.earliestMark.toNat then s.earliestMark else (c.planStep i).1)) ∧
        (c.arg 1 ≠ 1 → s.freeOrders < n → t.ended c stABORTED rsNOSLOT resNone ∧ t.tide = s.tide) ∧
        (c.arg 1 ≠ 1 → n ≤ s.freeOrders → t.endedOk c false (resOne 32 1 n) ∧
          (∀ k, s.orderAt k ≠ none → t.orderAt k = s.orderAt k) ∧
          ∀ i < n, ∃ (k : Nat) (o : Order), t.orderAt k = some o ∧ o.typ = otFREQ ∧ o.target = s.tide.addr ∧
            o.mark = s.localMark (c.planStep i).1 ∧ o.arg = (c.planStep i).2)) ∧
    (s.turnOf opSLACK seq c → c.arg 0 ≠ 0 → c.arg 1 ≠ 1 →
      let m := s.localMark (if c.hasMark then c.mark else s.tide.count + 1)
      ∃ t : State, exec (.scheduleSlack seq) s = .next t ∧
        (s.freeOrder = none → t.ended c stABORTED rsNOSLOT resNone ∧ t.tide = s.tide) ∧
        (∀ k, s.freeOrder = some k → t.endedOk c (!c.hasMark) (resOne 32 8 m.toNat) ∧
          ∃ o : Order, t.orderAt k = some o ∧ o.typ = otSLACK ∧ o.target = s.tide.addr ∧ o.mark = m ∧
            o.arg.toNat = c.arg 0)) ∧
    (s.turnOf opSLACK seq c → c.arg 0 = 0 →
      ∃ t : State, exec (.scheduleSlack seq) s = .next t ∧ t.endedOk c (!c.hasMark) resNone ∧
        { t with cmd := s.cmd } = s) ∧
    (s.turnOf opSLACK seq c → c.arg 0 ≠ 0 → c.arg 1 = 1 →
      let first := s.earliestMark
      let m := if c.hasMark = true ∧ first.toNat ≤ c.mark.toNat then c.mark else first
      ∃ t : State, exec (.scheduleSlack seq) s = .next t ∧
        (¬ manager → t.ended c stABORTED rsNOTMANAGER resNone ∧ { t with cmd := s.cmd } = s) ∧
        (manager → s.freeLine = 0 → t.ended c stABORTED rsNOSLOT resNone ∧ t.line = s.line) ∧
        (manager → 0 < s.freeLine →
          t.endedOk c (!(c.hasMark && decide (first.toNat ≤ c.mark.toNat))) (resOne 32 8 m.toNat) ∧
          ∃ (k : Nat) (o : Order), t.line.sending.getD k none = some o ∧ o.typ = otSLACK ∧ o.target.toNat = c.arg 2 ∧
            o.mark = m ∧ o.arg.toNat = c.arg 0)) ∧
    (s.turnOf opTIDEROLE seq c →
      ∃ t : State, exec (.setTideRole seq) s = .next t ∧
        (c.arg 1 = 1 → ¬ manager → t.ended c stABORTED rsNOTMANAGER resNone ∧ { t with cmd := s.cmd } = s) ∧
        (c.arg 1 = 1 → manager → 0 < s.freeLine → t.waitsOn c ∧
          ∃ (k : Nat) (o : Order), t.line.sending.getD k none = some o ∧ o.typ = otHANDOVER ∧
            o.target = 0xFF ∧ o.arg.toNat = c.arg 2) ∧
        (c.arg 1 = 1 → manager → s.freeLine = 0 → t.ended c stABORTED rsNOSLOT resNone ∧ t.line = s.line) ∧
        (c.arg 1 ≠ 1 → c.arg 0 = 2 → s.tide.eligible = true → s.lineIdle = true →
          t.waitsOn c ∧ t.line = { s.line with resume := some s.resumeCount } ∧ t.tide = s.tide) ∧
        (c.arg 1 ≠ 1 → c.arg 0 = 2 → s.tide.eligible = false ∨ s.lineIdle = false →
          t.ended c stABORTED rsSTATE resNone ∧ t.tide = s.tide) ∧
        (c.arg 1 ≠ 1 → c.arg 0 < 2 → t.tide.role.toNat = c.arg 0 ∧ t.tide.count = s.tide.count ∧
          t.endedOk c false (resOne 32 1 (c.arg 0)))) ∧
    (∀ (i : Instr) (op : Nat) (task : SlackTask) (can : Bool) (reason : Nat),
      (i, op, task, can, reason) ∈ ([
        (.substituteColumn seq, opSUBST, .substitute (chnOf (c.arg 0)) (c.arg 1),
          decide ((s.chan (chnOf (c.arg 0))).regs.out0.toNat ≠ c.arg 1 ∧
            (s.chan (chnOf (c.arg 0))).regs.out1.toNat ≠ c.arg 1), rsSTATE),
        (.calibrate seq, opCALIBRATE, .calibrate (Fin.ofNat 37 (c.arg 0)), true, 0),
        (.hbmRetrain seq, opRETRAIN, .retrain (Fin.ofNat 8 (c.arg 0)), true, 0),
        (.fwActivate seq, opACTIVATE, .firmware, s.sec.staged, rsNOTHING)] :
          List (Instr × Nat × SlackTask × Bool × Nat)) →
      s.turnOf op seq c →
      ∃ t : State, exec i s = .next t ∧
        (can = true → t.waitsOn c ∧ s.asked t task seq) ∧
        (can = false → t.ended c stABORTED reason resNone ∧ { t with cmd := s.cmd } = s)) ∧
    (s.turnOf opSTAGE seq c →
      let len := min (c.arg 1) (s.hdmSize - c.arg 0)
      let bs := s.hdmBytes (c.arg 0) len
      let kept := fun (x : Sec) => if s.activeSlot then x.flashB else x.flashA
      let other := fun (x : Sec) => if s.activeSlot then x.flashA else x.flashB
      ∃ t : State, exec (.fwStage seq) s = .next t ∧ kept t.sec = kept s.sec ∧
        (len = 0 → t.endedOk c (decide (len < c.arg 1)) resNone ∧ { t with cmd := s.cmd } = s) ∧
        (len ≠ 0 → s.fwCheck bs = 0 → t.endedOk c (decide (len < c.arg 1))
            (resSet (resOne 32 8 (fwVersion bs).toNat) 40 8 ((fwMeasure bs 2).toNat % 2 ^ 64)) ∧
          (other t.sec).bytes = bs ∧ t.sec.staged = true) ∧
        (len ≠ 0 → s.fwCheck bs ≠ 0 → t.ended c stAUTH 0 resNone ∧ (other t.sec).bytes = [] ∧ t.sec.staged = false))

/-- Tasks of a slack window, and lock-step pairs. Started tasks of the open window get their
outcome: a recalibration its region's margin, at least 40, a retraining the end of the wait, the
management switch its activation record and measurements; without such a task each changes nothing.
A task with its outcome ends and its command with it; at the end of the span tasks that did not
start are deferred, and a window without tasks closes. The manager passes over old records, compares
two heads and counts, and stops the slot on a divergence; a stalled slot is so marked; a member
reads CONSUMED. The end of a task is stated where no order of the tide line has reached its mark.
(R271, R272, R273, R460, R461, R480, R506, R511, R512, R513) -/
def Obligations.SlackTasksAndPairs : Prop :=
  (∀ (s : State) (r : Fin 37) (m : Byte),
    (s.runningTask (.calibrate r) = none → exec (.phaseCalibration r m) s = .next s) ∧
    (∀ u, s.runningTask (.calibrate r) = some u → u.outcome = none →
      ∃ t : State, exec (.phaseCalibration r m) s = .next t ∧
        (t.region r.val).margin.toNat = max 40 m.toNat ∧ (t.region r.val).calibrating = false ∧
        (t.region r.val).cals = satInc (s.region r.val).cals ∧
        (∀ n, n ≠ r.val → t.region n = s.region n) ∧
        ∃ x ∈ t.svc.tasks, x.task = .calibrate r ∧ x.outcome.isSome = true)) ∧
  (∀ (s : State) (n : Fin 8) (ok : Bool), s.hasMsd n = true →
    (s.runningTask (.retrain n) = none → exec (.hbmRetrainTask n ok) s = .next s) ∧
    (∀ u, s.runningTask (.retrain n) = some u → u.outcome = none →
      ∃ t : State, exec (.hbmRetrainTask n ok) s = .next t ∧ (t.msd n.val).retraining = false ∧
        (ok = true → (t.msd n.val).retrainDue = false) ∧
        (ok = false → (t.msd n.val).retrainDue = (s.msd n.val).retrainDue) ∧
        ∃ x ∈ t.svc.tasks, x.task = .retrain n ∧ x.outcome = some (if ok then (stOK, 0, resNone)
          else (stFAULTED, rsSTATE, resOne 32 1 3)))) ∧
  (∀ s : State,
    (s.runningTask .firmware = none → exec .mgmtFwSwitch s = .next s) ∧
    (∀ u, s.runningTask .firmware = some u → u.outcome = none →
      let bs := s.slotBytes (!s.activeSlot)
      ∃ t : State, exec .mgmtFwSwitch s = .next t ∧ t.sec.mMgmt = fwMeasure bs 2 ∧ t.sec.fwVer = fwVersion bs ∧
        t.sec.mSec = s.sec.mSec ∧ t.sec.staged = false ∧ t.sec.activating = false ∧ t.svc.mgmtSwitch = false ∧
        t.sec.spdm.sessions = [] ∧ (∃ q, t.sec.records = s.sec.records ++ [(q, !s.activeSlot)]) ∧
        ∀ c : Chn, s.hasChan c = true →
          ((s.chan c).gate.st = .running ∨ (s.chan c).gate.st = .gate → (t.chan c).regs2.fwDue = true) ∧
          ((s.chan c).gate.st ≠ .running → (s.chan c).gate.st ≠ .gate → (t.chan c).regs2.fwDue = false))) ∧
  (∀ (s : State) (k : SlackTask), s.noMark →
    ((s.runningTask k = none ∨ ∃ u, s.runningTask k = some u ∧ u.outcome = none) →
      exec (.slackTaskEnd k) s = .next s) ∧
    (∀ u q st rs res c, s.runningTask k = some u → u.outcome = some (st, rs, res) → u.cmds = [q] → q ≠ 0 →
      c ∈ s.cmd.accepted → c.seq = q →
      ∃ t : State, exec (.slackTaskEnd k) s = .next t ∧ t.svc.tasks.length < s.svc.tasks.length ∧
        ∃ x ∈ t.cmd.accepted, x.seq = q ∧ x.finished = true ∧ x.reason = BitVec.ofNat 16 rs ∧ x.result = res ∧
          x.status = BitVec.ofNat 16 (if st = stOK then x.okStatus else st))) ∧
  (∀ s : State,
    let now := s.svc.openMark ≠ none ∧ s.svc.spanOver = false ∧ s.svc.openEnd.toNat ≤ s.tide.count.toNat
    (¬ now → exec .slackSpanEnd s = .next s) ∧
    (now → ∃ t : State, exec .slackSpanEnd s = .next t ∧
      t.svc.deferred = satAdd s.svc.deferred (s.windowTasks.filter fun x => !x.started).length ∧
      (s.windowTasks = [] → t.svc.openMark = none ∧
        ∀ c ∈ s.channels, (t.chan c).regs2.slackEntered = false))) ∧
  (∀ (s : State) (n : Fin 8) (c : Chn), s.hasChan c = true →
    let p := s.pairSlot n.val
    ((p.state ≠ 1 ∧ p.state ≠ 3) ∨ s.cxl.up = false ∨ s.tide.role ≠ rlMANAGER →
      exec (.pairCompare n c) s = .next s) ∧
    (p.state = 1 ∨ p.state = 3 → s.cxl.up = true → s.tide.role = rlMANAGER →
      ∀ a b, s.pairHead p.ringA c = some a → s.pairHead p.ringB c = some b →
      ∃ t : State, exec (.pairCompare n c) s = .next t ∧
        let q := t.pairSlot n.val
        (isOld (p.lastSeq.get c) a = true → q = { p with skipped := p.skipped + 1 }) ∧
        (isOld (p.lastSeq.get c) a = false → isOld (p.lastSeq.get c) b = false →
          q.compared = p.compared + 1 ∧
          (headsDiffer a b = 0 → q.state = 1 ∧ q.lastSeq.get c = some (fld a 0 64)) ∧
          (headsDiffer a b ≠ 0 → q.state = 2 ∧ q.divCause = headsDiffer a b ∧ q.divChannel.toNat = c.val ∧
            q.divSeq = fld a 0 64 ∧ 0x070 + n.val ∈ t.ev.raised))) ∧
    (
      let stalled := p.state = 1 ∧ ∃ d ∈ s.channels, s.sideStalled p d = true
      (stalled → ∃ t : State, exec (.pairStall n) s = .next t ∧ t.pairSlot n.val = { p with state := 3 } ∧
        t.ev.raised = s.ev.raised ++ [0x078 + n.val]) ∧
      (¬ stalled → exec (.pairStall n) s = .next s)) ∧
    ((s.chan c).regs2.pairMember = true → s.cxl.up = true →
      let cons := s.pairCons (s.chan c).regs2.pairRing c
      ∃ t : State, exec (.pairRingPoll c) s = .next t ∧ onlyChan s t c ∧
        (t.chan c).regs2 = { (s.chan c).regs2 with
          pairConsumed := cons
          ringFull := decide (4096 ≤ ((s.chan c).regs2.pairProduced - cons).toNat) }) ∧
    ((s.chan c).regs2.pairMember = false ∨ s.cxl.up = false → exec (.pairRingPoll c) s = .next s))

/-- Occurrences, timeouts, claims, set, clear and window writes. An occurrence counts on the
management path and, when enabled, on the host path, where it pends on reaching COUNT; a timeout
that has passed pends it. A claim takes the lowest deliverable event of the vector and clears it, or
returns 0x3FF and counts; this is stated of a controller whose entries stand in order. Set, clear
and window writes change exactly the named bits of their word, a cleared pending bit clearing OCC; a
configuration write its fields. A vector whose set becomes non-empty sends a message or, masked,
holds it. A sleeping management core wakes on a pending event; what an awake one does of itself,
claim the lowest pending event and sleep when there is none, is the model's choice (log 89). (R422,
R423, R424, R425, R426, R427, R430, R431, R432, R433) -/
def Obligations.EventController : Prop :=
  ∀ s : State,
    (s.ev.raised = [] → exec .eventOccurrence s = .next s) ∧
    (∀ e rest, s.ev.raised = e :: rest →
      ∃ t : State, exec .eventOccurrence s = .next t ∧ t.ev.raised = rest ∧
        Smap.get ⟨0, false⟩ t.ev.mgmt e = ⟨(Smap.get ⟨0, false⟩ s.ev.mgmt e).occ + 1, true⟩ ∧
        (∀ r : BitVec 5, Smap.find? s.ev.routes e = some r →
          bitAt (t.chan (chnOf (r.toNat / 8))).core.evin (r.toNat % 8) = true) ∧
        (e < 0x3FF →
          let v := s.evOf e
          (v.enable = false → t.evOf e = v) ∧
          (v.enable = true → (t.evOf e).occ = satInc v.occ ∧
            (t.evOf e).first = (if v.seen then v.first else s.tide.count) ∧
            ((t.evOf e).pend = true ↔ v.pend = true ∨ max 1 v.count.toNat ≤ (satInc v.occ).toNat) ∧
            (t.evOf e).masked = v.masked))) ∧
    (∀ e : Nat,
      let v := s.evOf e
      let over_ := v.seen = true ∧ v.timeout ≠ 0 ∧ v.timeout.toNat ≤ v.ticks
      (over_ → e < 0x3FF → ∃ t : State, exec (.eventTimeout e) s = .next t ∧ t.evOf e = { v with pend := true } ∧
        ∀ d, d ≠ e → t.evOf d = s.evOf d) ∧
      (¬ over_ → exec (.eventTimeout e) s = .next s)) ∧
    (Smap.risingFrom 0 s.ev.evs = true → ∀ v : Fin 64,
      let takes := fun (e : Nat) => e < 0x3FF ∧ (s.evOf e).pend = true ∧ (s.evOf e).masked = false ∧
        (s.evOf e).vector.toNat = v.val
      ((∀ e, ¬ takes e) → ∃ t u : State,
        exec (.eventClaim v true) s = .next t ∧ exec (.eventClaim v false) s = .next u ∧
        t.ev = { s.ev with spur := satInc s.ev.spur } ∧ u.ev = t.ev ∧
        t.cxl.readData = 0x3FF ∧ u.cxl.readData = 0x3FF) ∧
      (∀ e, takes e → (∀ d < e, ¬ takes d) → ∃ t u : State,
        exec (.eventClaim v true) s = .next t ∧ exec (.eventClaim v false) s = .next u ∧
        fldN t.cxl.readData 0 16 = e ∧ fld t.cxl.readData 16 16 = (s.evOf e).occ ∧
        fld t.cxl.readData 32 32 = fld (s.evOf e).first 0 32 ∧
        fld u.cxl.readData 0 32 = fld t.cxl.readData 0 32 ∧ fld u.cxl.readData 32 32 = 0#32 ∧
        Smap.find? u.cxl.latched (0x50404 + 8 * v.val) = some (fld (s.evOf e).first 0 32) ∧
        (t.evOf e).pend = false ∧ (t.evOf e).occ = 0 ∧ (t.evOf e).seen = false ∧ u.ev = t.ev ∧
        ∀ d, d ≠ e → t.evOf d = s.evOf d)) ∧
    (∀ (k : Fin 32) (w : W32) (i : Instr) (f : Bool → Ev → Ev),
      (i, f) ∈ ([
        (.evcPendSet k w, fun b v => if b then { v with pend := true } else v),
        (.evcPendClr k w, fun b v => if b then v.clear else v),
        (.evcMaskSet k w, fun b v => if b then { v with masked := true } else v),
        (.evcMaskClr k w, fun b v => if b then { v with masked := false } else v),
        (.evcPendWindowWrite k w, fun b v => if b then { v with pend := true } else v.clear),
        (.evcMaskWindowWrite k w, fun b v => { v with masked := b })] : List (Instr × (Bool → Ev → Ev))) →
      ∃ t : State, exec i s = .next t ∧ { t with ev := s.ev } = s ∧ t.ev.raised = s.ev.raised ∧
        t.ev.mgmt = s.ev.mgmt ∧
        ∀ e < 0x400, t.evOf e = (if e / 32 = k.val then f (bitAt w (e % 32)) (s.evOf e) else s.evOf e)) ∧
    (∀ (e : Nat) (w : W64),
      (e < 0x3FF → ∃ t : State, exec (.evcCfgWrite e w) s = .next t ∧ (t.evOf e).count = fld w 0 16 ∧
        (t.evOf e).timeout = fld w 16 32 ∧ (t.evOf e).vector = fld w 48 6 ∧ (t.evOf e).enable = bitAt w 54 ∧
        (bitAt w 54 = false → (t.evOf e).pend = false ∧ (t.evOf e).occ = 0) ∧
        (bitAt w 54 = true → (t.evOf e).pend = (s.evOf e).pend ∧ (t.evOf e).occ = (s.evOf e).occ) ∧
        ∀ d, d ≠ e → t.evOf d = s.evOf d) ∧
      (0x3FF ≤ e → exec (.evcCfgWrite e w) s = .next s)) ∧
    (∀ v < 64, bitAt s.fullVectors v = true → bitAt s.ev.full v = false →
      ∃ l, s.deliverEvents.ev.sent = s.ev.sent ++ l ∧
        (s.ev.mayGo v = true → v ∈ l ∧ bitAt s.deliverEvents.ev.msixPba v = false) ∧
        (s.ev.mayGo v = false → v ∉ l ∧ bitAt s.deliverEvents.ev.msixPba v = true)) ∧
    (∀ n : Fin 4,
      let waits := fun (e : Nat) => (Smap.get ⟨0, false⟩ s.ev.mgmt e).pend = true
      (bitAt s.ev.asleep n.val = true → Smap.risingFrom 0 s.ev.mgmt = true →
        ((∃ e, waits e) → ∃ t : State, exec (.mgmtWake n) s = .next t ∧
          t.ev = { s.ev with asleep := setBit s.ev.asleep n.val false, mgmtIrq := t.ev.mgmtIrq } ∧
          bitAt t.ev.mgmtIrq n.val = (bitAt s.ev.mgmtIrq n.val || !bitAt s.ev.mgmtMask n.val)) ∧
        ((∀ e, ¬ waits e) → exec (.mgmtWake n) s = .next s)) ∧
      (bitAt s.ev.asleep n.val = false → s.svc.mgmtSwitch = true → exec (.mgmtWake n) s = .next s) ∧
      (bitAt s.ev.asleep n.val = false → s.svc.mgmtSwitch = false → Smap.risingFrom 0 s.ev.mgmt = true →
        (∀ e, waits e → (∀ d < e, ¬ waits d) → ∃ t : State, exec (.mgmtWake n) s = .next t ∧
          Smap.get ⟨0, false⟩ t.ev.mgmt e = ⟨0, false⟩ ∧ t.ev.asleep = s.ev.asleep ∧
          ∀ d, d ≠ e → Smap.get ⟨0, false⟩ t.ev.mgmt d = Smap.get ⟨0, false⟩ s.ev.mgmt d) ∧
        ((∀ e, ¬ waits e) → ∃ t : State, exec (.mgmtWake n) s = .next t ∧
          t.ev.asleep = setBit s.ev.asleep n.val true ∧ t.ev.mgmt = s.ev.mgmt)))

/-- A write of 1 to EVC_PEND_SET makes its event pending. In a controller whose entries stand in
order, a write to EVC_PEND_SETk makes each event whose bit is 1 pending, its OCC and the rest of its
entry unchanged; a claim that then takes it reports its number and the count as it stood, possibly
0, so that its vector is tested. (R428) -/
def Obligations.PendSetKeepsTheCount : Prop :=
  ∀ (s : State) (k : Fin 32) (w : W32) (j : Fin 32),
    let e := 32 * k.val + j.val
    e < 0x3FF → bitAt w j.val = true → Smap.risingFrom 0 s.ev.evs = true →
    ∃ t : State, exec (.evcPendSet k w) s = .next t ∧ t.evOf e = { s.evOf e with pend := true } ∧
      ∀ (v : Fin 64) (x : Ev), t.claimable v.val = some (e, x) →
        ∃ u : State, exec (.eventClaim v true) t = .next u ∧ fldN u.cxl.readData 0 16 = e ∧
          fld u.cxl.readData 16 16 = (s.evOf e).occ

/-- Registers, configuration space, mailboxes and peers. A register access of another size than the
spec allows, or misaligned, has no effect and reads zeros; read-only registers ignore writes; RW, RC
and W1C fields act as their types say; the low word of a 64-bit RC register answers, clears and
latches. Configuration requests need the link. CDAT gives one range for each stack of the grade, in
a layout that is the model's (log 90). A mailbox takes its answer, empties on an abort, and flags an
object it cannot take. PEER_SEND writes the packet to each valid peer; only the right requester may
write a peer reply ring. The reply ring starts at 0 when enabled, and its consumer moves only within
the ring. (R12, R389, R391, R418, R446, R447, R448, R449, R536, R537) -/
def Obligations.HostAccesses : Prop :=
  ∀ s : State,
    (∀ (off size : Nat) (v : W64), (size ≠ 4 ∧ size ≠ 8) ∨ off % size ≠ 0 →
      exec (.registerWrite off size v) s = .next s) ∧
    (∀ (off size : Nat), (size ≠ 4 ∧ size ≠ 8 ∧ size ≠ 16 ∧ size ≠ 32 ∧ size ≠ 64) ∨ off % size ≠ 0 →
      exec (.readClear off size) s = .next { s with cxl := { s.cxl with readData := 0 } }) ∧
    (s.on 79 = true →
      (∀ v : W64, exec (.registerWrite 0xA0020 4 v) s =
          .next { s with flt := { s.flt with cadence := fld v 0 32 } } ∧
        exec (.registerWrite 0xA0010 4 v) s =
          .next { s with flt := { s.flt with lostBit := s.flt.lostBit && !bitAt v 1 } } ∧
        ∀ off ∈ [0x20020, 0x40000, 0xA0000], exec (.registerWrite off 8 v) s = .next s) ∧
      exec (.readClear 0x20038 4) s = .next { s with
        cmd := { s.cmd with crcBad := 0 }, cxl := { s.cxl with readData := s.cmd.crcBad.setWidth 64 } } ∧
      ∃ t u : State, exec (.latchedLowRead 0x10020) s = .next t ∧ exec (.latchedLowRead 0x10024) t = .next u ∧
        t.cxl.readData = (fld s.cxl.hdmErr 0 32).setWidth 64 ∧ t.cxl.hdmErr = 0 ∧
        u.cxl.readData = (fld s.cxl.hdmErr 32 32).setWidth 64 ∧ u.cxl.hdmErr = 0) ∧
    (∀ (write : Bool) (off : Nat) (val : W32),
      (s.cxl.up = false → exec (.configRequest write off val) s = .next s) ∧
      (s.cxl.up = true → off % 4 = 0 → off < 4096 →
        ∃ t u : State, exec (.configRequest true off val) s = .next t ∧
          exec (.configRequest false off val) s = .next u ∧
          Smap.find? t.cxl.cfgSpace off = some val ∧
          { u with cxl := { u.cxl with readData := s.cxl.readData } } = s ∧
          u.cxl.readData = (s.configWord off).setWidth 64)) ∧
    (∀ m : Fin 3,
      (∀ index : Byte, exec (.doeDiscovery m index) s = .next (s.answer m.val (doeDiscover m.val index.toNat))) ∧
      exec (.doeAbort m) s = .next (s.answer m.val []) ∧
      (∀ (p : Byte) (len : Nat),
        (4096 < len ∨ (p.toNat ≠ 0 ∧ p.toNat ≠ m.val + 1) →
          ∃ t : State, exec (.doeObjectDiscarded m p len) s = .next t ∧
            (t.cxl.mailboxes.getD m.val ⟨[], false⟩).error = true) ∧
        (len ≤ 4096 → p.toNat = 0 ∨ p.toNat = m.val + 1 → exec (.doeObjectDiscarded m p len) s = .next s))) ∧
    (∀ entry : W16,
      let ranges := if s.four then 8 else 6
      (1 ≤ entry.toNat → entry.toNat ≤ ranges → exec (.doeCdat entry) s =
        .next (s.answer 0 ([0x00, 0x00] ++ bytesLE 2 (entry.toNat + 1) ++ dsmas (entry.toNat - 1)))) ∧
      (entry.toNat = 0 ∨ ranges < entry.toNat →
        exec (.doeCdat entry) s = .next (s.answer 0 (Config.cdatEntry s.four entry.toNat)))) ∧
    (∀ req : List Byte, req.length ≤ 4096 →
      exec (.doeCompliance req) s = .next (s.answer 2 (Config.complianceReply req))) ∧
    (∀ mask : W16,
      (s.cxl.peerBusy = true → exec (.peerSend mask) s = .next s) ∧
      (s.cxl.peerBusy = false → ∃ t : State, exec (.peerSend mask) s = .next t ∧ t.cxl.peerMask = mask ∧
        (∀ n < 16, bitAt t.cxl.peerSkipped n = (bitAt mask n && !(s.cxl.p2p && (s.peerAt n).valid))) ∧
        ((∀ n < 16, bitAt mask n = true → s.cxl.p2p = false ∨ (s.peerAt n).valid = false) → t.host = s.host) ∧
        (∀ n < 16, (∀ i < 16, bitAt mask i = decide (i = n)) → s.cxl.p2p = true → (s.peerAt n).valid = true →
          let seq := s.peerNext n
          let slot := (s.peerAt n).win.toNat + 256 * (seq.toNat % 4096)
          let bs := bytesLE 224 (stampPacket s.cxl.peerPkt seq).toNat
          t.host = ((s.hostPut (slot + 8) (bs.drop 8)).hostPut slot (bs.take 8)).host))) ∧
    (∀ (req : W16) (n off : Nat) (data : List Byte), off + data.length ≤ 2 ^ 20 → off < 2 ^ 20 →
      (s.cxl.p2p = true → n < 16 → (s.peerAt n).reqId = req →
        exec (.peerReplyWrite req (2 ^ 20 * n + off) data) s =
          .next (s.partWrite 8 (plainWrites (s.cxl.carvePeer.toNat + (2 ^ 20 * n + off)) data))) ∧
      (s.cxl.p2p = false ∨ 16 ≤ n ∨ (s.peerAt n).reqId ≠ req →
        ∃ t : State, exec (.peerReplyWrite req (2 ^ 20 * n + off) data) s = .next t ∧
          t.cxl.hdmErr = s.cxl.hdmErr + 1 ∧ t.mem = s.mem)) ∧
    (∀ w : W32,
      ∃ t : State, exec (.replyRingEnable w) s = .next t ∧ t.cmd.enable = bitAt w 31 ∧
        (s.cmd.enable = true → t.cmd.ringLog2 = s.cmd.ringLog2 ∧ t.cmd.prod = s.cmd.prod ∧ t.host = s.host) ∧
        (s.cmd.enable = false → t.cmd.ringLog2 = fld w 0 5) ∧
        (s.cmd.enable = false → bitAt w 31 = true → s.cmd.held = [] → t.cmd.prod = 0 ∧ t.cmd.cons = 0)) ∧
    (∀ w : W64,
      (w.toNat + s.cmd.ringSize < s.cmd.prod.toNat ∨ s.cmd.prod.toNat < w.toNat →
        exec (.replyConsWrite w) s = .next s) ∧
      (s.cmd.prod.toNat ≤ w.toNat + s.cmd.ringSize → w.toNat ≤ s.cmd.prod.toNat → s.cmd.held = [] →
        exec (.replyConsWrite w) s = .next { s with cmd := { s.cmd with cons := w } }))

/-- SPDM, noise health and the recovery window. GET_VERSION starts a connection; GET_CAPABILITIES,
NEGOTIATE_ALGORITHMS and the later requests follow in order, else ERROR. GET_DIGESTS,
GET_CERTIFICATE, CHALLENGE and GET_MEASUREMENTS answer for slot 0, the last two signed with the
alias key over a fresh nonce; KEY_EXCHANGE opens a session, FINISH with a good MAC establishes it,
END_SESSION ends it. The codes and layouts are the model's reading of the standard (log 30). A noise
failure is kept and shown. In recovery, and only there, the window gathers an image and its end
boots again. (R480, R482, R486, R488, R495, R496) -/
def Obligations.Spdm : Prop :=
  ∀ s : State,
    (∃ t : State, exec .getVersion s = .next t ∧ t.sec.spdm.versioned = true ∧ t.sec.spdm.negotiated = false ∧
      { t with cxl := s.cxl, sec := { t.sec with spdm := s.sec.spdm } } = s) ∧
    (s.sec.spdm.versioned = true → ∃ t : State, exec .getCapabilities s = .next t ∧ t.sec.spdm.capable = true) ∧
    (s.sec.spdm.versioned = false → exec .getCapabilities s = .next (s.spdmError 0x04)) ∧
    (∀ a : SpdmAlgs,
      (s.sec.spdm.capable = true → ∃ t : State, exec (.negotiateAlgorithms a) s = .next t ∧
        t.sec.spdm.negotiated = (a.ecdsaP521 && a.sha512) ∧ t.sec.spdm.keyAgreed = (a.secp521r1 && a.aes256gcm)) ∧
      (s.sec.spdm.capable = false → exec (.negotiateAlgorithms a) s = .next (s.spdmError 0x04))) ∧
    (s.sec.spdm.negotiated = false → ∀ i : Instr, ∀ (sl ix : Byte) (off len : W16) (n : BitVec 256) (sg : Bool)
      (x : List Byte),
      i ∈ [.getDigests, .getCertificate sl off len, .challenge sl n, .getMeasurements ix sg n, .keyExchange sl x] →
      exec i s = .next (s.spdmError 0x04)) ∧
    (s.sec.spdm.negotiated = true →
      exec .getDigests s = .next (s.answer 1 ([0x01, 1] ++ sha512Bytes s.certChain)) ∧
      (∀ off len : W16, off.toNat ≤ s.certChain.length →
        let part := (s.certChain.drop off.toNat).take len.toNat
        exec (.getCertificate 0 off len) s = .next (s.answer 1 ([0x02, 0] ++ bytesLE 2 part.length ++
          bytesLE 2 (s.certChain.length - off.toNat - part.length) ++ part))) ∧
      (∀ off len : W16, s.certChain.length < off.toNat →
        exec (.getCertificate 0 off len) s = .next (s.spdmError 0x01)) ∧
      (∀ (d : State) (n : BitVec 256) (x : List Byte), s.drbgDraw 4 = (d, none) →
        exec (.challenge 0 n) s = .next (d.spdmError 0x05) ∧
        (s.sec.spdm.keyAgreed = true → exec (.keyExchange 0 x) s = .next (d.spdmError 0x05))) ∧
      (∀ x : List Byte, s.sec.spdm.keyAgreed = false → exec (.keyExchange 0 x) s = .next (s.spdmError 0x04)) ∧
      (∀ (ix : Byte) (sg : Bool) (n : BitVec 256), s.measureAnswer ix = none →
        exec (.getMeasurements ix sg n) s = .next (s.spdmError 0x01)) ∧
      (∀ (sl : Byte) (off len : W16) (n : BitVec 256) (x : List Byte), sl ≠ 0 →
        exec (.getCertificate sl off len) s = .next (s.spdmError 0x01) ∧
        exec (.challenge sl n) s = .next (s.spdmError 0x01) ∧
        exec (.keyExchange sl x) s = .next (s.spdmError 0x01)) ∧
      (∀ (n : BitVec 256) (own : BitVec 256) (d : State), s.drbgDraw 4 = (d, some own) →
        let body := [0x03, 0] ++ sha512Bytes s.certChain ++ bytesLE 32 own.toNat
        exec (.challenge 0 n) s = .next (d.answer 1 (body ++ signed s.sec.aliasSeed (bytesLE 32 n.toNat ++ body)))) ∧
      (∀ (ix : Byte) (n : BitVec 256) (bs : List Byte), s.measureAnswer ix = some bs →
        exec (.getMeasurements ix false n) s = .next (s.answer 1 ([0x60] ++ bs)) ∧
        ∀ (own : BitVec 256) (d : State), s.drbgDraw 4 = (d, some own) →
          let body := [0x60] ++ bs ++ bytesLE 32 own.toNat
          exec (.getMeasurements ix true n) s =
            .next (d.answer 1 (body ++ signed s.sec.aliasSeed (bytesLE 32 n.toNat ++ body)))) ∧
      (∀ (x : List Byte) (own : BitVec 256) (d : State), s.sec.spdm.keyAgreed = true →
        s.drbgDraw 4 = (d, some own) →
        ∃ (t : State) (id : W32), exec (.keyExchange 0 x) s = .next t ∧
          t.sec.spdm.sessions = s.sec.spdm.sessions ++ [(id, false)])) ∧
    (∀ id : W32,
      ((∃ e ∈ s.sec.spdm.sessions, e.1 = id) →
        ∃ t u v : State, exec (.finish id true) s = .next t ∧ exec (.finish id false) s = .next u ∧
          exec (.endSession id) s = .next v ∧ (id, true) ∈ t.sec.spdm.sessions ∧
          (∀ e ∈ u.sec.spdm.sessions, e.1 ≠ id) ∧ (∀ e ∈ v.sec.spdm.sessions, e.1 ≠ id) ∧
          ∀ e, e.1 ≠ id → (e ∈ t.sec.spdm.sessions ↔ e ∈ s.sec.spdm.sessions) ∧
            (e ∈ u.sec.spdm.sessions ↔ e ∈ s.sec.spdm.sessions) ∧
            (e ∈ v.sec.spdm.sessions ↔ e ∈ s.sec.spdm.sessions)) ∧
      ((∀ e ∈ s.sec.spdm.sessions, e.1 ≠ id) → ∀ ok : Bool,
        let code : Byte := if s.sec.spdm.resynch.contains id then 0x43 else 0x02
        exec (.finish id ok) s = .next (s.spdmError code) ∧ exec (.endSession id) s = .next (s.spdmError code))) ∧
    exec .noiseHealthFail s = .next { s with sec := { s.sec with healthy := false, rngFail := true } } ∧
    (∀ (off : W32) (data : List Byte),
      (s.sec.recovery = false → exec (.sidebandRecoveryWrite off data) s = .next s) ∧
      (s.sec.recovery = true → off.toNat = s.sec.transfer.length → off ≠ BitVec.allOnes 32 →
        exec (.sidebandRecoveryWrite off data) s = .next { s with
          sec := { s.sec with transfer := s.sec.transfer ++ data.take 252 } }) ∧
      (s.sec.recovery = true → off.toNat < s.sec.transfer.length → off ≠ BitVec.allOnes 32 →
        exec (.sidebandRecoveryWrite off data) s = .next s) ∧
      (s.sec.recovery = true → off = BitVec.allOnes 32 →
        ∃ t : State, exec (.sidebandRecoveryWrite off data) s = .next t ∧
          t.sec.flashA = ⟨s.sec.transfer, false⟩ ∧
          (t.sec.recovery = false → t.svc.phase = 2) ∧ (t.sec.recovery = true → t.svc.phase = s.svc.phase)))

/-- Stretching, temperatures, ceilings, drift, rail and switched-off channels. A firing detector of
a powered region raises the stretch by 2 up to KMAX, none lowers it by 1, and both are counted.
Readings are kept with the hottest of each kind. At a multiple of 1,000 of the count, once at each,
the ceilings move as their limits say. A step that waits for its rail is taken when the rail has
arrived, and counted. Drift below WARN or HOLD has a recalibration asked for. PWR_CHOFF switches off
retired channels and no other. (R40, R42, R460, R461, R462, R463, R464, R465, R466, R468, R469,
R472) -/
def Obligations.ClocksAndPower : Prop :=
  (∀ (s : State) (f : BitVec 37),
    let fires := fun r => bitAt f r && bitAt s.pwr.domains (regionDomain r)
    ∃ t : State, exec (.droopStretch f) s = .next t ∧ { t with pwr := s.pwr } = s ∧
      ((∃ r < 37, fires r = true) → t.pwr.k = min s.pwr.kmaxUsed (s.pwr.k + 2)) ∧
      ((∀ r < 37, fires r = false) → t.pwr.k = s.pwr.k - 1) ∧
      t.pwr.stretch = (if t.pwr.k = 0 then s.pwr.stretch else s.pwr.stretch + 1) ∧
      (∀ r < 37, bitAt t.pwr.droopSrc r = (bitAt s.pwr.droopSrc r || fires r)) ∧ t.pwr.step = s.pwr.step) ∧
  (∀ (s : State) (temps : List W16),
    ∃ t : State, exec (.sensorRead temps) s = .next t ∧
      (∀ i < 54, t.pwr.temps.getD i 0 = if s.hasSensor i = true then temps.getD i 0 else 0) ∧
      s.pwr.hotC.toInt ≤ t.pwr.hotC.toInt ∧ s.pwr.hotS.toInt ≤ t.pwr.hotS.toInt ∧
      (∀ i < 37, s.hasSensor i = true → (temps.getD i 0).toInt ≤ t.pwr.hotC.toInt) ∧
      (∀ i, 37 ≤ i → i < 53 → s.hasSensor i = true → (temps.getD i 0).toInt ≤ t.pwr.hotS.toInt)) ∧
  (∀ (s : State) (mean : W32),
    let p := s.pwr
    let c := p.hotC.toInt
    let st := p.hotS.toInt
    (s.tide.count.toNat % 1000 ≠ 0 ∨ p.evalAt = some s.tide.count → exec (.ceilingEvaluate mean) s = .next s) ∧
    (s.tide.count.toNat % 1000 = 0 → p.evalAt ≠ some s.tide.count →
      ∃ t : State, exec (.ceilingEvaluate mean) s = .next t ∧ t.pwr.avg = mean ∧
        t.pwr.peak.toNat = max p.peak.toNat mean.toNat ∧ { t with pwr := s.pwr } = s ∧
        (p.tLimit + 80 ≤ c → t.pwr.tceil.toNat = p.tceil.toNat - 2) ∧
        (c < p.tLimit + 80 → p.tLimit ≤ c ∨ p.sLimit ≤ st → t.pwr.tceil.toNat = p.tceil.toNat - 1) ∧
        (c < p.tLimit - p.hystUsed → st < p.sLimit - p.hystUsed → p.coolRun < 15 → t.pwr.tceil = p.tceil) ∧
        (c < p.tLimit - p.hystUsed → st < p.sLimit - p.hystUsed → 15 ≤ p.coolRun →
          t.pwr.tceil.toNat = min 16 (p.tceil.toNat + 1)) ∧
        (p.capUsed * 1000 < mean.toNat → t.pwr.pceil.toNat = p.pceil.toNat - 1) ∧
        (mean.toNat ≤ p.capUsed * 1000 → p.capUsed * 1000 < mean.toNat + p.headroom.toNat * 1000 →
          t.pwr.pceil = p.pceil ∧ t.pwr.capRun = 0) ∧
        (mean.toNat + p.headroom.toNat * 1000 ≤ p.capUsed * 1000 →
          t.pwr.pceil.toNat = if 15 ≤ p.capRun then min 16 (p.pceil.toNat + 1) else p.pceil.toNat))) ∧
  (∀ s : State,
    (s.pwr.stepDue = false → exec .railArrive s = .next s) ∧
    (s.pwr.stepDue = true → s.pwr.step.toNat < s.pwr.wanted → s.pwr.railUv < railOf s.pwr.wanted →
      exec .railArrive s = .next s) ∧
    (s.pwr.stepDue = true → s.pwr.step.toNat < s.pwr.wanted → railOf s.pwr.wanted ≤ s.pwr.railUv →
      ∃ t : State, exec .railArrive s = .next t ∧ t.pwr.step.toNat = s.pwr.wanted ∧ t.pwr.stepDue = false ∧
        t.pwr.stepLate = satInc s.pwr.stepLate ∧ t.cy = s.cy ∧ t.chans = s.chans)) ∧
  (∀ (s : State) (r : Fin 37) (m : Byte),
    (s.hasRegion r.val = false → exec (.clockDrift r m) s = .next s) ∧
    (s.hasRegion r.val = true → ∃ t : State, exec (.clockDrift r m) s = .next t ∧
      t.region r.val = { s.region r.val with margin := m, drift := decide (m.toNat < s.pwr.warn.toNat) } ∧
      (m.toNat < s.pwr.warn.toNat ∨ m.toNat < s.pwr.holdMargin.toNat → t.hasTask (.calibrate r) = true) ∧
      (s.pwr.warn.toNat ≤ m.toNat → s.pwr.holdMargin.toNat ≤ m.toNat → { t with pwr := s.pwr } = s))) ∧
  (∀ (s : State) (mask : BitVec 4),
    ∃ t : State, exec (.channelPowerOff mask) s = .next t ∧ ∀ c ∈ s.channels,
      (bitAt mask c.val = false ∨ (s.chan c).gate.st ≠ .retired → t.chan c = s.chan c) ∧
      (bitAt mask c.val = true → (s.chan c).gate.st = .retired → (s.chan c).regs2.slackEntered = false →
        bitAt s.pwr.chOff c.val = false →
        bitAt t.pwr.chOff c.val = true ∧ (∀ d ∈ chanDomains c, bitAt t.pwr.domains d = false) ∧
        (t.chan c).gate.st = .retired ∧ (t.chan c).cells = [] ∧ (t.chan c).regs.out0 = (s.chan c).regs.out0 ∧
        (t.chan c).regs.out1 = (s.chan c).regs.out1))

/-- Training, recovery and loss of the link, and orderly removal. A part in phase 3 or later, out of
reset and recovery, whose link is down or is to train fully, trains it: x16 on healthy lanes unless
it was narrowed before, x8 on the healthy half, and not at all when both halves have a bad lane.
Recoveries are counted, and narrow the link when too many fall within a second. Link loss changes
only the link; after the limit firmware stops every channel. A quiesce stops the watch and the
channels, and ends, the line released and RTR_N asserted, once everything has drained. (R437, R438,
R439, R447, R452, R453, R456) -/
def Obligations.LinkAndRemoval : Prop :=
  ∀ s : State,
    (∀ (bad : W16) (slow : Bool),
      let may := s.mdl.regulators = true ∧ s.mdl.perstN = true ∧ s.sec.recovery = false ∧ 3 ≤ s.svc.phase.toNat ∧
        (s.cxl.up = false ∨ s.cxl.retrainFull = true)
      (¬ may → exec (.linkUp bad slow) s = .next s) ∧
      (may → ∃ t : State, exec (.linkUp bad slow) s = .next t ∧ t.cxl.laneBad = bad ∧ t.cxl.retrainFull = false ∧
        (bad = 0 → s.cxl.narrow = false ∨ s.cxl.retrainFull = true →
          t.cxl.width = 16 ∧ t.cxl.up = true ∧ t.cxl.narrow = false) ∧
        (bad = 0 → s.cxl.narrow = true → s.cxl.retrainFull = false →
          t.cxl.width = 8 ∧ t.cxl.half = false ∧ t.cxl.up = true) ∧
        (bad ≠ 0 → fld bad 0 8 = 0#8 → t.cxl.width = 8 ∧ t.cxl.half = false ∧ t.cxl.up = true) ∧
        (fld bad 0 8 ≠ 0#8 → fld bad 8 8 = 0#8 → t.cxl.width = 8 ∧ t.cxl.half = true ∧ t.cxl.up = true) ∧
        (fld bad 0 8 ≠ 0#8 → fld bad 8 8 ≠ 0#8 → t.cxl.width = 0 ∧ t.cxl.up = false) ∧
        t.mem = s.mem ∧ t.chans = s.chans)) ∧
    (s.cxl.up = false → exec .linkRecovery s = .next s ∧ exec .linkLoss s = .next s) ∧
    (s.cxl.up = true →
      (∃ t : State, exec .linkRecovery s = .next t ∧ { t with cxl := s.cxl } = s ∧
        t.cxl.recoveries = satInc s.cxl.recoveries ∧
        (let recent := (s.cxl.recovTicks.filter fun n => decide (n < 1000000)).length + 1
         let many := s.cxl.degLimit ≠ 0 ∧ s.cxl.degLimit.toNat ≤ recent
         (many → s.cxl.width = 16 → t.cxl.width = 8 ∧ t.cxl.narrow = true) ∧ (¬ many → t.cxl.width = s.cxl.width))) ∧
      ∃ t : State, exec .linkLoss s = .next t ∧ { t with cxl := s.cxl } = s ∧ t.cxl.up = false ∧ t.cxl.width = 0 ∧
        t.cxl.downTicks = 0) ∧
    (let late := s.cxl.up = false ∧ s.cxl.downLimit.toNat ≤ s.cxl.downTicks ∧ s.cxl.linkLost = false
     (¬ late → exec .linkDownLimit s = .next s) ∧
     (late → ∃ t : State, exec .linkDownLimit s = .next t ∧ t.cxl.linkLost = true ∧
       ∀ c ∈ s.channels, t.chan c = (if s.busyChan c = true then
         { s.chan c with gate := { (s.chan c).gate with stopNow := true } } else s.chan c))) ∧
    exec .retrainFull s = .next { s with cxl := { s.cxl with retrainFull := true } } ∧
    (s.cxl.quiescing = true ∨ s.cxl.quiesced = true → exec .quiesce s = .next s) ∧
    (s.cxl.quiescing = false → s.cxl.quiesced = false →
      ∃ t : State, exec .quiesce s = .next t ∧ t.cmd.examine = false ∧ t.watchOpen = false ∧
        (s.serviceIdle = true → ∀ c ∈ s.channels, s.busyChan c = true → (t.chan c).gate.stopNow = true) ∧
        (s.drained = true → s.snoopLines = [] →
          t.cxl.quiesced = true ∧ t.mdl.rtr = true ∧ t.tide.driving = false) ∧
        (s.downLimitPassed = true → t.cmd.held = [] ∧ t.host.posted = []) ∧
        (s.drained = false → s.cxl.up = true → t.cxl.quiescing = true ∧ t.mdl.rtr = s.mdl.rtr))

/-- Insertion, power, trips, reset, the phases of bring-up and the TAP. Power good and PWR_EN start
the regulators; removal, an input fault, a thermal trip and PWR_EN low lose all state but fuses and
flash. A device reset clears the part but for these and the counts since power-up, the count
restarting at 0. Each phase ends in the next: the boot ROM takes the active slot, else the other,
else recovery; training zeroes HBM; calibration leaves 40 % and step 16; the last makes the part
ready. A failure ends in FAILED. The TAP takes all instructions in recovery or FAILED only. (R454,
R470, R480, R481, R500, R501, R502, R503, R522, R523, R524, R530) -/
def Obligations.ModuleAndBringUp : Prop :=
  (∀ (s : State) (ample : Bool),
    (s.mdl.inserted = true → exec (.moduleInsert ample) s = .next s) ∧
    (s.mdl.inserted = false → ∃ t : State, exec (.moduleInsert ample) s = .next t ∧ t.mdl.inserted = true ∧
      t.mdl.ample = ample ∧ t.mdl.controllerOn = false ∧ t.svc.phase = 0 ∧ t.sec.flashA = s.sec.flashA)) ∧
  (∀ s : State,
    (s.mdl.inserted = false ∨ s.mdl.pwrEn = true → exec .pwrEnAssert s = .next s) ∧
    (s.mdl.inserted = true → s.mdl.pwrEn = false → ∃ t : State, exec .pwrEnAssert s = .next t ∧
      t.mdl.pwrEn = true ∧ t.mdl.thermtrip = false ∧
      (s.mdl.ample = true → s.mdl.controllerOn = false → s.mdl.latchedOff = false →
        t.mdl.controllerOn = true ∧ t.svc.phase = 1)) ∧
    (∃ t : State, exec .inputReaches46v s = .next t ∧ t.mdl.ample = true ∧
      (s.mdl.inserted = true → s.mdl.pwrEn = true → s.mdl.controllerOn = false → s.mdl.latchedOff = false →
        s.mdl.thermtrip = false → t.mdl.controllerOn = true ∧ t.svc.phase = 1))) ∧
  (∀ (s : State) (i : Instr) (gone : Prop),
    (i, gone) ∈ ([(.pwrEnDeassert, s.mdl.pwrEn = true), (.surpriseRemoval, s.mdl.inserted = true),
      (.inputFault .under, s.mdl.controllerOn = true), (.inputFault .over, s.mdl.controllerOn = true),
      (.inputFault .current, s.mdl.controllerOn = true)] : List (Instr × Prop)) →
    gone → ∃ t : State, exec i s = .next t ∧ t.svc.phase = 0 ∧ t.mdl.controllerOn = false ∧
      t.mdl.regulators = false ∧ t.mem = State.reset.mem ∧ t.chans = State.reset.chans ∧ t.tide.count = 0 ∧
      t.sec.flashA = s.sec.flashA ∧ t.sec.flashB = s.sec.flashB ∧ t.sec.fuseRecs = s.sec.fuseRecs ∧
      t.sec.svnBits = s.sec.svnBits ∧ t.pending = s.pending) ∧
  (∀ s : State,
    (s.mdl.pwrEn = false → exec .pwrEnDeassert s = .next s) ∧
    (s.mdl.inserted = false → exec .surpriseRemoval s = .next s) ∧
    (∃ t : State, exec (.inputFault .current) s = .next t ∧
      t.mdl.latchedOff = (s.mdl.latchedOff || s.mdl.pwrEn)) ∧
    (∃ t u : State, exec (.inputFault .under) s = .next t ∧ exec (.inputFault .over) s = .next u ∧
      t.mdl.ample = false ∧ u.mdl.ample = false) ∧
    (∀ n : Fin 54,
      (s.mdl.regulators = true → s.hasSensor n.val = true → ∃ t : State, exec (.thermtrip n) s = .next t ∧
        t.mdl.thermtrip = true ∧ t.mdl.regulators = false ∧ t.mdl.controllerOn = false ∧ t.svc.phase = 0 ∧
        t.mem = State.reset.mem ∧ t.sec.flashA = s.sec.flashA) ∧
      (s.mdl.regulators = false ∨ s.hasSensor n.val = false → exec (.thermtrip n) s = .next s)) ∧
    (s.mdl.regulators = true → ∃ t : State, exec .deviceReset s = .next t ∧ t.tide.count = 0 ∧ t.svc.phase = 1 ∧
      t.mdl.perstN = false ∧ t.mdl.rtr = true ∧ t.mdl.regulators = true ∧ t.mem = State.reset.mem ∧
      t.cmd = State.reset.cmd ∧ t.sec.flashA = s.sec.flashA ∧ t.job.rcptSeq = s.job.rcptSeq ∧
      t.svc.deferred = s.svc.deferred ∧ t.ev = State.reset.ev) ∧
    (s.mdl.regulators = false → exec .deviceReset s = .next { s with mdl := { s.mdl with perstN := false } }) ∧
    (s.mdl.perstN = true → exec .perstNDeassert s = .next s) ∧
    (s.mdl.perstN = false → ∃ t : State, exec .perstNDeassert s = .next t ∧ t.mdl.perstN = true ∧
      (s.mdl.regulators = true → t.svc.phase = 2 ∧ t.mdl.rtr = false) ∧
      (s.mdl.regulators = false → t.svc.phase = s.svc.phase))) ∧
  (∀ (s : State) (env : BringupEnv),
    (s.svc.phase = 1 → s.mdl.regulators = false → ∃ t : State, exec (.bringupPhaseEnd env) s = .next t ∧
      t.mdl.regulators = true ∧ t.svc.phase = (if s.mdl.perstN then 2 else 1) ∧
      ∀ d, 68 ≤ d → d < 80 → bitAt t.pwr.domains d = true) ∧
    (s.svc.phase = 1 → s.mdl.regulators = true → exec (.bringupPhaseEnd env) s = .next s) ∧
    (s.svc.phase = 2 → s.badFuses = 0 → ∃ t : State, exec (.bringupPhaseEnd env) s = .next t ∧
      let good := fun b => s.fwCheck (s.slotBytes b) = 0
      let a := s.activeSlot
      (good a → t.svc.phase = 3 ∧ t.sec.slotB = a ∧ t.sec.mMgmt = fwMeasure (s.slotBytes a) 2 ∧
        t.sec.fallback = false ∧ t.sec.recovery = false) ∧
      (¬ good a → good (!a) → t.svc.phase = 3 ∧ t.sec.slotB = (!a) ∧ t.sec.fallback = true ∧
        t.sec.recovery = false) ∧
      (¬ good a → ¬ good (!a) → t.svc.phase = 0xF ∧ t.svc.failPhase = 2 ∧ t.sec.recovery = true)) ∧
    (s.svc.phase = 2 → s.badFuses ≠ 0 → ∃ t : State, exec (.bringupPhaseEnd env) s = .next t ∧
      t.svc.phase = 0xF ∧ t.svc.failPhase = 2 ∧ t.sec.fuseBad = s.badFuses ∧ t.sec.recovery = true) ∧
    (s.svc.phase = 3 → ∃ t : State, exec (.bringupPhaseEnd env) s = .next t ∧ t.svc.phase = 4 ∧
      t.mem.wtab = [] ∧ t.mem.tdt = [] ∧ t.flt.prod = 0 ∧ t.flt.cons = 0) ∧
    (s.svc.phase = 4 → ∃ t : State, exec (.bringupPhaseEnd env) s = .next t ∧ t.svc.phase = 5) ∧
    (s.svc.phase = 5 → ∃ t : State, exec (.bringupPhaseEnd env) s = .next t ∧ t.svc.phase = 6 ∧
      t.mem.hdm = Mem.empty ∧ t.svc.trainTries = env.tries ∧
      ∀ n : Fin 8, s.hasMsd n = true → (t.msd n.val).trained = true ∧ (t.msd n.val).bwLines = []) ∧
    (s.svc.phase = 6 → ∃ t : State, exec (.bringupPhaseEnd env) s = .next t ∧ t.svc.phase = 7 ∧ t.pwr.step = 16 ∧
      ∀ r < 37, s.hasRegion r = true → 40 ≤ (t.region r).margin.toNat ∧ (t.region r).calibrating = false) ∧
    (s.svc.phase = 7 → ∃ t : State, exec (.bringupPhaseEnd env) s = .next t ∧ t.svc.phase = 8 ∧
      t.cmd.ready = true ∧ t.cxl.memActive = true ∧
      ∀ c ∈ s.channels, (t.chan c).cells = [] ∧ (t.chan c).regs.colmap = s.sec.spareMaps.get c) ∧
    (s.svc.phase = 0 ∨ 8 ≤ s.svc.phase.toNat → exec (.bringupPhaseEnd env) s = .next s) ∧
    (∀ die : BitVec 4,
      (1 ≤ s.svc.phase.toNat → s.svc.phase.toNat ≤ 7 → ∃ t : State, exec (.bringupFailed die) s = .next t ∧
        t.svc.phase = 0xF ∧ t.svc.failPhase = s.svc.phase ∧ t.svc.failUnit = die ∧
        (s.svc.phase ≠ 2 → t.sec = s.sec)) ∧
      (s.svc.phase = 0 ∨ 8 ≤ s.svc.phase.toNat → exec (.bringupFailed die) s = .next s)) ∧
    (∀ op : TapOp, exec (.tapInstruction op) s = .next { s with mdl := { s.mdl with
      tap := if s.sec.recovery = true ∨ s.svc.phase = 0xF ∨ op = .idcode then op else .bypass } }))

/-- The tide count, loss and the end of a hold. From phase 2 on a tick, after what was owed from the
boundary before, advances the count by one, or by the jump of a promotion, which drives the line
with FIRST set; every timer advances by one in either case; before phase 2 nothing happens. An old
manager that sees no tick after its handover's mark takes the role back. A locked worker with 16
missing ticks declares loss and holds; the hold ends at the boundary that the lock named. (R36, R37,
R42, R57, R59, R60, R61, R63, R501) -/
def Obligations.TideTicks : Prop :=
  ∀ s : State,
    let u := s.settle
    (∀ slot, s.tideRuns = false → exec (.tideTick slot) s = .next s) ∧
    (∀ slot, s.tideRuns = true → ∃ t : State, exec (.tideTick slot) s = .next t ∧
      (u.line.resume = none → t.tide.count = u.tide.count + 1) ∧
      (∀ r, u.line.resume = some r → t.tide.count = r ∧ t.line.resume = none ∧ t.line.firstFrame = true ∧
        (u.line.pendingFail = false → t.tide.role = rlMANAGER ∧ t.tide.driving = true ∧ t.tide.locked = false)) ∧
      (u.line.resume = none → u.line.pendingFail = true → slot = none → t.tide.role = rlMANAGER ∧
        t.tide.handoverFail = true ∧ t.line.driveDue = true ∧ t.line.sendFrom = t.tide.count + 1) ∧
      t.recov.ceTicks = u.recov.ceTicks + 1 ∧ t.recov.saveTicks = u.recov.saveTicks + 1 ∧
      ∀ c ∈ s.channels, (t.chan c).gate.openTicks = (u.chan c).gate.openTicks +
        (if (u.chan c).gate.st = .gate ∧ ((u.chan c).gate.phase = .opening ∨ (u.chan c).gate.phase = .waitGate)
          then 1 else 0)) ∧
    (s.tideRuns = false ∨ s.line.resume = none → exec .tidePromoteJump s = .next s) ∧
    (∀ r, s.tideRuns = true → s.line.resume ≠ none → u.line.resume = some r →
      ∃ t : State, exec .tidePromoteJump s = .next t ∧ t.tide.count = r ∧ t.line.firstFrame = true) ∧
    (let lost := s.tide.role = rlWORKER ∧ s.tide.locked = true ∧ 16 ≤ s.line.missRun
     (¬ lost → exec .tideLoss s = .next s) ∧
     (lost → ∃ t : State, exec .tideLoss s = .next t ∧ t.tide.locked = false ∧ t.tide.loss = true ∧
       t.tide.hold = true ∧ t.tide.lossAt = s.tide.count ∧ t.tide.count = s.tide.count ∧
       0x008 ∈ t.ev.raised ∧ ∀ n o, t.orderAt n = some o → o.typ ≠ otHANDOVER)) ∧
    (∀ r, s.line.releaseAt = some r → r.toNat ≤ s.tide.count.toNat →
      ∃ t : State, exec .tideHoldRelease s = .next t ∧ t.tide.hold = false ∧ t.line.releaseAt = none ∧
        t.tide.count = s.tide.count) ∧
    ((∀ r, s.line.releaseAt = some r → s.tide.count.toNat < r.toNat) → exec .tideHoldRelease s = .next s)

/-- Frames, and orders at their marks. A frame that fails its checks is discarded and counted. An
unlocked receiver locks on a good one whose count is not below its own, taking that count; one below
it only sets AHEAD. A locked one takes its orders: those it may not act on are ignored, counted or
late, the others stored once in a free slot. A promoted device takes no frame before its jump. An
order that is due and has none before it acts: a halt its channels, a step the clock, a window
opens, the manager role passes. (R38, R39, R40, R41, R48, R49, R51, R56, R58, R59, R60, R62) -/
def Obligations.TideFramesAndOrders : Prop :=
  ∀ s : State,
    (s.line.frameReady = false → exec .tideFrame s = .next s) ∧
    (s.line.frameReady = true → s.line.resume.isSome = true →
      exec .tideFrame s = .next { s with line := s.line.dropFrame }) ∧
    (s.line.frameReady = true → s.line.resume = none →
      let f := s.line.frame
      let first := frameField f 0 8
      let v := w64 (first + s.line.sinceFirst)
      ∃ t : State, exec .tideFrame s = .next t ∧ t.line.frameReady = false ∧
        (s.goodFrame = false → t.tide = { s.tide with frameBad := satInc s.tide.frameBad }) ∧
        (s.goodFrame = true → s.tide.locked = false → s.tide.count.toNat ≤ v.toNat →
          t.tide.count = v ∧ t.tide.locked = true ∧ t.tide.lockAt = v ∧ t.tide.loss = false ∧
          t.tide.ahead = false ∧ t.tide.hold = s.tide.hold ∧
          (s.tide.hold = true → 0x00A ∈ t.ev.raised ∧ t.line.releaseAt = some (w64 (first + 4096)))) ∧
        (s.goodFrame = true → s.tide.locked = false → v.toNat < s.tide.count.toNat →
          t.tide = { s.tide with ahead := true } ∧
          t.ev.raised = s.ev.raised ++ (if s.tide.ahead then [] else [0x009])) ∧
        (s.goodFrame = true → s.tide.locked = true → t.tide.count = s.tide.count ∧ t.tide.locked = true ∧
          t = ({ s with line := s.line.dropFrame } : State).takeOrders f first)) ∧
    (∀ (first : Nat) (o : Order), o.typ ≠ 0 →
      let t := s.takeOrder first o
      (o.bad = true → t.tide = { s.tide with ordBad := satInc s.tide.ordBad }) ∧
      (o.bad = false → o.target ≠ s.tide.addr → o.target ≠ 0xFF → t = s) ∧
      (o.bad = false → o.target = s.tide.addr ∨ o.target = 0xFF →
        ((∃ n < 4, ∃ p, s.orderAt n = some p ∧ p.id = o.id) → t = s) ∧
        ((∀ n < 4, ∀ p, s.orderAt n = some p → p.id ≠ o.id) → o.mark.toNat < first + 127 →
          t.tide = { s.tide with ordLate := satInc s.tide.ordLate, lateOrder := true } ∧
          t.ev.raised = s.ev.raised ++ [0x00C]) ∧
        ((∀ n < 4, ∀ p, s.orderAt n = some p → p.id ≠ o.id) → first + 127 ≤ o.mark.toNat → ∀ n, s.freeOrder = some n →
          t.orderAt n = some o ∧ ∀ m, m ≠ n → t.orderAt m = s.orderAt m))) ∧
    (∀ n : Fin 4,
      (s.actsNow n.val otHALT = none → exec (.haltAtMark n) s = .next s) ∧
      (s.actsNow n.val otFREQ = none → exec (.freqStepAtMark n) s = .next s) ∧
      (s.actsNow n.val otSLACK = none → exec (.slackWindowOpen n) s = .next s) ∧
      (s.actsNow n.val otHANDOVER = none → exec (.handoverAtMark n) s = .next s) ∧
      (∀ o, s.actsNow n.val otHALT = some o →
        ∃ t : State, exec (.haltAtMark n) s = .next t ∧ (s.svc.listed = [] → t.orderAt n.val = none) ∧
          ∀ c ∈ s.channels, (t.chan c).gate.st = (s.chan c).gate.st ∧
            ((fld o.arg 0 4 = 0#4 ∨ bitAt o.arg c.val = true) →
              (s.chan c).gate.st = .running ∨ (s.chan c).gate.st = .gate ∨ (s.chan c).gate.st = .held →
              (t.chan c).gate.halted = true) ∧
            (fld o.arg 0 4 ≠ 0#4 → bitAt o.arg c.val = false → t.chan c = s.chan c)) ∧
      (∀ o, s.actsNow n.val otFREQ = some o →
        ((∃ d ∈ s.dueOrders, d.typ = otFREQ ∧ (o.mark.toNat < d.mark.toNat ∨ d.mark = o.mark ∧ o.id.toNat < d.id.toNat)) →
          ∃ t : State, exec (.freqStepAtMark n) s = .next t ∧ t.pwr = s.pwr) ∧
        ((∀ d ∈ s.dueOrders, d.typ = otFREQ → d.mark.toNat < o.mark.toNat ∨ d.mark = o.mark ∧ d.id.toNat ≤ o.id.toNat) →
          ∃ t : State, exec (.freqStepAtMark n) s = .next t ∧ t.pwr.planned.toNat = min 16 (fldN o.arg 0 5) ∧
            let want := min (min 16 (fldN o.arg 0 5)) (min s.pwr.tceil.toNat s.pwr.pceil.toNat)
            (want ≤ s.pwr.step.toNat ∨ railOf want ≤ s.pwr.railUv → t.pwr.step.toNat = want) ∧
            (s.pwr.step.toNat < want → s.pwr.railUv < railOf want →
              t.pwr.step = s.pwr.step ∧ t.pwr.stepDue = true))) ∧
      (∀ o, s.actsNow n.val otSLACK = some o →
        ∃ t : State, exec (.slackWindowOpen n) s = .next t ∧ t.svc.openMark = some o.mark ∧
          t.svc.spanOver = false ∧
          ((∀ d ∈ s.dueOrders, d.typ = otSLACK → d.mark = o.mark → d = o) →
            t.svc.openEnd = o.mark + w64 (fldN o.arg 0 16)) ∧
          ∀ c ∈ s.channels, (s.chan c).gate.st = .loaded ∨ (s.chan c).gate.st = .stopped ∨
              (s.chan c).gate.st = .held ∨ (s.chan c).gate.st = .noImage →
            (t.chan c).regs2.slackWindows = satInc (s.chan c).regs2.slackWindows) ∧
      (∀ o, s.actsNow n.val otHANDOVER = some o →
        let me := fldN o.arg 0 8 = s.tide.addr.toNat
        ∃ t : State, exec (.handoverAtMark n) s = .next t ∧ t.tide.count = s.tide.count ∧
          (s.tide.role = rlMANAGER → ¬ me → t.tide.role = rlWORKER ∧ t.tide.driving = false ∧
            t.line.pendingFail = true ∧ t.tide.hold = (s.tide.hold || !s.tide.locked)) ∧
          (s.tide.role = rlWORKER → me → s.tide.locked = true → s.tide.eligible = true →
            t.tide.role = rlMANAGER ∧ t.tide.driving = true ∧ t.line.firstFrame = false ∧
            t.line.sendFrom = s.tide.count + 1 ∧
            ∀ m x, s.line.sending.getD m none = some x →
              t.line.sending.getD m none = if x.id = o.id then none else some x) ∧
          (s.tide.role ≠ rlMANAGER → ¬ me → t.tide.role = s.tide.role)))
end

