-- ==== Sys2Proof/Laws/Smap.lean ====
section
/-! SUPPORT. What reading and writing a sparse map does, said once: a read after a write at the
same key gives the value, at another key what was there; both writes keep the form. -/
namespace Sys2Proof

@[simp] theorem Quad.get_set_same {α : Type} (q : Quad α) (c : Chn) (v : α) :
    (q.set c v).get c = v := by
  match c with
  | 0 => rfl
  | 1 => rfl
  | 2 => rfl
  | 3 => rfl

theorem Quad.get_set_other {α : Type} (q : Quad α) (c d : Chn) (v : α) (h : d ≠ c) :
    (q.set c v).get d = q.get d := by
  match c, d with
  | 0, 0 => exact absurd rfl h
  | 0, 1 => rfl
  | 0, 2 => rfl
  | 0, 3 => rfl
  | 1, 0 => rfl
  | 1, 1 => exact absurd rfl h
  | 1, 2 => rfl
  | 1, 3 => rfl
  | 2, 0 => rfl
  | 2, 1 => rfl
  | 2, 2 => exact absurd rfl h
  | 2, 3 => rfl
  | 3, 0 => rfl
  | 3, 1 => rfl
  | 3, 2 => rfl
  | 3, 3 => exact absurd rfl h

variable {α : Type}

theorem Smap.find?_of_lt {m : Smap α} {lo a : Nat} (h : Smap.risingFrom lo m = true) (ha : a < lo) :
    Smap.find? m a = none := by
  cases m with
  | nil => rfl
  | cons e m =>
    obtain ⟨k, v⟩ := e
    simp only [Smap.risingFrom, Bool.and_eq_true, decide_eq_true_eq] at h
    simp only [Smap.find?]
    rw [if_neg (by omega), if_pos (by omega)]

theorem Smap.risingFrom_mono {m : Smap α} {lo lo' : Nat} (h : Smap.risingFrom lo m = true)
    (hl : lo' ≤ lo) : Smap.risingFrom lo' m = true := by
  cases m with
  | nil => rfl
  | cons e m =>
    simp only [Smap.risingFrom, Bool.and_eq_true, decide_eq_true_eq] at h ⊢
    exact ⟨by omega, h.2⟩

theorem Smap.find?_upsert_same (m : Smap α) (a : Nat) (w : α) :
    Smap.find? (Smap.upsert m a w) a = some w := by
  induction m with
  | nil => simp [Smap.upsert, Smap.find?]
  | cons e m ih =>
    obtain ⟨k, v⟩ := e
    simp only [Smap.upsert]
    split
    · simp [Smap.find?]
    · split
      · simp [Smap.find?]
      · rename_i h1 h2; simp [Smap.find?, h1, h2, ih]

/-- A read at another key is what it was. -/
theorem Smap.get_upsert_other (d : α) (m : Smap α) (a b : Nat) (w : α) (h : b ≠ a) :
    Smap.get d (Smap.upsert m a w) b = Smap.get d m b := by
  have key : ∀ m : Smap α, Smap.find? (Smap.upsert m a w) b = Smap.find? m b := by
    intro m
    induction m with
    | nil => simp [Smap.upsert, Smap.find?, h]
    | cons e m ih =>
      obtain ⟨k, v⟩ := e
      simp only [Smap.upsert]
      split
      · rename_i hk; subst hk; simp [Smap.find?, h]
      · split
        · rename_i h1 h2
          by_cases hb : b < a
          · have : b < k := by omega
            simp [Smap.find?, h, hb, this, Nat.ne_of_lt this]
          · simp [Smap.find?, h, hb]
        · simp only [Smap.find?]
          split
          · rfl
          · split
            · rfl
            · exact ih
  simp [Smap.get, key]

@[simp] theorem Smap.get_upsert_same (d : α) (m : Smap α) (a : Nat) (w : α) :
    Smap.get d (Smap.upsert m a w) a = w := by
  simp [Smap.get, Smap.find?_upsert_same]

theorem Smap.find?_erase_same {m : Smap α} {lo : Nat} (h : Smap.risingFrom lo m = true) (a : Nat) :
    Smap.find? (Smap.erase m a) a = none := by
  induction m generalizing lo with
  | nil => rfl
  | cons e m ih =>
    obtain ⟨k, v⟩ := e
    simp only [Smap.risingFrom, Bool.and_eq_true, decide_eq_true_eq] at h
    simp only [Smap.erase]
    split
    · rename_i hk; exact Smap.find?_of_lt h.2 (by omega)
    · split
      · rename_i h1 h2; simp [Smap.find?, h1, h2]
      · rename_i h1 h2; simp [Smap.find?, h1, h2, ih h.2]

theorem Smap.find?_erase_other {m : Smap α} {lo : Nat} (h : Smap.risingFrom lo m = true) (a b : Nat)
    (hb : b ≠ a) : Smap.find? (Smap.erase m a) b = Smap.find? m b := by
  induction m generalizing lo with
  | nil => rfl
  | cons e m ih =>
    obtain ⟨k, v⟩ := e
    simp only [Smap.risingFrom, Bool.and_eq_true, decide_eq_true_eq] at h
    simp only [Smap.erase]
    split
    · rename_i hk
      subst hk
      simp only [Smap.find?, if_neg hb]
      split
      · rename_i hlt; exact Smap.find?_of_lt h.2 (by omega)
      · rfl
    · split
      · rfl
      · simp only [Smap.find?]
        split
        · rfl
        · split
          · rfl
          · exact ih h.2

theorem Smap.risingFrom_upsert {m : Smap α} {lo : Nat} (h : Smap.risingFrom lo m = true) (a : Nat)
    (w : α) (ha : lo ≤ a) : Smap.risingFrom lo (Smap.upsert m a w) = true := by
  induction m generalizing lo with
  | nil => simp [Smap.upsert, Smap.risingFrom, ha]
  | cons e m ih =>
    obtain ⟨k, v⟩ := e
    simp only [Smap.risingFrom, Bool.and_eq_true, decide_eq_true_eq] at h
    simp only [Smap.upsert]
    split
    · rename_i hk; subst hk; simp [Smap.risingFrom, h]
    · split
      · simp only [Smap.risingFrom, Bool.and_eq_true, decide_eq_true_eq]
        exact ⟨ha, by omega, h.2⟩
      · simp only [Smap.risingFrom, Bool.and_eq_true, decide_eq_true_eq]
        exact ⟨h.1, ih h.2 (by omega)⟩

theorem Smap.risingFrom_erase {m : Smap α} {lo : Nat} (h : Smap.risingFrom lo m = true) (a : Nat) :
    Smap.risingFrom lo (Smap.erase m a) = true := by
  induction m generalizing lo with
  | nil => rfl
  | cons e m ih =>
    obtain ⟨k, v⟩ := e
    simp only [Smap.risingFrom, Bool.and_eq_true, decide_eq_true_eq] at h
    simp only [Smap.erase]
    split
    · exact Smap.risingFrom_mono h.2 (by omega)
    · split
      · simp [Smap.risingFrom, h]
      · simp only [Smap.risingFrom, Bool.and_eq_true, decide_eq_true_eq]
        exact ⟨h.1, ih h.2⟩

theorem Smap.all_upsert {m : Smap α} {p : Nat × α → Bool} (h : m.all p = true) (a : Nat) (w : α)
    (hw : p (a, w) = true) : (Smap.upsert m a w).all p = true := by
  induction m with
  | nil => simp [Smap.upsert, hw]
  | cons e m ih =>
    obtain ⟨k, v⟩ := e
    simp only [List.all_cons, Bool.and_eq_true] at h
    simp only [Smap.upsert]
    split
    · simp [hw, h.2]
    · split
      · simp [hw, h.1, h.2]
      · simp [h.1, ih h.2]

theorem Smap.all_erase {m : Smap α} {p : Nat × α → Bool} (h : m.all p = true) (a : Nat) :
    (Smap.erase m a).all p = true := by
  induction m with
  | nil => rfl
  | cons e m ih =>
    obtain ⟨k, v⟩ := e
    simp only [List.all_cons, Bool.and_eq_true] at h
    simp only [Smap.erase]
    split
    · exact h.2
    · split
      · simp [h.1, h.2]
      · simp [h.1, ih h.2]

/-- A canonical map stays canonical under a write. -/
theorem Smap.wf_put [DecidableEq α] (d : α) (m : Smap α) (a : Nat) (w : α)
    (h : Smap.wf d m = true) : Smap.wf d (Smap.put d m a w) = true := by
  simp only [Smap.wf, Bool.and_eq_true] at h ⊢
  unfold Smap.put
  split
  · exact ⟨Smap.risingFrom_erase h.1 a, Smap.all_erase h.2 a⟩
  · rename_i hw
    exact ⟨Smap.risingFrom_upsert h.1 a w (Nat.zero_le _), Smap.all_upsert h.2 a w (by simp [hw])⟩

theorem Smap.get_put_same [DecidableEq α] (d : α) (m : Smap α) (a : Nat) (w : α)
    (h : Smap.wf d m = true) : Smap.get d (Smap.put d m a w) a = w := by
  simp only [Smap.wf, Bool.and_eq_true] at h
  unfold Smap.put
  split
  · rename_i hw; simp [Smap.get, Smap.find?_erase_same h.1, hw]
  · simp

theorem Smap.get_put_other [DecidableEq α] (d : α) (m : Smap α) (a b : Nat) (w : α)
    (h : Smap.wf d m = true) (hb : b ≠ a) :
    Smap.get d (Smap.put d m a w) b = Smap.get d m b := by
  simp only [Smap.wf, Bool.and_eq_true] at h
  unfold Smap.put
  split
  · simp [Smap.get, Smap.find?_erase_other h.1 a b hb]
  · exact Smap.get_upsert_other d m a b w hb

end Sys2Proof
end

