-- ==== Sys2Proof/Laws/Memory.lean ====
section
/-! SUPPORT. Every memory operation keeps the canonical form of a memory; a read after a write of the
same byte gives the value, and any other byte keeps its own. -/
namespace Sys2Proof.Machine

/-! ### Sets of numbers -/

theorem rising_insertNat {l : List Nat} {lo a : Nat}
    (h : Smap.risingFrom lo (l.map fun i => (i, ())) = true) (ha : lo ≤ a) :
    Smap.risingFrom lo ((insertNat l a).map fun i => (i, ())) = true := by
  induction l generalizing lo with
  | nil => simp [insertNat, Smap.risingFrom, ha]
  | cons k l ih =>
    simp only [List.map_cons, Smap.risingFrom, Bool.and_eq_true, decide_eq_true_eq] at h
    simp only [insertNat]
    split
    · simp [Smap.risingFrom, h]
    · split
      · simp only [List.map_cons, Smap.risingFrom, Bool.and_eq_true, decide_eq_true_eq]
        exact ⟨ha, by omega, h.2⟩
      · simp only [List.map_cons, Smap.risingFrom, Bool.and_eq_true, decide_eq_true_eq]
        exact ⟨h.1, ih h.2 (by omega)⟩

theorem rising_filter {l : List Nat} {lo : Nat} (p : Nat → Bool)
    (h : Smap.risingFrom lo (l.map fun i => (i, ())) = true) :
    Smap.risingFrom lo ((l.filter p).map fun i => (i, ())) = true := by
  induction l generalizing lo with
  | nil => rfl
  | cons k l ih =>
    simp only [List.map_cons, Smap.risingFrom, Bool.and_eq_true, decide_eq_true_eq] at h
    rw [List.filter_cons]
    split
    · simp only [List.map_cons, Smap.risingFrom, Bool.and_eq_true, decide_eq_true_eq]
      exact ⟨h.1, ih h.2⟩
    · exact Smap.risingFrom_mono (ih h.2) (by omega)

/-! ### The canonical form is kept -/

theorem Mem.wf_iff (m : Mem) : m.wf = true ↔ Smap.wf 0 m.bytes = true ∧ Smap.wf 0 m.resid = true ∧
    Smap.risingFrom 0 (m.poison.map fun i => (i, ())) = true := by
  simp [Mem.wf, and_assoc]

theorem Mem.wf_empty : Mem.empty.wf = true := by decide

theorem Mem.wf_setPoison (m : Mem) (i : Nat) (b : Bool) (h : m.wf = true) :
    (m.setPoison i b).wf = true := by
  rw [Mem.wf_iff] at h ⊢
  refine ⟨h.1, h.2.1, ?_⟩
  unfold Mem.setPoison
  cases b
  · exact rising_filter _ h.2.2
  · exact rising_insertNat h.2.2 (Nat.zero_le _)

theorem Mem.wf_putByte (m : Mem) (a : Nat) (b : Byte) (h : m.wf = true) : (m.putByte a b).wf = true := by
  rw [Mem.wf_iff] at h ⊢
  exact ⟨Smap.wf_put _ _ _ _ h.1, h.2⟩

theorem Mem.wf_putBytes (m : Mem) (a : Nat) (bs : List Byte) (h : m.wf = true) :
    (m.putBytes a bs).wf = true := by
  induction bs generalizing m a with
  | nil => exact h
  | cons b bs ih => exact ih _ _ (m.wf_putByte a b h)

theorem Mem.wf_putCw (m : Mem) (i : Nat) (c : Coded 1) (h : m.wf = true) : (m.putCw i c).wf = true := by
  apply Mem.wf_setPoison
  have h1 := m.wf_putBytes (16 * i) (bytesLE 16 c.data.toNat) h
  rw [Mem.wf_iff] at h1 ⊢
  exact ⟨h1.1, Smap.wf_put _ _ _ _ h1.2.1, h1.2.2⟩

theorem Mem.wf_settle (m : Mem) (i : Nat) (h : m.wf = true) : (m.settle i).wf = true := by
  unfold Mem.settle
  simp only
  split
  · exact h
  · exact m.wf_putCw i _ h

theorem Mem.wf_writeByte (m : Mem) (a : Nat) (b : Byte) (h : m.wf = true) :
    (m.writeByte a b).wf = true := by
  have h1 := m.wf_settle (a / 16) h
  rw [Mem.wf_iff] at h1 ⊢
  exact ⟨Smap.wf_put _ _ a b h1.1, Smap.wf_put _ _ (a / 16) 0 h1.2.1, h1.2.2⟩

theorem Mem.wf_writeEach (m : Mem) (a : Nat) (bs : List Byte) (h : m.wf = true) :
    (m.writeEach a bs).wf = true := by
  induction bs generalizing m a with
  | nil => exact h
  | cons b bs ih => exact ih _ _ (m.wf_writeByte a b h)

theorem Mem.wf_foldl {α : Type} (l : List α) (f : Mem → α → Mem)
    (hf : ∀ m x, m.wf = true → (f m x).wf = true) (m : Mem) (h : m.wf = true) :
    (l.foldl f m).wf = true := by
  induction l generalizing m with
  | nil => exact h
  | cons x l ih => exact ih _ (hf m x h)

theorem Mem.wf_write (m : Mem) (a : Nat) (bs : List Byte) (h : m.wf = true) : (m.write a bs).wf = true :=
  Mem.wf_foldl _ _ (fun m i h => m.wf_setPoison i false h) _ (m.wf_writeEach a bs h)

theorem Mem.wf_writeCws (m : Mem) (i : Nat) (cs : List (Coded 1)) (h : m.wf = true) :
    (m.writeCws i cs).wf = true := by
  induction cs generalizing m i with
  | nil => exact h
  | cons c cs ih => exact ih _ _ (m.wf_putCw i c h)

theorem Mem.wf_setResid (m : Mem) (i : Nat) (r : W16) (h : m.wf = true) :
    ({ m with resid := Smap.put 0 m.resid i r } : Mem).wf = true := by
  rw [Mem.wf_iff] at h ⊢
  exact ⟨h.1, Smap.wf_put _ _ _ _ h.2.1, h.2.2⟩

theorem Mem.wf_ite (b : Bool) {m n : Mem} (hm : m.wf = true) (hn : n.wf = true) :
    (if b then m else n).wf = true := by
  cases b
  · exact hn
  · exact hm

theorem Mem.wf_writeMarked (m : Mem) (ws : List ByteWrite) (h : m.wf = true) :
    (m.writeMarked ws).wf = true := by
  refine Mem.wf_foldl _ _ (fun m i h => ?_) _ (Mem.wf_foldl _ _ (fun m w h => m.wf_writeByte _ _ h) _ h)
  have h1 := Mem.wf_ite (overwrites (ws.filter fun w => w.addr / 16 = i) i) (m.wf_setPoison i false h) h
  have h2 := Mem.wf_ite ((ws.filter fun w => w.addr / 16 = i).any (·.poison)) (Mem.wf_setPoison _ i true h1) h1
  simp only
  split
  · exact Mem.wf_setResid _ _ _ h2
  · exact h2

/-- The memories of the machine at reset are canonical. -/
theorem reset_mems_wf : State.reset.mem.hdm.wf = true ∧
    (∀ c, (State.reset.chan c).core.dmem.wf = true ∧ (State.reset.chan c).core.imem.wf = true) := by
  refine ⟨by decide, fun c => ?_⟩
  match c with
  | 0 => exact ⟨by decide, by decide⟩
  | 1 => exact ⟨by decide, by decide⟩
  | 2 => exact ⟨by decide, by decide⟩
  | 3 => exact ⟨by decide, by decide⟩

/-! ### Bytes -/

@[simp] theorem Mem.byte_putByte (m : Mem) (a : Nat) (b : Byte) (h : m.wf = true) :
    (m.putByte a b).byte a = b := by
  rw [Mem.wf_iff] at h
  exact Smap.get_put_same _ _ _ _ h.1

theorem Mem.byte_putByte_other (m : Mem) (a a' : Nat) (b : Byte) (h : m.wf = true) (hn : a' ≠ a) :
    (m.putByte a b).byte a' = m.byte a' := by
  rw [Mem.wf_iff] at h
  exact Smap.get_put_other _ _ _ _ _ h.1 hn

theorem Mem.byte_writeByte (m : Mem) (a : Nat) (b : Byte) (h : m.wf = true) :
    (m.writeByte a b).byte a = b := by
  have h1 := m.wf_settle (a / 16) h
  rw [Mem.wf_iff] at h1
  exact Smap.get_put_same _ _ _ _ h1.1

end Sys2Proof.Machine
end

