-- ==== Sys2Proof/Laws/State.lean ====
section
/-! SUPPORT. What each named update of the state leaves as it was, field by field, and what it sets. -/
namespace Sys2Proof.Machine

/-! ### State.setChan -/

@[simp] theorem State.setChan_four (s : State) (c : Chn) (v : Chan) :
    (s.setChan c v).four = s.four := rfl
@[simp] theorem State.setChan_cy (s : State) (c : Chn) (v : Chan) :
    (s.setChan c v).cy = s.cy := rfl
@[simp] theorem State.setChan_draw (s : State) (c : Chn) (v : Chan) :
    (s.setChan c v).draw = s.draw := rfl
@[simp] theorem State.setChan_pending (s : State) (c : Chn) (v : Chan) :
    (s.setChan c v).pending = s.pending := rfl
@[simp] theorem State.setChan_sync (s : State) (c : Chn) (v : Chan) :
    (s.setChan c v).sync = s.sync := rfl
@[simp] theorem State.setChan_ports (s : State) (c : Chn) (v : Chan) :
    (s.setChan c v).ports = s.ports := rfl
@[simp] theorem State.setChan_mem (s : State) (c : Chn) (v : Chan) :
    (s.setChan c v).mem = s.mem := rfl
@[simp] theorem State.setChan_host (s : State) (c : Chn) (v : Chan) :
    (s.setChan c v).host = s.host := rfl
@[simp] theorem State.setChan_tide (s : State) (c : Chn) (v : Chan) :
    (s.setChan c v).tide = s.tide := rfl
@[simp] theorem State.setChan_line (s : State) (c : Chn) (v : Chan) :
    (s.setChan c v).line = s.line := rfl
@[simp] theorem State.setChan_flt (s : State) (c : Chn) (v : Chan) :
    (s.setChan c v).flt = s.flt := rfl
@[simp] theorem State.setChan_newFaults (s : State) (c : Chn) (v : Chan) :
    (s.setChan c v).newFaults = s.newFaults := rfl
@[simp] theorem State.setChan_recov (s : State) (c : Chn) (v : Chan) :
    (s.setChan c v).recov = s.recov := rfl
@[simp] theorem State.setChan_job (s : State) (c : Chn) (v : Chan) :
    (s.setChan c v).job = s.job := rfl
@[simp] theorem State.setChan_cmd (s : State) (c : Chn) (v : Chan) :
    (s.setChan c v).cmd = s.cmd := rfl
@[simp] theorem State.setChan_ev (s : State) (c : Chn) (v : Chan) :
    (s.setChan c v).ev = s.ev := rfl
@[simp] theorem State.setChan_cxl (s : State) (c : Chn) (v : Chan) :
    (s.setChan c v).cxl = s.cxl := rfl
@[simp] theorem State.setChan_pwr (s : State) (c : Chn) (v : Chan) :
    (s.setChan c v).pwr = s.pwr := rfl
@[simp] theorem State.setChan_sec (s : State) (c : Chn) (v : Chan) :
    (s.setChan c v).sec = s.sec := rfl
@[simp] theorem State.setChan_svc (s : State) (c : Chn) (v : Chan) :
    (s.setChan c v).svc = s.svc := rfl
@[simp] theorem State.setChan_mdl (s : State) (c : Chn) (v : Chan) :
    (s.setChan c v).mdl = s.mdl := rfl
@[simp] theorem State.setChan_img (s : State) (c : Chn) (v : Chan) :
    (s.setChan c v).img = s.img := rfl
@[simp] theorem State.setChan_chans (s : State) (c : Chn) (v : Chan) :
    (s.setChan c v).chans = s.chans.set c v := rfl

/-! ### State.modChan -/

@[simp] theorem State.modChan_four (s : State) (c : Chn) (f : Chan → Chan) :
    (s.modChan c f).four = s.four := rfl
@[simp] theorem State.modChan_cy (s : State) (c : Chn) (f : Chan → Chan) :
    (s.modChan c f).cy = s.cy := rfl
@[simp] theorem State.modChan_draw (s : State) (c : Chn) (f : Chan → Chan) :
    (s.modChan c f).draw = s.draw := rfl
@[simp] theorem State.modChan_pending (s : State) (c : Chn) (f : Chan → Chan) :
    (s.modChan c f).pending = s.pending := rfl
@[simp] theorem State.modChan_sync (s : State) (c : Chn) (f : Chan → Chan) :
    (s.modChan c f).sync = s.sync := rfl
@[simp] theorem State.modChan_ports (s : State) (c : Chn) (f : Chan → Chan) :
    (s.modChan c f).ports = s.ports := rfl
@[simp] theorem State.modChan_mem (s : State) (c : Chn) (f : Chan → Chan) :
    (s.modChan c f).mem = s.mem := rfl
@[simp] theorem State.modChan_host (s : State) (c : Chn) (f : Chan → Chan) :
    (s.modChan c f).host = s.host := rfl
@[simp] theorem State.modChan_tide (s : State) (c : Chn) (f : Chan → Chan) :
    (s.modChan c f).tide = s.tide := rfl
@[simp] theorem State.modChan_line (s : State) (c : Chn) (f : Chan → Chan) :
    (s.modChan c f).line = s.line := rfl
@[simp] theorem State.modChan_flt (s : State) (c : Chn) (f : Chan → Chan) :
    (s.modChan c f).flt = s.flt := rfl
@[simp] theorem State.modChan_newFaults (s : State) (c : Chn) (f : Chan → Chan) :
    (s.modChan c f).newFaults = s.newFaults := rfl
@[simp] theorem State.modChan_recov (s : State) (c : Chn) (f : Chan → Chan) :
    (s.modChan c f).recov = s.recov := rfl
@[simp] theorem State.modChan_job (s : State) (c : Chn) (f : Chan → Chan) :
    (s.modChan c f).job = s.job := rfl
@[simp] theorem State.modChan_cmd (s : State) (c : Chn) (f : Chan → Chan) :
    (s.modChan c f).cmd = s.cmd := rfl
@[simp] theorem State.modChan_ev (s : State) (c : Chn) (f : Chan → Chan) :
    (s.modChan c f).ev = s.ev := rfl
@[simp] theorem State.modChan_cxl (s : State) (c : Chn) (f : Chan → Chan) :
    (s.modChan c f).cxl = s.cxl := rfl
@[simp] theorem State.modChan_pwr (s : State) (c : Chn) (f : Chan → Chan) :
    (s.modChan c f).pwr = s.pwr := rfl
@[simp] theorem State.modChan_sec (s : State) (c : Chn) (f : Chan → Chan) :
    (s.modChan c f).sec = s.sec := rfl
@[simp] theorem State.modChan_svc (s : State) (c : Chn) (f : Chan → Chan) :
    (s.modChan c f).svc = s.svc := rfl
@[simp] theorem State.modChan_mdl (s : State) (c : Chn) (f : Chan → Chan) :
    (s.modChan c f).mdl = s.mdl := rfl
@[simp] theorem State.modChan_img (s : State) (c : Chn) (f : Chan → Chan) :
    (s.modChan c f).img = s.img := rfl
@[simp] theorem State.modChan_chans (s : State) (c : Chn) (f : Chan → Chan) :
    (s.modChan c f).chans = s.chans.set c (f (s.chan c)) := rfl

/-! ### State.raise -/

@[simp] theorem State.raise_four (s : State) (e : Nat) :
    (s.raise e).four = s.four := rfl
@[simp] theorem State.raise_cy (s : State) (e : Nat) :
    (s.raise e).cy = s.cy := rfl
@[simp] theorem State.raise_draw (s : State) (e : Nat) :
    (s.raise e).draw = s.draw := rfl
@[simp] theorem State.raise_pending (s : State) (e : Nat) :
    (s.raise e).pending = s.pending := rfl
@[simp] theorem State.raise_chans (s : State) (e : Nat) :
    (s.raise e).chans = s.chans := rfl
@[simp] theorem State.raise_sync (s : State) (e : Nat) :
    (s.raise e).sync = s.sync := rfl
@[simp] theorem State.raise_ports (s : State) (e : Nat) :
    (s.raise e).ports = s.ports := rfl
@[simp] theorem State.raise_mem (s : State) (e : Nat) :
    (s.raise e).mem = s.mem := rfl
@[simp] theorem State.raise_host (s : State) (e : Nat) :
    (s.raise e).host = s.host := rfl
@[simp] theorem State.raise_tide (s : State) (e : Nat) :
    (s.raise e).tide = s.tide := rfl
@[simp] theorem State.raise_line (s : State) (e : Nat) :
    (s.raise e).line = s.line := rfl
@[simp] theorem State.raise_flt (s : State) (e : Nat) :
    (s.raise e).flt = s.flt := rfl
@[simp] theorem State.raise_newFaults (s : State) (e : Nat) :
    (s.raise e).newFaults = s.newFaults := rfl
@[simp] theorem State.raise_recov (s : State) (e : Nat) :
    (s.raise e).recov = s.recov := rfl
@[simp] theorem State.raise_job (s : State) (e : Nat) :
    (s.raise e).job = s.job := rfl
@[simp] theorem State.raise_cmd (s : State) (e : Nat) :
    (s.raise e).cmd = s.cmd := rfl
@[simp] theorem State.raise_cxl (s : State) (e : Nat) :
    (s.raise e).cxl = s.cxl := rfl
@[simp] theorem State.raise_pwr (s : State) (e : Nat) :
    (s.raise e).pwr = s.pwr := rfl
@[simp] theorem State.raise_sec (s : State) (e : Nat) :
    (s.raise e).sec = s.sec := rfl
@[simp] theorem State.raise_svc (s : State) (e : Nat) :
    (s.raise e).svc = s.svc := rfl
@[simp] theorem State.raise_mdl (s : State) (e : Nat) :
    (s.raise e).mdl = s.mdl := rfl
@[simp] theorem State.raise_img (s : State) (e : Nat) :
    (s.raise e).img = s.img := rfl
@[simp] theorem State.raise_ev (s : State) (e : Nat) :
    (s.raise e).ev = { s.ev with raised := s.ev.raised ++ [e] } := rfl

/-! ### State.raiseN -/

@[simp] theorem State.raiseN_four (s : State) (e n : Nat) :
    (s.raiseN e n).four = s.four := rfl
@[simp] theorem State.raiseN_cy (s : State) (e n : Nat) :
    (s.raiseN e n).cy = s.cy := rfl
@[simp] theorem State.raiseN_draw (s : State) (e n : Nat) :
    (s.raiseN e n).draw = s.draw := rfl
@[simp] theorem State.raiseN_pending (s : State) (e n : Nat) :
    (s.raiseN e n).pending = s.pending := rfl
@[simp] theorem State.raiseN_chans (s : State) (e n : Nat) :
    (s.raiseN e n).chans = s.chans := rfl
@[simp] theorem State.raiseN_sync (s : State) (e n : Nat) :
    (s.raiseN e n).sync = s.sync := rfl
@[simp] theorem State.raiseN_ports (s : State) (e n : Nat) :
    (s.raiseN e n).ports = s.ports := rfl
@[simp] theorem State.raiseN_mem (s : State) (e n : Nat) :
    (s.raiseN e n).mem = s.mem := rfl
@[simp] theorem State.raiseN_host (s : State) (e n : Nat) :
    (s.raiseN e n).host = s.host := rfl
@[simp] theorem State.raiseN_tide (s : State) (e n : Nat) :
    (s.raiseN e n).tide = s.tide := rfl
@[simp] theorem State.raiseN_line (s : State) (e n : Nat) :
    (s.raiseN e n).line = s.line := rfl
@[simp] theorem State.raiseN_flt (s : State) (e n : Nat) :
    (s.raiseN e n).flt = s.flt := rfl
@[simp] theorem State.raiseN_newFaults (s : State) (e n : Nat) :
    (s.raiseN e n).newFaults = s.newFaults := rfl
@[simp] theorem State.raiseN_recov (s : State) (e n : Nat) :
    (s.raiseN e n).recov = s.recov := rfl
@[simp] theorem State.raiseN_job (s : State) (e n : Nat) :
    (s.raiseN e n).job = s.job := rfl
@[simp] theorem State.raiseN_cmd (s : State) (e n : Nat) :
    (s.raiseN e n).cmd = s.cmd := rfl
@[simp] theorem State.raiseN_cxl (s : State) (e n : Nat) :
    (s.raiseN e n).cxl = s.cxl := rfl
@[simp] theorem State.raiseN_pwr (s : State) (e n : Nat) :
    (s.raiseN e n).pwr = s.pwr := rfl
@[simp] theorem State.raiseN_sec (s : State) (e n : Nat) :
    (s.raiseN e n).sec = s.sec := rfl
@[simp] theorem State.raiseN_svc (s : State) (e n : Nat) :
    (s.raiseN e n).svc = s.svc := rfl
@[simp] theorem State.raiseN_mdl (s : State) (e n : Nat) :
    (s.raiseN e n).mdl = s.mdl := rfl
@[simp] theorem State.raiseN_img (s : State) (e n : Nat) :
    (s.raiseN e n).img = s.img := rfl
@[simp] theorem State.raiseN_ev (s : State) (e n : Nat) :
    (s.raiseN e n).ev = { s.ev with raised := s.ev.raised ++ List.replicate n e } := rfl

/-! ### State.fault -/

@[simp] theorem State.fault_four (s : State) (r : FaultRec) :
    (s.fault r).four = s.four := rfl
@[simp] theorem State.fault_cy (s : State) (r : FaultRec) :
    (s.fault r).cy = s.cy := rfl
@[simp] theorem State.fault_draw (s : State) (r : FaultRec) :
    (s.fault r).draw = s.draw := rfl
@[simp] theorem State.fault_pending (s : State) (r : FaultRec) :
    (s.fault r).pending = s.pending := rfl
@[simp] theorem State.fault_chans (s : State) (r : FaultRec) :
    (s.fault r).chans = s.chans := rfl
@[simp] theorem State.fault_sync (s : State) (r : FaultRec) :
    (s.fault r).sync = s.sync := rfl
@[simp] theorem State.fault_ports (s : State) (r : FaultRec) :
    (s.fault r).ports = s.ports := rfl
@[simp] theorem State.fault_mem (s : State) (r : FaultRec) :
    (s.fault r).mem = s.mem := rfl
@[simp] theorem State.fault_host (s : State) (r : FaultRec) :
    (s.fault r).host = s.host := rfl
@[simp] theorem State.fault_tide (s : State) (r : FaultRec) :
    (s.fault r).tide = s.tide := rfl
@[simp] theorem State.fault_line (s : State) (r : FaultRec) :
    (s.fault r).line = s.line := rfl
@[simp] theorem State.fault_flt (s : State) (r : FaultRec) :
    (s.fault r).flt = s.flt := rfl
@[simp] theorem State.fault_recov (s : State) (r : FaultRec) :
    (s.fault r).recov = s.recov := rfl
@[simp] theorem State.fault_job (s : State) (r : FaultRec) :
    (s.fault r).job = s.job := rfl
@[simp] theorem State.fault_cmd (s : State) (r : FaultRec) :
    (s.fault r).cmd = s.cmd := rfl
@[simp] theorem State.fault_ev (s : State) (r : FaultRec) :
    (s.fault r).ev = s.ev := rfl
@[simp] theorem State.fault_cxl (s : State) (r : FaultRec) :
    (s.fault r).cxl = s.cxl := rfl
@[simp] theorem State.fault_pwr (s : State) (r : FaultRec) :
    (s.fault r).pwr = s.pwr := rfl
@[simp] theorem State.fault_sec (s : State) (r : FaultRec) :
    (s.fault r).sec = s.sec := rfl
@[simp] theorem State.fault_svc (s : State) (r : FaultRec) :
    (s.fault r).svc = s.svc := rfl
@[simp] theorem State.fault_mdl (s : State) (r : FaultRec) :
    (s.fault r).mdl = s.mdl := rfl
@[simp] theorem State.fault_img (s : State) (r : FaultRec) :
    (s.fault r).img = s.img := rfl
@[simp] theorem State.fault_newFaults (s : State) (r : FaultRec) :
    (s.fault r).newFaults = s.newFaults ++ [r] := rfl

/-! ### State.modMsd -/

@[simp] theorem State.modMsd_four (s : State) (n : Nat) (f : MsdRegs → MsdRegs) :
    (s.modMsd n f).four = s.four := rfl
@[simp] theorem State.modMsd_cy (s : State) (n : Nat) (f : MsdRegs → MsdRegs) :
    (s.modMsd n f).cy = s.cy := rfl
@[simp] theorem State.modMsd_draw (s : State) (n : Nat) (f : MsdRegs → MsdRegs) :
    (s.modMsd n f).draw = s.draw := rfl
@[simp] theorem State.modMsd_pending (s : State) (n : Nat) (f : MsdRegs → MsdRegs) :
    (s.modMsd n f).pending = s.pending := rfl
@[simp] theorem State.modMsd_chans (s : State) (n : Nat) (f : MsdRegs → MsdRegs) :
    (s.modMsd n f).chans = s.chans := rfl
@[simp] theorem State.modMsd_sync (s : State) (n : Nat) (f : MsdRegs → MsdRegs) :
    (s.modMsd n f).sync = s.sync := rfl
@[simp] theorem State.modMsd_ports (s : State) (n : Nat) (f : MsdRegs → MsdRegs) :
    (s.modMsd n f).ports = s.ports := rfl
@[simp] theorem State.modMsd_host (s : State) (n : Nat) (f : MsdRegs → MsdRegs) :
    (s.modMsd n f).host = s.host := rfl
@[simp] theorem State.modMsd_tide (s : State) (n : Nat) (f : MsdRegs → MsdRegs) :
    (s.modMsd n f).tide = s.tide := rfl
@[simp] theorem State.modMsd_line (s : State) (n : Nat) (f : MsdRegs → MsdRegs) :
    (s.modMsd n f).line = s.line := rfl
@[simp] theorem State.modMsd_flt (s : State) (n : Nat) (f : MsdRegs → MsdRegs) :
    (s.modMsd n f).flt = s.flt := rfl
@[simp] theorem State.modMsd_newFaults (s : State) (n : Nat) (f : MsdRegs → MsdRegs) :
    (s.modMsd n f).newFaults = s.newFaults := rfl
@[simp] theorem State.modMsd_recov (s : State) (n : Nat) (f : MsdRegs → MsdRegs) :
    (s.modMsd n f).recov = s.recov := rfl
@[simp] theorem State.modMsd_job (s : State) (n : Nat) (f : MsdRegs → MsdRegs) :
    (s.modMsd n f).job = s.job := rfl
@[simp] theorem State.modMsd_cmd (s : State) (n : Nat) (f : MsdRegs → MsdRegs) :
    (s.modMsd n f).cmd = s.cmd := rfl
@[simp] theorem State.modMsd_ev (s : State) (n : Nat) (f : MsdRegs → MsdRegs) :
    (s.modMsd n f).ev = s.ev := rfl
@[simp] theorem State.modMsd_cxl (s : State) (n : Nat) (f : MsdRegs → MsdRegs) :
    (s.modMsd n f).cxl = s.cxl := rfl
@[simp] theorem State.modMsd_pwr (s : State) (n : Nat) (f : MsdRegs → MsdRegs) :
    (s.modMsd n f).pwr = s.pwr := rfl
@[simp] theorem State.modMsd_sec (s : State) (n : Nat) (f : MsdRegs → MsdRegs) :
    (s.modMsd n f).sec = s.sec := rfl
@[simp] theorem State.modMsd_svc (s : State) (n : Nat) (f : MsdRegs → MsdRegs) :
    (s.modMsd n f).svc = s.svc := rfl
@[simp] theorem State.modMsd_mdl (s : State) (n : Nat) (f : MsdRegs → MsdRegs) :
    (s.modMsd n f).mdl = s.mdl := rfl
@[simp] theorem State.modMsd_img (s : State) (n : Nat) (f : MsdRegs → MsdRegs) :
    (s.modMsd n f).img = s.img := rfl

/-! ### State.modMgmt -/

@[simp] theorem State.modMgmt_four (s : State) (e : Nat) (f : MgmtCore → MgmtCore) :
    (s.modMgmt e f).four = s.four := rfl
@[simp] theorem State.modMgmt_cy (s : State) (e : Nat) (f : MgmtCore → MgmtCore) :
    (s.modMgmt e f).cy = s.cy := rfl
@[simp] theorem State.modMgmt_draw (s : State) (e : Nat) (f : MgmtCore → MgmtCore) :
    (s.modMgmt e f).draw = s.draw := rfl
@[simp] theorem State.modMgmt_pending (s : State) (e : Nat) (f : MgmtCore → MgmtCore) :
    (s.modMgmt e f).pending = s.pending := rfl
@[simp] theorem State.modMgmt_chans (s : State) (e : Nat) (f : MgmtCore → MgmtCore) :
    (s.modMgmt e f).chans = s.chans := rfl
@[simp] theorem State.modMgmt_ports (s : State) (e : Nat) (f : MgmtCore → MgmtCore) :
    (s.modMgmt e f).ports = s.ports := rfl
@[simp] theorem State.modMgmt_mem (s : State) (e : Nat) (f : MgmtCore → MgmtCore) :
    (s.modMgmt e f).mem = s.mem := rfl
@[simp] theorem State.modMgmt_host (s : State) (e : Nat) (f : MgmtCore → MgmtCore) :
    (s.modMgmt e f).host = s.host := rfl
@[simp] theorem State.modMgmt_tide (s : State) (e : Nat) (f : MgmtCore → MgmtCore) :
    (s.modMgmt e f).tide = s.tide := rfl
@[simp] theorem State.modMgmt_line (s : State) (e : Nat) (f : MgmtCore → MgmtCore) :
    (s.modMgmt e f).line = s.line := rfl
@[simp] theorem State.modMgmt_flt (s : State) (e : Nat) (f : MgmtCore → MgmtCore) :
    (s.modMgmt e f).flt = s.flt := rfl
@[simp] theorem State.modMgmt_newFaults (s : State) (e : Nat) (f : MgmtCore → MgmtCore) :
    (s.modMgmt e f).newFaults = s.newFaults := rfl
@[simp] theorem State.modMgmt_recov (s : State) (e : Nat) (f : MgmtCore → MgmtCore) :
    (s.modMgmt e f).recov = s.recov := rfl
@[simp] theorem State.modMgmt_job (s : State) (e : Nat) (f : MgmtCore → MgmtCore) :
    (s.modMgmt e f).job = s.job := rfl
@[simp] theorem State.modMgmt_cmd (s : State) (e : Nat) (f : MgmtCore → MgmtCore) :
    (s.modMgmt e f).cmd = s.cmd := rfl
@[simp] theorem State.modMgmt_ev (s : State) (e : Nat) (f : MgmtCore → MgmtCore) :
    (s.modMgmt e f).ev = s.ev := rfl
@[simp] theorem State.modMgmt_cxl (s : State) (e : Nat) (f : MgmtCore → MgmtCore) :
    (s.modMgmt e f).cxl = s.cxl := rfl
@[simp] theorem State.modMgmt_pwr (s : State) (e : Nat) (f : MgmtCore → MgmtCore) :
    (s.modMgmt e f).pwr = s.pwr := rfl
@[simp] theorem State.modMgmt_sec (s : State) (e : Nat) (f : MgmtCore → MgmtCore) :
    (s.modMgmt e f).sec = s.sec := rfl
@[simp] theorem State.modMgmt_svc (s : State) (e : Nat) (f : MgmtCore → MgmtCore) :
    (s.modMgmt e f).svc = s.svc := rfl
@[simp] theorem State.modMgmt_mdl (s : State) (e : Nat) (f : MgmtCore → MgmtCore) :
    (s.modMgmt e f).mdl = s.mdl := rfl
@[simp] theorem State.modMgmt_img (s : State) (e : Nat) (f : MgmtCore → MgmtCore) :
    (s.modMgmt e f).img = s.img := rfl
@[simp] theorem State.chan_modMgmt (s : State) (c : Chn) (e : Nat) (f : MgmtCore → MgmtCore) :
    (s.modMgmt e f).chan c = s.chan c := rfl

/-! ### State.modPort -/

@[simp] theorem State.modPort_four (s : State) (i : Nat) (f : MsgPort → MsgPort) :
    (s.modPort i f).four = s.four := rfl
@[simp] theorem State.modPort_cy (s : State) (i : Nat) (f : MsgPort → MsgPort) :
    (s.modPort i f).cy = s.cy := rfl
@[simp] theorem State.modPort_draw (s : State) (i : Nat) (f : MsgPort → MsgPort) :
    (s.modPort i f).draw = s.draw := rfl
@[simp] theorem State.modPort_pending (s : State) (i : Nat) (f : MsgPort → MsgPort) :
    (s.modPort i f).pending = s.pending := rfl
@[simp] theorem State.modPort_chans (s : State) (i : Nat) (f : MsgPort → MsgPort) :
    (s.modPort i f).chans = s.chans := rfl
@[simp] theorem State.modPort_sync (s : State) (i : Nat) (f : MsgPort → MsgPort) :
    (s.modPort i f).sync = s.sync := rfl
@[simp] theorem State.modPort_mem (s : State) (i : Nat) (f : MsgPort → MsgPort) :
    (s.modPort i f).mem = s.mem := rfl
@[simp] theorem State.modPort_host (s : State) (i : Nat) (f : MsgPort → MsgPort) :
    (s.modPort i f).host = s.host := rfl
@[simp] theorem State.modPort_tide (s : State) (i : Nat) (f : MsgPort → MsgPort) :
    (s.modPort i f).tide = s.tide := rfl
@[simp] theorem State.modPort_line (s : State) (i : Nat) (f : MsgPort → MsgPort) :
    (s.modPort i f).line = s.line := rfl
@[simp] theorem State.modPort_flt (s : State) (i : Nat) (f : MsgPort → MsgPort) :
    (s.modPort i f).flt = s.flt := rfl
@[simp] theorem State.modPort_newFaults (s : State) (i : Nat) (f : MsgPort → MsgPort) :
    (s.modPort i f).newFaults = s.newFaults := rfl
@[simp] theorem State.modPort_recov (s : State) (i : Nat) (f : MsgPort → MsgPort) :
    (s.modPort i f).recov = s.recov := rfl
@[simp] theorem State.modPort_job (s : State) (i : Nat) (f : MsgPort → MsgPort) :
    (s.modPort i f).job = s.job := rfl
@[simp] theorem State.modPort_cmd (s : State) (i : Nat) (f : MsgPort → MsgPort) :
    (s.modPort i f).cmd = s.cmd := rfl
@[simp] theorem State.modPort_ev (s : State) (i : Nat) (f : MsgPort → MsgPort) :
    (s.modPort i f).ev = s.ev := rfl
@[simp] theorem State.modPort_cxl (s : State) (i : Nat) (f : MsgPort → MsgPort) :
    (s.modPort i f).cxl = s.cxl := rfl
@[simp] theorem State.modPort_pwr (s : State) (i : Nat) (f : MsgPort → MsgPort) :
    (s.modPort i f).pwr = s.pwr := rfl
@[simp] theorem State.modPort_sec (s : State) (i : Nat) (f : MsgPort → MsgPort) :
    (s.modPort i f).sec = s.sec := rfl
@[simp] theorem State.modPort_svc (s : State) (i : Nat) (f : MsgPort → MsgPort) :
    (s.modPort i f).svc = s.svc := rfl
@[simp] theorem State.modPort_mdl (s : State) (i : Nat) (f : MsgPort → MsgPort) :
    (s.modPort i f).mdl = s.mdl := rfl
@[simp] theorem State.modPort_img (s : State) (i : Nat) (f : MsgPort → MsgPort) :
    (s.modPort i f).img = s.img := rfl

/-! ### Chan.setCell -/

@[simp] theorem Chan.setCell_links (ch : Chan) (n : Nat) (v : Cell) :
    (ch.setCell n v).links = ch.links := rfl
@[simp] theorem Chan.setCell_sums (ch : Chan) (n : Nat) (v : Cell) :
    (ch.setCell n v).sums = ch.sums := rfl
@[simp] theorem Chan.setCell_dues (ch : Chan) (n : Nat) (v : Cell) :
    (ch.setCell n v).dues = ch.dues := rfl
@[simp] theorem Chan.setCell_drainOut (ch : Chan) (n : Nat) (v : Cell) :
    (ch.setCell n v).drainOut = ch.drainOut := rfl
@[simp] theorem Chan.setCell_lends (ch : Chan) (n : Nat) (v : Cell) :
    (ch.setCell n v).lends = ch.lends := rfl
@[simp] theorem Chan.setCell_edgeDone (ch : Chan) (n : Nat) (v : Cell) :
    (ch.setCell n v).edgeDone = ch.edgeDone := rfl
@[simp] theorem Chan.setCell_barriers (ch : Chan) (n : Nat) (v : Cell) :
    (ch.setCell n v).barriers = ch.barriers := rfl
@[simp] theorem Chan.setCell_trees (ch : Chan) (n : Nat) (v : Cell) :
    (ch.setCell n v).trees = ch.trees := rfl
@[simp] theorem Chan.setCell_core (ch : Chan) (n : Nat) (v : Cell) :
    (ch.setCell n v).core = ch.core := rfl
@[simp] theorem Chan.setCell_gate (ch : Chan) (n : Nat) (v : Cell) :
    (ch.setCell n v).gate = ch.gate := rfl
@[simp] theorem Chan.setCell_sq (ch : Chan) (n : Nat) (v : Cell) :
    (ch.setCell n v).sq = ch.sq := rfl
@[simp] theorem Chan.setCell_dq (ch : Chan) (n : Nat) (v : Cell) :
    (ch.setCell n v).dq = ch.dq := rfl
@[simp] theorem Chan.setCell_ledger (ch : Chan) (n : Nat) (v : Cell) :
    (ch.setCell n v).ledger = ch.ledger := rfl
@[simp] theorem Chan.setCell_resident (ch : Chan) (n : Nat) (v : Cell) :
    (ch.setCell n v).resident = ch.resident := rfl
@[simp] theorem Chan.setCell_chain (ch : Chan) (n : Nat) (v : Cell) :
    (ch.setCell n v).chain = ch.chain := rfl
@[simp] theorem Chan.setCell_regs (ch : Chan) (n : Nat) (v : Cell) :
    (ch.setCell n v).regs = ch.regs := rfl
@[simp] theorem Chan.setCell_regs2 (ch : Chan) (n : Nat) (v : Cell) :
    (ch.setCell n v).regs2 = ch.regs2 := rfl
@[simp] theorem Chan.setCell_cells (ch : Chan) (n : Nat) (v : Cell) :
    (ch.setCell n v).cells = Smap.upsert ch.cells n v := rfl

/-! ### Chan.ledgerAdd -/

@[simp] theorem Chan.ledgerAdd_cells (ch : Chan) (code n : Nat) :
    (ch.ledgerAdd code n).cells = ch.cells := rfl
@[simp] theorem Chan.ledgerAdd_links (ch : Chan) (code n : Nat) :
    (ch.ledgerAdd code n).links = ch.links := rfl
@[simp] theorem Chan.ledgerAdd_sums (ch : Chan) (code n : Nat) :
    (ch.ledgerAdd code n).sums = ch.sums := rfl
@[simp] theorem Chan.ledgerAdd_dues (ch : Chan) (code n : Nat) :
    (ch.ledgerAdd code n).dues = ch.dues := rfl
@[simp] theorem Chan.ledgerAdd_drainOut (ch : Chan) (code n : Nat) :
    (ch.ledgerAdd code n).drainOut = ch.drainOut := rfl
@[simp] theorem Chan.ledgerAdd_lends (ch : Chan) (code n : Nat) :
    (ch.ledgerAdd code n).lends = ch.lends := rfl
@[simp] theorem Chan.ledgerAdd_edgeDone (ch : Chan) (code n : Nat) :
    (ch.ledgerAdd code n).edgeDone = ch.edgeDone := rfl
@[simp] theorem Chan.ledgerAdd_barriers (ch : Chan) (code n : Nat) :
    (ch.ledgerAdd code n).barriers = ch.barriers := rfl
@[simp] theorem Chan.ledgerAdd_trees (ch : Chan) (code n : Nat) :
    (ch.ledgerAdd code n).trees = ch.trees := rfl
@[simp] theorem Chan.ledgerAdd_core (ch : Chan) (code n : Nat) :
    (ch.ledgerAdd code n).core = ch.core := rfl
@[simp] theorem Chan.ledgerAdd_gate (ch : Chan) (code n : Nat) :
    (ch.ledgerAdd code n).gate = ch.gate := rfl
@[simp] theorem Chan.ledgerAdd_sq (ch : Chan) (code n : Nat) :
    (ch.ledgerAdd code n).sq = ch.sq := rfl
@[simp] theorem Chan.ledgerAdd_dq (ch : Chan) (code n : Nat) :
    (ch.ledgerAdd code n).dq = ch.dq := rfl
@[simp] theorem Chan.ledgerAdd_resident (ch : Chan) (code n : Nat) :
    (ch.ledgerAdd code n).resident = ch.resident := rfl
@[simp] theorem Chan.ledgerAdd_chain (ch : Chan) (code n : Nat) :
    (ch.ledgerAdd code n).chain = ch.chain := rfl
@[simp] theorem Chan.ledgerAdd_regs (ch : Chan) (code n : Nat) :
    (ch.ledgerAdd code n).regs = ch.regs := rfl
@[simp] theorem Chan.ledgerAdd_regs2 (ch : Chan) (code n : Nat) :
    (ch.ledgerAdd code n).regs2 = ch.regs2 := rfl

/-! ### Chan.modSq -/

@[simp] theorem Chan.modSq_cells (ch : Chan) (q : Nat) (f : StreamQ → StreamQ) :
    (ch.modSq q f).cells = ch.cells := rfl
@[simp] theorem Chan.modSq_links (ch : Chan) (q : Nat) (f : StreamQ → StreamQ) :
    (ch.modSq q f).links = ch.links := rfl
@[simp] theorem Chan.modSq_sums (ch : Chan) (q : Nat) (f : StreamQ → StreamQ) :
    (ch.modSq q f).sums = ch.sums := rfl
@[simp] theorem Chan.modSq_dues (ch : Chan) (q : Nat) (f : StreamQ → StreamQ) :
    (ch.modSq q f).dues = ch.dues := rfl
@[simp] theorem Chan.modSq_drainOut (ch : Chan) (q : Nat) (f : StreamQ → StreamQ) :
    (ch.modSq q f).drainOut = ch.drainOut := rfl
@[simp] theorem Chan.modSq_lends (ch : Chan) (q : Nat) (f : StreamQ → StreamQ) :
    (ch.modSq q f).lends = ch.lends := rfl
@[simp] theorem Chan.modSq_edgeDone (ch : Chan) (q : Nat) (f : StreamQ → StreamQ) :
    (ch.modSq q f).edgeDone = ch.edgeDone := rfl
@[simp] theorem Chan.modSq_barriers (ch : Chan) (q : Nat) (f : StreamQ → StreamQ) :
    (ch.modSq q f).barriers = ch.barriers := rfl
@[simp] theorem Chan.modSq_trees (ch : Chan) (q : Nat) (f : StreamQ → StreamQ) :
    (ch.modSq q f).trees = ch.trees := rfl
@[simp] theorem Chan.modSq_core (ch : Chan) (q : Nat) (f : StreamQ → StreamQ) :
    (ch.modSq q f).core = ch.core := rfl
@[simp] theorem Chan.modSq_gate (ch : Chan) (q : Nat) (f : StreamQ → StreamQ) :
    (ch.modSq q f).gate = ch.gate := rfl
@[simp] theorem Chan.modSq_dq (ch : Chan) (q : Nat) (f : StreamQ → StreamQ) :
    (ch.modSq q f).dq = ch.dq := rfl
@[simp] theorem Chan.modSq_ledger (ch : Chan) (q : Nat) (f : StreamQ → StreamQ) :
    (ch.modSq q f).ledger = ch.ledger := rfl
@[simp] theorem Chan.modSq_resident (ch : Chan) (q : Nat) (f : StreamQ → StreamQ) :
    (ch.modSq q f).resident = ch.resident := rfl
@[simp] theorem Chan.modSq_chain (ch : Chan) (q : Nat) (f : StreamQ → StreamQ) :
    (ch.modSq q f).chain = ch.chain := rfl
@[simp] theorem Chan.modSq_regs (ch : Chan) (q : Nat) (f : StreamQ → StreamQ) :
    (ch.modSq q f).regs = ch.regs := rfl
@[simp] theorem Chan.modSq_regs2 (ch : Chan) (q : Nat) (f : StreamQ → StreamQ) :
    (ch.modSq q f).regs2 = ch.regs2 := rfl

/-! ### Chan.modDq -/

@[simp] theorem Chan.modDq_cells (ch : Chan) (q : Nat) (f : DrainQ → DrainQ) :
    (ch.modDq q f).cells = ch.cells := rfl
@[simp] theorem Chan.modDq_links (ch : Chan) (q : Nat) (f : DrainQ → DrainQ) :
    (ch.modDq q f).links = ch.links := rfl
@[simp] theorem Chan.modDq_sums (ch : Chan) (q : Nat) (f : DrainQ → DrainQ) :
    (ch.modDq q f).sums = ch.sums := rfl
@[simp] theorem Chan.modDq_dues (ch : Chan) (q : Nat) (f : DrainQ → DrainQ) :
    (ch.modDq q f).dues = ch.dues := rfl
@[simp] theorem Chan.modDq_drainOut (ch : Chan) (q : Nat) (f : DrainQ → DrainQ) :
    (ch.modDq q f).drainOut = ch.drainOut := rfl
@[simp] theorem Chan.modDq_lends (ch : Chan) (q : Nat) (f : DrainQ → DrainQ) :
    (ch.modDq q f).lends = ch.lends := rfl
@[simp] theorem Chan.modDq_edgeDone (ch : Chan) (q : Nat) (f : DrainQ → DrainQ) :
    (ch.modDq q f).edgeDone = ch.edgeDone := rfl
@[simp] theorem Chan.modDq_barriers (ch : Chan) (q : Nat) (f : DrainQ → DrainQ) :
    (ch.modDq q f).barriers = ch.barriers := rfl
@[simp] theorem Chan.modDq_trees (ch : Chan) (q : Nat) (f : DrainQ → DrainQ) :
    (ch.modDq q f).trees = ch.trees := rfl
@[simp] theorem Chan.modDq_core (ch : Chan) (q : Nat) (f : DrainQ → DrainQ) :
    (ch.modDq q f).core = ch.core := rfl
@[simp] theorem Chan.modDq_gate (ch : Chan) (q : Nat) (f : DrainQ → DrainQ) :
    (ch.modDq q f).gate = ch.gate := rfl
@[simp] theorem Chan.modDq_sq (ch : Chan) (q : Nat) (f : DrainQ → DrainQ) :
    (ch.modDq q f).sq = ch.sq := rfl
@[simp] theorem Chan.modDq_ledger (ch : Chan) (q : Nat) (f : DrainQ → DrainQ) :
    (ch.modDq q f).ledger = ch.ledger := rfl
@[simp] theorem Chan.modDq_resident (ch : Chan) (q : Nat) (f : DrainQ → DrainQ) :
    (ch.modDq q f).resident = ch.resident := rfl
@[simp] theorem Chan.modDq_chain (ch : Chan) (q : Nat) (f : DrainQ → DrainQ) :
    (ch.modDq q f).chain = ch.chain := rfl
@[simp] theorem Chan.modDq_regs (ch : Chan) (q : Nat) (f : DrainQ → DrainQ) :
    (ch.modDq q f).regs = ch.regs := rfl
@[simp] theorem Chan.modDq_regs2 (ch : Chan) (q : Nat) (f : DrainQ → DrainQ) :
    (ch.modDq q f).regs2 = ch.regs2 := rfl

/-! ### Chan.countCodes -/

@[simp] theorem Chan.countCodes_cells (ch : Chan) (p : Option Nat) (ce ue : Nat) :
    (ch.countCodes p ce ue).cells = ch.cells := rfl
@[simp] theorem Chan.countCodes_links (ch : Chan) (p : Option Nat) (ce ue : Nat) :
    (ch.countCodes p ce ue).links = ch.links := rfl
@[simp] theorem Chan.countCodes_sums (ch : Chan) (p : Option Nat) (ce ue : Nat) :
    (ch.countCodes p ce ue).sums = ch.sums := rfl
@[simp] theorem Chan.countCodes_dues (ch : Chan) (p : Option Nat) (ce ue : Nat) :
    (ch.countCodes p ce ue).dues = ch.dues := rfl
@[simp] theorem Chan.countCodes_drainOut (ch : Chan) (p : Option Nat) (ce ue : Nat) :
    (ch.countCodes p ce ue).drainOut = ch.drainOut := rfl
@[simp] theorem Chan.countCodes_lends (ch : Chan) (p : Option Nat) (ce ue : Nat) :
    (ch.countCodes p ce ue).lends = ch.lends := rfl
@[simp] theorem Chan.countCodes_edgeDone (ch : Chan) (p : Option Nat) (ce ue : Nat) :
    (ch.countCodes p ce ue).edgeDone = ch.edgeDone := rfl
@[simp] theorem Chan.countCodes_barriers (ch : Chan) (p : Option Nat) (ce ue : Nat) :
    (ch.countCodes p ce ue).barriers = ch.barriers := rfl
@[simp] theorem Chan.countCodes_trees (ch : Chan) (p : Option Nat) (ce ue : Nat) :
    (ch.countCodes p ce ue).trees = ch.trees := rfl
@[simp] theorem Chan.countCodes_core (ch : Chan) (p : Option Nat) (ce ue : Nat) :
    (ch.countCodes p ce ue).core = ch.core := rfl
@[simp] theorem Chan.countCodes_gate (ch : Chan) (p : Option Nat) (ce ue : Nat) :
    (ch.countCodes p ce ue).gate = ch.gate := rfl
@[simp] theorem Chan.countCodes_sq (ch : Chan) (p : Option Nat) (ce ue : Nat) :
    (ch.countCodes p ce ue).sq = ch.sq := rfl
@[simp] theorem Chan.countCodes_dq (ch : Chan) (p : Option Nat) (ce ue : Nat) :
    (ch.countCodes p ce ue).dq = ch.dq := rfl
@[simp] theorem Chan.countCodes_ledger (ch : Chan) (p : Option Nat) (ce ue : Nat) :
    (ch.countCodes p ce ue).ledger = ch.ledger := rfl
@[simp] theorem Chan.countCodes_resident (ch : Chan) (p : Option Nat) (ce ue : Nat) :
    (ch.countCodes p ce ue).resident = ch.resident := rfl
@[simp] theorem Chan.countCodes_chain (ch : Chan) (p : Option Nat) (ce ue : Nat) :
    (ch.countCodes p ce ue).chain = ch.chain := rfl
@[simp] theorem Chan.countCodes_regs (ch : Chan) (p : Option Nat) (ce ue : Nat) :
    (ch.countCodes p ce ue).regs = ch.regs := rfl

/-! ### Core.advance -/

@[simp] theorem Core.advance_regs (k : Core) (cy : Nat) :
    (k.advance cy).regs = k.regs := rfl
@[simp] theorem Core.advance_imem (k : Core) (cy : Nat) :
    (k.advance cy).imem = k.imem := rfl
@[simp] theorem Core.advance_dmem (k : Core) (cy : Nat) :
    (k.advance cy).dmem = k.dmem := rfl
@[simp] theorem Core.advance_started (k : Core) (cy : Nat) :
    (k.advance cy).started = k.started := rfl
@[simp] theorem Core.advance_returned (k : Core) (cy : Nat) :
    (k.advance cy).returned = k.returned := rfl
@[simp] theorem Core.advance_dead (k : Core) (cy : Nat) :
    (k.advance cy).dead = k.dead := rfl
@[simp] theorem Core.advance_wait (k : Core) (cy : Nat) :
    (k.advance cy).wait = k.wait := rfl
@[simp] theorem Core.advance_readBack (k : Core) (cy : Nat) :
    (k.advance cy).readBack = k.readBack := rfl
@[simp] theorem Core.advance_waitTicks (k : Core) (cy : Nat) :
    (k.advance cy).waitTicks = k.waitTicks := rfl
@[simp] theorem Core.advance_sendTicks (k : Core) (cy : Nat) :
    (k.advance cy).sendTicks = k.sendTicks := rfl
@[simp] theorem Core.advance_waitLong (k : Core) (cy : Nat) :
    (k.advance cy).waitLong = k.waitLong := rfl
@[simp] theorem Core.advance_stallRaised (k : Core) (cy : Nat) :
    (k.advance cy).stallRaised = k.stallRaised := rfl
@[simp] theorem Core.advance_evin (k : Core) (cy : Nat) :
    (k.advance cy).evin = k.evin := rfl
@[simp] theorem Core.advance_bcasts (k : Core) (cy : Nat) :
    (k.advance cy).bcasts = k.bcasts := rfl
@[simp] theorem Core.advance_landAt (k : Core) (cy : Nat) :
    (k.advance cy).landAt = k.landAt := rfl
@[simp] theorem Core.advance_pc (k : Core) (cy : Nat) :
    (k.advance cy).pc = k.pc + 4 := rfl
@[simp] theorem Core.advance_readyAt (k : Core) (cy : Nat) :
    (k.advance cy).readyAt = cy + 1 := rfl

/-! ### Reading back what was written -/

@[simp] theorem State.chan_setChan (s : State) (c : Chn) (v : Chan) : (s.setChan c v).chan c = v := by
  simp [State.chan]
theorem State.chan_setChan_other (s : State) (c d : Chn) (v : Chan) (h : d ≠ c) :
    (s.setChan c v).chan d = s.chan d := Quad.get_set_other _ _ _ _ h
@[simp] theorem State.chan_modChan (s : State) (c : Chn) (f : Chan → Chan) :
    (s.modChan c f).chan c = f (s.chan c) := by simp [State.modChan]
theorem State.chan_modChan_other (s : State) (c d : Chn) (f : Chan → Chan) (h : d ≠ c) :
    (s.modChan c f).chan d = s.chan d := Quad.get_set_other _ _ _ _ h
@[simp] theorem State.chan_raise (s : State) (c : Chn) (e : Nat) : (s.raise e).chan c = s.chan c := rfl
@[simp] theorem State.chan_raiseN (s : State) (c : Chn) (e n : Nat) : (s.raiseN e n).chan c = s.chan c := rfl
@[simp] theorem State.chan_fault (s : State) (c : Chn) (r : FaultRec) : (s.fault r).chan c = s.chan c := rfl
@[simp] theorem State.chan_modMsd (s : State) (c : Chn) (n : Nat) (f : MsdRegs → MsdRegs) :
    (s.modMsd n f).chan c = s.chan c := rfl
@[simp] theorem State.modMsd_hdm (s : State) (n : Nat) (f : MsdRegs → MsdRegs) :
    (s.modMsd n f).mem.hdm = s.mem.hdm := rfl
@[simp] theorem State.modMsd_wtab (s : State) (n : Nat) (f : MsdRegs → MsdRegs) :
    (s.modMsd n f).mem.wtab = s.mem.wtab := rfl
@[simp] theorem Chan.cell_setCell (ch : Chan) (n : Nat) (v : Cell) : (ch.setCell n v).cell n = v := by
  simp [Chan.cell]
theorem Chan.cell_setCell_other (ch : Chan) (n m : Nat) (v : Cell) (h : m ≠ n) :
    (ch.setCell n v).cell m = ch.cell m := Smap.get_upsert_other _ _ _ _ _ h
@[simp] theorem State.cell_setCell (s : State) (k : CellId) (v : Cell) : (s.setCell k v).cell k = v := by
  simp [State.cell, State.setCell]
@[simp] theorem State.hasChan_modChan (s : State) (c d : Chn) (f : Chan → Chan) :
    (s.modChan c f).hasChan d = s.hasChan d := rfl
@[simp] theorem State.core_modCore (s : State) (c : Chn) (f : Core → Core) :
    ((s.modCore c f).chan c).core = f (s.chan c).core := by simp [State.modCore]

/-! ### Core.setReg: register 0 reads 0 and takes no write (R207) -/

@[simp] theorem Core.setReg_zero (k : Core) (v : W64) : k.setReg 0 v = k := rfl
@[simp] theorem Core.reg_zero (k : Core) : k.reg 0 = 0 := rfl
@[simp] theorem Core.reg_setReg (k : Core) (n : Nat) (v : W64) (h : 0 < n) (hn : n < 32) :
    (k.setReg n v).reg n = v := by
  have h0 : n ≠ 0 := by omega
  simp [Core.setReg, Core.reg, h0, hn, Vector.getD]
theorem Core.reg_setReg_other (k : Core) (n m : Nat) (v : W64) (h : m ≠ n) :
    (k.setReg n v).reg m = k.reg m := by
  unfold Core.setReg Core.reg
  split
  · rfl
  · split
    · rfl
    · simp [Vector.getD, Array.getD_eq_getD_getElem?, Array.getElem?_setIfInBounds_ne (Ne.symm h)]

@[simp] theorem Core.setReg_pc (k : Core) (n : Nat) (v : W64) : (k.setReg n v).pc = k.pc := by
  unfold Core.setReg; split <;> rfl
@[simp] theorem Core.setReg_imem (k : Core) (n : Nat) (v : W64) : (k.setReg n v).imem = k.imem := by
  unfold Core.setReg; split <;> rfl
@[simp] theorem Core.setReg_dmem (k : Core) (n : Nat) (v : W64) : (k.setReg n v).dmem = k.dmem := by
  unfold Core.setReg; split <;> rfl
@[simp] theorem Core.setReg_started (k : Core) (n : Nat) (v : W64) : (k.setReg n v).started = k.started := by
  unfold Core.setReg; split <;> rfl
@[simp] theorem Core.setReg_returned (k : Core) (n : Nat) (v : W64) : (k.setReg n v).returned = k.returned := by
  unfold Core.setReg; split <;> rfl
@[simp] theorem Core.setReg_dead (k : Core) (n : Nat) (v : W64) : (k.setReg n v).dead = k.dead := by
  unfold Core.setReg; split <;> rfl
@[simp] theorem Core.setReg_wait (k : Core) (n : Nat) (v : W64) : (k.setReg n v).wait = k.wait := by
  unfold Core.setReg; split <;> rfl
@[simp] theorem Core.setReg_readyAt (k : Core) (n : Nat) (v : W64) : (k.setReg n v).readyAt = k.readyAt := by
  unfold Core.setReg; split <;> rfl
@[simp] theorem Core.setReg_readBack (k : Core) (n : Nat) (v : W64) : (k.setReg n v).readBack = k.readBack := by
  unfold Core.setReg; split <;> rfl
@[simp] theorem Core.setReg_waitTicks (k : Core) (n : Nat) (v : W64) : (k.setReg n v).waitTicks = k.waitTicks := by
  unfold Core.setReg; split <;> rfl
@[simp] theorem Core.setReg_sendTicks (k : Core) (n : Nat) (v : W64) : (k.setReg n v).sendTicks = k.sendTicks := by
  unfold Core.setReg; split <;> rfl
@[simp] theorem Core.setReg_waitLong (k : Core) (n : Nat) (v : W64) : (k.setReg n v).waitLong = k.waitLong := by
  unfold Core.setReg; split <;> rfl
@[simp] theorem Core.setReg_stallRaised (k : Core) (n : Nat) (v : W64) : (k.setReg n v).stallRaised = k.stallRaised := by
  unfold Core.setReg; split <;> rfl
@[simp] theorem Core.setReg_evin (k : Core) (n : Nat) (v : W64) : (k.setReg n v).evin = k.evin := by
  unfold Core.setReg; split <;> rfl
@[simp] theorem Core.setReg_bcasts (k : Core) (n : Nat) (v : W64) : (k.setReg n v).bcasts = k.bcasts := by
  unfold Core.setReg; split <;> rfl
@[simp] theorem Core.setReg_landAt (k : Core) (n : Nat) (v : W64) : (k.setReg n v).landAt = k.landAt := by
  unfold Core.setReg; split <;> rfl

end Sys2Proof.Machine
end

