-- ==== Sys2Proof/Laws/Ops.lean ====
section
/-! SUPPORT. For each shared operation, once, what it can do: where a command of a channel or a
memory-side die acts, when a control core issues, when a command of the window is taken up, and what
applying the outcome of a cell operation can change at most. -/
namespace Sys2Proof.Machine

/-! ### Where a row acts -/

theorem onChan_present {s : State} {c : Chn} {f : State → State} (h : s.hasChan c = true) :
    s.onChan c f = .next (f s) := by simp [State.onChan, h]

theorem onChan_absent {s : State} {c : Chn} {f : State → State} (h : s.hasChan c = false) :
    s.onChan c f = .next s := by simp [State.onChan, h]

theorem onMsd_present {s : State} {n : Fin 8} {f : State → State} (h : s.hasMsd n = true) :
    s.onMsd n f = .next (f s) := by simp [State.onMsd, h]

theorem onMsd_absent {s : State} {n : Fin 8} {f : State → State} (h : s.hasMsd n = false) :
    s.onMsd n f = .next s := by simp [State.onMsd, h]

/-! ### A control core's row -/

/-- A core row acts exactly when the core issues an instruction of that kind now. -/
theorem coreRow_issues {s : State} {c : Chn} {kind : CoreKind} {w : W32}
    (run : State → Chn → W32 → State) (h : s.issues c kind w) :
    s.coreRow c kind run =
      run (s.countChan c (s.chan c).core.fetch.2.ce (s.chan c).core.fetch.2.ue) c w := by
  obtain ⟨-, h1, h2, h3, h4, h5⟩ := h
  subst h4
  simp [State.coreRow, h1, h2, h3, h5]

theorem coreRow_waits {s : State} {c : Chn} {kind : CoreKind} (run : State → Chn → W32 → State)
    (h : s.coreReady c = false) : s.coreRow c kind run = s := by simp [State.coreRow, h]

@[simp] theorem core_countChan (s : State) (c d : Chn) (ce ue : Nat) :
    ((s.countChan c ce ue).chan d).core = (s.chan d).core := by
  unfold State.countChan
  split
  · rfl
  · by_cases h : d = c
    · subst h; simp [State.modChan]
    · simp [State.chan_modChan_other _ _ _ _ h]

@[simp] theorem cy_countChan (s : State) (c : Chn) (ce ue : Nat) : (s.countChan c ce ue).cy = s.cy := by
  unfold State.countChan
  split <;> rfl

/-- Writing a result and going on changes the core only: the register, the pc and the cycle of the
next issue. -/
theorem coreResult_core (s : State) (c : Chn) (w : W32) (v : W64) :
    ((s.coreResult c w v).chan c).core = ((s.chan c).core.setReg (insD w) v).goesOn s.cy := by
  simp [State.coreResult, State.coreNext, Core.advance, Core.goesOn]

/-! ### A command of the window -/

theorem onCmd_turn {s : State} {op : Nat} {seq : W64} {c : Cmd} (f : State → Cmd → State)
    (h : s.turnOf op seq c) : s.onCmd op seq f = f (s.begunCmd seq) { c with begun := true } := by
  obtain ⟨h1, h2, h3⟩ := h
  subst h2; subst h3
  simp [State.onCmd, h1, State.begunCmd]

theorem onCmd_waits {s : State} {op : Nat} {seq : W64} (f : State → Cmd → State)
    (h : ∀ c, ¬ s.turnOf op seq c) : s.onCmd op seq f = s := by
  unfold State.onCmd
  split
  · rename_i c hc
    split
    · rename_i hx
      simp only [Bool.and_eq_true, decide_eq_true_eq] at hx
      exact absurd ⟨hc, hx.1, hx.2⟩ (h c)
    · rfl
  · rfl

/-! ### What a cell operation changes at most -/

theorem sameButChans_refl (s : State) : sameButChans s s := rfl

theorem sameButChans_trans {s t u : State} (h1 : sameButChans s t) (h2 : sameButChans t u) :
    sameButChans s u := by
  have h := congrArg (fun x : State =>
    ({ x with chans := s.chans, newFaults := s.newFaults, ev := s.ev, recov := s.recov } : State)) h2
  exact h.trans h1

theorem sameButChans_modChan (s : State) (c : Chn) (f : Chan → Chan) : sameButChans s (s.modChan c f) := rfl
theorem sameButChans_raise (s : State) (e : Nat) : sameButChans s (s.raise e) := rfl
theorem sameButChans_raiseN (s : State) (e n : Nat) : sameButChans s (s.raiseN e n) := rfl
theorem sameButChans_fault (s : State) (r : FaultRec) : sameButChans s (s.fault r) := rfl

theorem sameButChans_foldl {α : Type} (l : List α) (f : State → α → State)
    (hf : ∀ s x, sameButChans s (f s x)) (s : State) : sameButChans s (l.foldl f s) := by
  induction l generalizing s with
  | nil => exact sameButChans_refl s
  | cons x l ih => exact sameButChans_trans (hf s x) (ih _)

theorem sameButChans_countCell (s : State) (k : CellId) (ce ue : Nat) :
    sameButChans s (s.countCell k ce ue) := by
  unfold State.countCell
  split
  · rfl
  · simp only
    split <;> rfl

theorem sameButChans_seamDrop (s : State) (k : CellId) (d : Chn) (off : Nat) (l : Latched) (link u : Nat)
    (b : Bool) : sameButChans s (s.seamDrop k d off l link u b) := rfl

theorem sameButChans_send (s : State) (k : CellId) (cy off : Nat) (l : Latched) (link : Nat) (e : QEntry) :
    sameButChans s (s.send k cy off l link e) := by
  unfold State.send
  split
  · rfl
  · split
    · rfl
    · split <;> rfl

theorem sameButChans_driveSum (s : State) (k : CellId) (cy off : Nat) (l : Latched) (b : SumBeat) :
    sameButChans s (s.driveSum k cy off l b) := by
  unfold State.driveSum
  split
  · rfl
  · split
    · split <;> rfl
    · rfl

/-- Applying an outcome changes channels, the cycle's faults and events, and substitutions due. -/
theorem sameButChans_applyOut (s : State) (k : CellId) (l : Latched) (off u : Nat) (o : Out) :
    sameButChans s (s.applyOut k l off u o) := by
  unfold State.applyOut
  simp only
  generalize hg : s.modChan k.ch _ = s1
  have h1 : sameButChans s s1 := hg ▸ sameButChans_modChan s k.ch _
  have h2 := sameButChans_trans h1 (sameButChans_countCell s1 k o.ce o.ue)
  have h3 := sameButChans_trans h2 (sameButChans_trans (sameButChans_foldl o.faults
    (fun x f => x.fault (x.cellRec k off l f)) (fun x f => sameButChans_fault x _) _)
    (sameButChans_foldl o.sends
      (fun x e => x.send k s.cy off l e.1 e.2) (fun x e => sameButChans_send x _ _ _ _ _ _) _))
  split
  · exact sameButChans_trans h3 (sameButChans_driveSum _ _ _ _ _ _)
  · exact h3

/-! ### HDM -/

/-- A write that waits for no back-invalidate, no retraining and no earlier write of its owner lands. -/
theorem partWrite_lands (s : State) (owner : Nat) (ws : List ByteWrite) (h0 : s.hasHeld owner = false)
    (h1 : ∀ n, (s.msd n).snoop = []) (h2 : ∀ n, (s.msd n).retraining = false) :
    s.partWrite owner ws = s.land ws := by
  have hs : s.snoopedLines ws = [] := by
    simp [State.snoopedLines, State.snooped, h1, Smap.get, Smap.find?]
  have hw : s.landsNow ws = true := by
    simp [State.landsNow, hs, State.stackWait, h2]
  simp [State.partWrite, hw, h0]

@[simp] theorem bwWrites_hdm (s : State) (addrs : List Nat) : (s.bwWrites addrs).mem.hdm = s.mem.hdm := by
  unfold State.bwWrites
  generalize blocksOf 256 addrs = l
  induction l generalizing s with
  | nil => rfl
  | cons x l ih => exact (ih _).trans (by simp)

@[simp] theorem bwReads_hdm (s : State) (b : Bool) (addrs : List Nat) :
    (s.bwReads b addrs).mem.hdm = s.mem.hdm := by
  unfold State.bwReads
  generalize blocksOf 256 addrs = l
  induction l generalizing s with
  | nil => rfl
  | cons x l ih => exact (ih _).trans (by simp)

@[simp] theorem land_hdm (s : State) (ws : List ByteWrite) :
    (s.land ws).mem.hdm = s.mem.hdm.writeMarked ws := by simp [State.land]

@[simp] theorem countMsd_hdm (s : State) (n ce ue : Nat) : (s.countMsd n ce ue).mem.hdm = s.mem.hdm := by
  unfold State.countMsd
  split
  · rfl
  · simp only
    split <;> rfl

@[simp] theorem checkHdm_hdm (s : State) (addrs : List Nat) : (s.checkHdm addrs).mem.hdm = s.mem.hdm := by
  unfold State.checkHdm
  generalize blocksOf 16 addrs = l
  induction l generalizing s with
  | nil => rfl
  | cons x l ih => exact (ih _).trans (by simp)

end Sys2Proof.Machine
end

