-- ==== Sys2Proof/WellFormed.lean ====
section
/-! DEFINITION. Which commands are well formed: the operands that a command's Lean type leaves wider
than the spec gives them lie in the ranges of the rules named. -/
namespace Sys2Proof

/-- A substitution task names a physical column (R98, R505). -/
def taskWf : SlackTask → Bool
  | .substitute _ p => decide (p < 82)
  | _ => true

/-- An access to BAR0, of a size that PCIe has, inside the 64 MiB (R436, R536). -/
def barWf (off size : Nat) : Bool :=
  [1, 2, 4, 8, 16, 32, 64].contains size && decide (off + size ≤ 2 ^ 26)

/-- Each operand is inside its range: queue numbers (R321), counters (R278), barrier groups (R90),
window entries (R308), HDM offsets (R440), columns (R98), events (R420), sensors (R468). -/
def Instr.wf : Instr → Bool
  | .tideTick slot => slot.all fun t => decide (-1000 ≤ t.offset) && decide (t.offset ≤ 1000)
  | .tideFrame => true
  | .tideLoss => true
  | .tideHoldRelease => true
  | .tidePromoteJump => true
  | .haltAtMark _ => true
  | .freqStepAtMark _ => true
  | .slackWindowOpen _ => true
  | .handoverAtMark _ => true
  | .bundleIssue _ => true
  | .mxnop _ => true
  | .mxcfg _ => true
  | .mma _ => true
  | .close _ => true
  | .vnop _ => true
  | .vmov _ => true
  | .vsel _ => true
  | .vcvt _ => true
  | .vand _ => true
  | .vor _ => true
  | .vxor _ => true
  | .vandn _ => true
  | .vshl _ => true
  | .vshr _ => true
  | .vsar _ => true
  | .viadd _ => true
  | .visub _ => true
  | .vimul _ => true
  | .vmax _ => true
  | .vmin _ => true
  | .vadd _ => true
  | .vsub _ => true
  | .vmul _ => true
  | .vfma _ => true
  | .vabs _ => true
  | .vneg _ => true
  | .vdiv _ => true
  | .vsqrt _ => true
  | .vrcp _ => true
  | .vrsq _ => true
  | .vexp2 _ => true
  | .vlog2 _ => true
  | .vcmp _ => true
  | .vmaskn _ => true
  | .vmaskb _ => true
  | .vmlog _ => true
  | .vlsum _ => true
  | .vlprod _ => true
  | .vlmax _ => true
  | .vlmin _ => true
  | .vland _ => true
  | .vlor _ => true
  | .vlargmax _ => true
  | .vlargmin _ => true
  | .vrsum _ => true
  | .vrprod _ => true
  | .vrmax _ => true
  | .vrmin _ => true
  | .vrand _ => true
  | .vror _ => true
  | .vrargmax _ => true
  | .vrargmin _ => true
  | .vflg _ => true
  | .lsnop _ => true
  | .lpush _ => true
  | .spop _ => true
  | .lcopy _ => true
  | .shld _ => true
  | .shlds _ => true
  | .ixset _ => true
  | .ltide _ => true
  | .lrand _ => true
  | .lcyc _ => true
  | .route _ => true
  | .cnop _ => true
  | .loop _ => true
  | .idle _ => true
  | .idleEnd _ => true
  | .bend _ => true
  | .shsw _ => true
  | .tchk _ => true
  | .barr _ => true
  | .barrierRelease _ g => decide (g < 4096)
  | .bwait _ => true
  | .fset _ => true
  | .fclr _ => true
  | .frdo _ => true
  | .frda _ => true
  | .sgnl _ => true
  | .take _ => true
  | .edgePlanRun _ i => decide (i < 4096)
  | .blockEnd _ => true
  | .gateClose _ => true
  | .savePointWrite _ => true
  | .saveComplete => true
  | .saveDue => true
  | .gateCheckPass _ => true
  | .jointReady _ => true
  | .blockRelease _ => true
  | .gateWaitLong _ => true
  | .counterOpArrive n => decide (n < 131072)
  | .ccoreWaitLong _ => true
  | .alu _ => true
  | .iaddk _ => true
  | .bandk _ => true
  | .bork _ => true
  | .bxork _ => true
  | .shiftk _ => true
  | .cltsk _ => true
  | .cltuk _ => true
  | .ldk _ => true
  | .shins _ => true
  | .load _ => true
  | .store _ => true
  | .branch _ => true
  | .call _ => true
  | .jreg _ => true
  | .ssig _ => true
  | .swait _ => true
  | .stake _ => true
  | .sset _ => true
  | .srd _ => true
  | .msend _ => true
  | .msendComplete _ => true
  | .mrecv _ => true
  | .mrecvComplete _ => true
  | .mpoll _ => true
  | .messageDeliver _ _ => true
  | .sendStall _ => true
  | .gate _ => true
  | .bcast _ => true
  | .sopen _ => true
  | .scancel _ => true
  | .sdepth _ => true
  | .wkrd _ => true
  | .wkwr _ => true
  | .wicketComplete _ => true
  | .csrr _ => true
  | .csrw _ => true
  | .rdtide _ => true
  | .rdfwait _ => true
  | .rdrand _ => true
  | .rdcyc _ => true
  | .flgclr _ => true
  | .evsig _ => true
  | .fetchRequest _ q => decide (q < 64)
  | .readReturn _ q _ => decide (q < 64)
  | .drainWrite _ q => decide (q < 32)
  | .hbmRefresh _ => true
  | .hbmRetry _ _ _ => true
  | .patrolScrub _ g => decide (g < 2 ^ 28)
  | .ceWindowExpiry => true
  | .cxlMemRead off _ => decide (off % 64 = 0)
  | .cxlMemWrite off _ _ _ _ => decide (off % 64 = 0)
  | .commandSlotExamine => true
  | .commandComplete _ => true
  | .identify _ => true
  | .queryFeatures _ => true
  | .loadImage _ _ => true
  | .verifyImage _ _ => true
  | .bindChannels _ => true
  | .attest _ => true
  | .sealReceipt _ => true
  | .eventConfig _ => true
  | .clearFaults _ => true
  | .dumpState _ => true
  | .start _ => true
  | .stop _ => true
  | .stopAfterBlock _ => true
  | .save _ => true
  | .resume _ => true
  | .resumeStream _ => true
  | .retireChannel _ => true
  | .adoptFallback _ => true
  | .resetChannel _ => true
  | .pairMode _ => true
  | .setFreqPlan _ => true
  | .scheduleSlack _ => true
  | .setTideRole _ => true
  | .substituteColumn _ => true
  | .fwStage _ => true
  | .fwActivate _ => true
  | .calibrate _ => true
  | .hbmRetrain _ => true
  | .recoveryDecision _ => true
  | .rollback => true
  | .columnSubstitution _ p => decide (p < 82)
  | .phaseCalibration _ m => decide (m.toNat ≤ 100)
  | .hbmRetrainTask _ _ => true
  | .mgmtFwSwitch => true
  | .slackTaskEnd t => taskWf t
  | .slackSpanEnd => true
  | .pairCompare _ _ => true
  | .pairStall _ => true
  | .eventOccurrence => true
  | .eventTimeout e => decide (e < 1024)
  | .eventClaim _ _ => true
  | .evcPendSet _ _ => true
  | .evcPendClr _ _ => true
  | .evcMaskSet _ _ => true
  | .evcMaskClr _ _ => true
  | .evcPendWindowWrite _ _ => true
  | .evcMaskWindowWrite _ _ => true
  | .evcCfgWrite e _ => decide (e < 1024)
  | .mgmtWake _ => true
  | .windowTableWrite i part w => decide (i < 2 ^ 18) && (part = .whole || decide (w.toNat < 2 ^ 32))
  | .wtabFlush => true
  | .clearNext _ => true
  | .breakwaterEnable _ _ => true
  | .breakwaterInvalidate _ => true
  | .channelPowerOff _ => true
  | .quiesce => true
  | .retrainFull => true
  | .peerSend _ => true
  | .replyRingEnable _ => true
  | .replyConsWrite _ => true
  | .fltConsWrite _ => true
  | .readClear off size => barWf off size
  | .latchedLowRead off => barWf off 4 && decide (off % 4 = 0)
  | .registerWrite off size _ => barWf off size
  | .configRequest _ off _ => decide (off < 4096) && decide (off % 4 = 0)
  | .doeCdat _ => true
  | .doeCompliance r => decide (r.length % 4 = 0)
  | .doeAbort _ => true
  | .getVersion => true
  | .getCapabilities => true
  | .negotiateAlgorithms _ => true
  | .getDigests => true
  | .getCertificate _ _ _ => true
  | .challenge _ _ => true
  | .getMeasurements _ _ _ => true
  | .keyExchange _ x => decide (x.length = 132)
  | .finish _ _ => true
  | .endSession _ => true
  | .sidebandRecoveryWrite _ data => decide (data.length ≤ 4096)
  | .linkUp _ _ => true
  | .linkRecovery => true
  | .linkLoss => true
  | .linkDownLimit => true
  | .surpriseRemoval => true
  | .moduleInsert _ => true
  | .pwrEnAssert => true
  | .pwrEnDeassert => true
  | .inputFault _ => true
  | .deviceReset => true
  | .thermtrip _ => true
  | .bringupPhaseEnd env => decide (env.margins.length ≤ 37)
  | .bringupFailed die => decide (die.toNat < 10) || decide (die = 15)
  | .noiseHealthFail => true
  | .droopStretch _ => true
  | .sensorRead ts => decide (ts.length = 54)
  | .ceilingEvaluate _ => true
  | .clockDrift _ m => decide (m.toNat ≤ 100)
  | .railArrive => true
  | .perstNDeassert => true
  | .inputReaches46v => true
  | .sopenComplete _ => true
  | .scancelComplete _ => true
  | .bisnpResponse off _ => decide (off % 64 = 0)
  | .peerReplyWrite _ off data => decide (off + data.length ≤ 2 ^ 24)
  | .doeDiscovery _ _ => true
  | .doeObjectDiscarded _ _ len => decide (len ≤ 2 ^ 18)
  | .tapInstruction _ => true
  | .ccoreInstructionFault _ => true
  | .pairRingPoll _ => true
  | .retirementWindowExpiry _ => true

end Sys2Proof
end

