-- ==== Sys2Proof/Tests/Slice0.lean ====
section
/-! SUPPORT. Tests: operands that are ill formed are refused; results of single steps, from the spec's
worked examples or by hand; and for each statement with hypotheses a witness (`witness_<statement>`),
concrete states and operands that meet them, clause by clause. -/
namespace Sys2Proof.Tests
open Sys2Proof Sys2Proof.Machine

set_option Elab.async false

/-! ### Small states -/

/-- The state a command answers. -/
def after (i : Instr) (s : State) : State :=
  match exec i s with
  | .next t => t
  | _ => s

def answers (i : Instr) (s : State) : Bool :=
  match exec i s with
  | .next _ => true
  | _ => false

theorem answers_iff (i : Instr) (s : State) : answers i s = true ↔ ∃ t, exec i s = .next t := by
  unfold answers
  cases exec i s <;> simp

def k0 : CellId := ⟨0, 1, 2⟩
def latchOf (word : Nat) : Latched := ⟨BitVec.ofNat 256 word, 5, false, 0, 0, 0, 0, 0⟩

/-- Reset, with a cell having issued a bundle in cycle 0. -/
def sCellAt (k : CellId) (word : Nat) (f : Cell → Cell := id) : State :=
  State.reset.setCell k (f { Cell.reset with seq := { Seq.reset with
    running := true, cur := some (latchOf word) } })

/-- The same, of cell ch0:y1:x2. -/
def sCell (word : Nat) (f : Cell → Cell := id) : State := sCellAt k0 word f

def vx (op ty fn d a b c : Nat) : Nat :=
  2 ^ 40 * (op + 2 ^ 6 * ty + 2 ^ 13 * fn + 2 ^ 18 * d + 2 ^ 27 * a + 2 ^ 36 * b + 2 ^ 45 * c)
def ls (op rest : Nat) : Nat := 2 ^ 96 * (op + rest)
def ct (op rest : Nat) : Nat := 2 ^ 208 * (op + rest)

/-- Operand specs: tile row, line, queue, broadcast register, mask, immediate (R190). -/
def oTile (t r : Nat) : Nat := 16 * t + r
def oLine (n : Nat) : Nat := 128 + n
def oQueue (q etag : Nat) : Nat := 256 + q + 8 * etag
def oBcast (n : Nat) : Nat := 256 + 64 + n
def oMask (n : Nat) : Nat := 256 + 80 + n
def oImm (n : Nat) : Nat := 384 + n

/-- The slot of the bundle of `sCell word` has not acted, in the form that `State.flies` has. -/
theorem flies_of (s : State) (word slot : Nat)
    (h : (s.hasChan k0.ch && s.slotReady k0 slot = some (latchOf word)) = true) :
    s.flies k0 slot (latchOf word) := by simpa [State.flies] using h

def entry (tag : Nat) : QEntry := ⟨Coded.zero, BitVec.ofNat 3 tag⟩
def withQ (tag : Nat) (c : Cell) : Cell := { c with qin := c.qin.set! 0 [entry tag] }

/-- Whether a slot is about to act and its sources read well, or fail. -/
def vxMeets (word n : Nat) (form : Form) (good : Bool) : Bool :=
  let s := sCell word
  let l := latchOf word
  s.hasChan k0.ch && s.slotReady k0 slVX = some l &&
    ((s.begun k0 slVX).readSrcs l (vxWord l.vx) form n).2.isSome = good

/-! ### Witnesses: cells -/

theorem witness_StepRunsFrontCommand : State.reset.pending = [] := rfl

theorem witness_NoOperations :
    (sCell 0).flies k0 slMX (latchOf 0) ∧ (sCell 0).flies k0 slVX (latchOf 0) ∧
    (sCell 0).flies k0 slLS (latchOf 0) ∧ (sCell 0).flies k0 slCT (latchOf 0) ∧
    fldN (latchOf 0).mx 0 4 = 0 ∧ fldN (latchOf 0).vx 0 6 = 0 ∧ lsOp (latchOf 0).ls = 0 ∧ ctOp (latchOf 0).ct = 0 ∧
    channelOf (.mma ⟨3, 0, 0⟩) = some 3 ∧ channelOf (.gateClose 3) = some 3 ∧
    ({ State.reset with four := false } : State).hasChan 3 = false := by
  refine ⟨flies_of _ _ _ ?_, flies_of _ _ _ ?_, flies_of _ _ _ ?_, flies_of _ _ _ ?_, ?_⟩ <;> decide +kernel

theorem witness_IntegerLaneResults : ∀ op ∈ [4, 5, 6, 7, 8, 9, 10, 11, 12, 13],
    let w := vx op 1 0 (oTile 0 1) (oLine 3) (oBcast 1) 0
    vxMeets w 2 .i32 true = true ∧ fldN (latchOf w).vx 0 6 = op ∧ (vxWord (latchOf w).vx).dst.isDst = true := by
  decide +kernel

theorem witness_FloatLaneResults : ∀ e ∈ [(0x10, 2), (0x11, 2), (0x12, 2), (0x13, 3), (0x14, 1), (0x15, 1),
      (0x16, 2), (0x17, 1), (0x18, 1), (0x19, 1), (0x1A, 1), (0x1B, 1)],
    let w := vx e.1 0 0 (oQueue 7 0) (oTile 3 0) (oLine 3) (oBcast 1)
    vxMeets w e.2 .f32 true = true ∧ fldN (latchOf w).vx 0 6 = e.1 ∧
      (vxWord (latchOf w).vx).dst.isDst = true := by
  decide +kernel

theorem witness_TypedLaneResults :
    (∀ e ∈ [(0x01, 1), (0x02, 3), (0x0E, 2), (0x0F, 2)],
      ∀ f ∈ [(0, Form.f32), (1, Form.i32), (2, Form.narrow)],
      let w := vx e.1 f.1 0 (oTile 0 1) (oLine 3) (oLine 4) (oMask 1)
      vxMeets w e.2 f.2 true = true ∧ fldN (latchOf w).vx 0 6 = e.1 ∧
        (vxWord (latchOf w).vx).dst.isDst = true) ∧
    (∀ f ∈ [(0, Form.f32), (1, Form.i32), (2, Form.f32), (3, Form.narrow)],
      let w := vx 0x03 0 f.1 (oTile 0 1) (oLine 3) 0 0
      vxMeets w 1 f.2 true = true ∧ fldN (latchOf w).vx 0 6 = 0x03 ∧ (vxWord (latchOf w).vx).fn = f.1 ∧
        (vxWord (latchOf w).vx).dst.isDst = true) := by
  decide +kernel

theorem witness_FailedSourceWritesNothing :
    (∀ e ∈ [(0x04, 2, Form.i32), (0x0D, 2, .i32), (0x13, 3, .f32), (0x1B, 1, .f32)],
      let w := vx e.1 0 0 (oTile 0 1) (oQueue 0 0) (oLine 4) (oLine 5)
      vxMeets w e.2.1 e.2.2 false = true ∧ fldN (latchOf w).vx 0 6 = e.1) ∧
    (∀ e ∈ [(0x01, 1), (0x02, 3), (0x0E, 2), (0x0F, 2), (0x1C, 2), (0x20, 1), (0x27, 1)],
      ∀ f ∈ [(0, Form.f32), (1, Form.i32)],
      let w := vx e.1 f.1 0 (oTile 0 1) (oQueue 0 0) (oLine 4) (oMask 1)
      vxMeets w e.2 f.2 false = true ∧ fldN (latchOf w).vx 0 6 = e.1 ∧
        (((sCell w).begun k0 slVX).readSrcs (latchOf w) (vxWord (latchOf w).vx) f.2 e.2).1.faults ≠ []) := by
  decide +kernel

theorem witness_MaskOperations :
    (∀ ty ∈ [0, 1], let w := vx 0x1C ty 6 (oMask 7) (oLine 3) (oLine 4) 0
      vxMeets w 2 (if ty = 1 then .i32 else .f32) true = true ∧ (vxWord (latchOf w).vx).dst = .mask 7) ∧
    (∀ n ∈ [0, 32], let w := vx 0x1D 0 0 (oMask 1) (oImm n) 0 0
      vxMeets w 0 .i32 true = true ∧ (vxWord (latchOf w).vx).sa = .imm n) ∧
    (
      let w := vx 0x1E 0 0 (oMask 1) (oBcast 7) 0 0
      vxMeets w 0 .i32 true = true ∧ (vxWord (latchOf w).vx).sa = .bcast 7) ∧
    (∀ fn ∈ [0, 3], let w := vx 0x1F 0 fn (oMask 1) (oMask 0) (oMask 7) 0
      vxMeets w 0 .i32 true = true ∧ (vxWord (latchOf w).vx).fn = fn ∧
        (vxWord (latchOf w).vx).sa = .mask 0 ∧ (vxWord (latchOf w).vx).sb = .mask 7) := by
  decide +kernel

theorem witness_LaneAndRowReductions :
    (∀ op ∈ [0, 1, 2, 3, 4, 5, 6, 7], ∀ ty ∈ [0, 1],
      let w := vx (0x20 + op) ty 0 (oTile 0 1) (oLine 3) 0 0
      vxMeets w 1 (if ty = 1 then .i32 else .f32) true = true ∧ fldN (latchOf w).vx 0 6 = 0x20 + op ∧
        (vxWord (latchOf w).vx).dst.isDst = true) ∧
    (∀ op ∈ [0, 1, 2, 3, 4, 5, 6, 7], ∀ n ∈ [0, 16],
      let w := vx (0x28 + op) 1 0 (oLine 3) (oTile 7 0) (oImm n) 0
      vxMeets w 0 .i32 true = true ∧ fldN (latchOf w).vx 0 6 = 0x28 + op ∧
        (vxWord (latchOf w).vx).sa = .tile 7 0 ∧ (vxWord (latchOf w).vx).sb = .imm n ∧
        (vxWord (latchOf w).vx).dst.isDst = true) ∧
    (
      let w := vx 0x30 0 0 (oLine 3) 0 0 0
      vxMeets w 0 .i32 true = true ∧ fldN (latchOf w).vx 0 6 = 0x30) := by
  decide +kernel

theorem witness_CellFrames :
    answers (.vadd k0) (sCell (vx 0x10 0 0 (oTile 0 1) (oLine 3) (oLine 4) 0)) = true ∧
    answers (.vflg k0) (sCell (vx 0x30 0 0 (oTile 0 1) 0 0 0)) = true ∧
    answers (.lcopy k0) (sCell (ls 3 0)) = true ∧ answers (.idle k0) (sCell (ct 2 0)) = true ∧
    answers (.mma k0) (sCell 2) = true := by
  decide +kernel

theorem witness_LineMoves :
    (∀ op ∈ [1, 3, 6, 7, 8, 9], let w := ls op (2 ^ 12)
      (sCell w).hasChan k0.ch = true ∧ (sCell w).slotReady k0 slLS = some (latchOf w) ∧
        lsOp (latchOf w).ls = op ∧ (Coded.check (Smap.get Coded.zero ((sCell w).cell k0).pad 0)).2.bad = none) ∧
    (∀ tag ∈ [0, 1],
      let s := sCell (ls 2 0) (withQ tag)
      s.slotReady k0 slLS = some (latchOf (ls 2 0)) ∧ (s.cell k0).qin.getD 0 [] = [entry tag] ∧
        expTag (s.cell k0).index (latchOf (ls 2 0)) 0 0 = 0) ∧
    ((sCell (ls 2 0)).cell k0).qin.getD 0 [] = [] ∧
    (∀ bad ∈ [true, false],
      let s : State := { sCell (ls 8 0) with sec := { Sec.reset with
        drbgs := Sec.reset.drbgs.set! 0 ⟨0, bad⟩ } }
      s.slotReady k0 slLS = some (latchOf (ls 8 0)) ∧ (s.sec.drbgs.getD 0 ⟨0, false⟩).unhealthy = bad ∧
        (s.sec.drbgs.getD 0 ⟨0, false⟩).used < 65536) := by
  decide +kernel

def withBank (c : Cell) : Cell := { c with bankB := { Bank.reset with written := 0xFF, wfmt := some 1 } }

theorem witness_ShutterLoads :
    (∀ op ∈ [4, 5], ∀ bank ∈ [0, 1], let w := ls op (2 ^ 19 * bank)
      let s := sCell w (withQ 0)
      s.slotReady k0 slLS = some (latchOf w) ∧ lsOp (latchOf w).ls = op ∧
        (s.cell k0).qin.getD 0 [] = [entry 0] ∧ expTag (s.cell k0).index (latchOf w) 0 0 = 0 ∧
        (Coded.check (entry 0).beat).2.bad = none ∧
        (bitAt (latchOf w).ls 19 = (s.cell k0).activeB ↔ bank = 0)) ∧
    (∀ f ∈ [(withBank, true), (id, false)],
      let s := sCell (ct 4 0) f.1
      s.slotReady k0 slCT = some (latchOf (ct 4 0)) ∧ ctOp (latchOf (ct 4 0)).ct = 4 ∧
        (((s.cell k0).bank true).complete s.cy && !loadsBank (latchOf (ct 4 0)) (s.cell k0) true) = f.2) ∧
    ((sCell 1).slotReady k0 slMX = some (latchOf 1) ∧ fldN (latchOf 1).mx 0 4 = 1 ∧
      (Coded.check ((Smap.get Coded.zero ((sCell 1).cell k0).pad 0).part 0 1 : Coded 1)).2.bad = none) := by
  decide +kernel

/-- A strand configuration: formats, role, close mode. -/
def cfgOf (fmt role cmode : Nat) : W64 := BitVec.ofNat 64 (fmt + 16 * fmt + 256 * role + 1024 * cmode + 2 ^ 16 * 96)

def sumBeat (cls : Nat) : SumBeat := ⟨List.replicate 32 1, 0, 0, 0, 0, 0, false, cls, 96, 0, 0, 0, 1⟩

/-- A cell that may multiply, with a row of sums arriving when one is given. -/
def sMatrixAt (k : CellId) (word fmt role cmode : Nat) (sum : Option SumBeat) : State :=
  (sCellAt k word fun c => { c with
    cfg := cfgOf fmt role cmode
    bankA := { Bank.reset with written := 0x1FF, wfmt := some (BitVec.ofNat 4 fmt) }
    actBuf := some Coded.zero
    scaleBuf := some Coded.zero }).modChan k.ch fun ch => { ch with
      sums := sum.toList.map fun b => ⟨0, k.num, b, false⟩ }

def sMatrix (word fmt role cmode : Nat) (sum : Option SumBeat) : State := sMatrixAt k0 word fmt role cmode sum

/-- MMA in each class, opening or not, closing or not, inside the channel and at the seam. -/
theorem witness_MatrixRow_mma :
    (∀ fmt ∈ [1, 5, 9, 0xB], ∀ r ∈ [(0, 0, true), (1, 0, false), (2, 1, true), (3, 3, false)],
      ∀ k ∈ [k0, ⟨0, 1, 79⟩],
      let cls := (strandOf (cfgOf fmt 0 0)).cls
      let s := sMatrixAt k 2 fmt r.1 r.2.1 (if r.2.2 then some (sumBeat cls) else none)
      let c := s.cell k
      let g := strandOf c.cfg
      s.hasChan k.ch = true ∧ s.slotReady k slMX = some (latchOf 2) ∧ fldN (latchOf 2).mx 0 4 = 2 ∧
        bitAt (latchOf 2).mx 4 = false ∧ bitAt (latchOf 2).mx 17 = false ∧ g.cls ≠ 0 ∧
        (g.isClose = true → 1 ≤ g.cmode ∧ g.cmode ≤ (if g.cls = 3 then 3 else 4)) ∧
        (g.isClose = false → g.cmode = 0) ∧ c.active.complete s.cy = true ∧
        c.active.wfmt = some (BitVec.ofNat 4 g.wfmt) ∧ s.cy = 0 ∧
        (g.isOpen = false → (s.envOf k).sum = some (sumBeat g.cls) ∧ (sumBeat g.cls).parity = c.activeB ∧
          (sumBeat g.cls).win.toNat = g.win ∧ (sumBeat g.cls).soff.toInt = g.soff) ∧
        c.actBuf = some Coded.zero ∧ c.scaleBuf = some Coded.zero ∧
        bitAt (Coded.zero : Line).poison 0 = false ∧ g.isClose = decide (2 ≤ r.1) ∧ g.cmode = r.2.1) ∧
    (∀ up : Bool,
      let r := sMatrixAt ⟨0, 1, 79⟩ 2 1 0 0 (some (sumBeat 1))
      let st := fun (g : Gate) => if up then { g with st := .running } else g
      ((r.modGate 0 st).modGate 2 st).seamOpen 0 = up) := by
  refine ⟨?_, ?_⟩ <;> decide +kernel

theorem witness_MatrixRow_faults :
    (let s := sMatrix 2 1 0 0 none
    s.slotReady k0 slMX = some (latchOf 2) ∧ (strandOf (s.cell k0).cfg).off = false ∧
      mmaCauses (s.envOf k0) (strandOf (s.cell k0).cfg) (s.cell k0) none ≠ []) ∧
    (let s := sMatrix 2 0 0 0 none
    (strandOf (s.cell k0).cfg).off = true ∧
      mmaCauses (s.envOf k0) (strandOf (s.cell k0).cfg) (s.cell k0) none ≠ []) := by
  refine ⟨?_, ?_⟩ <;> decide +kernel

/-- CLOSE of each mode, at an accumulating close and at another, with no row, a fitting one and another. -/
theorem witness_MatrixRow_close :
    ∀ mode ∈ [0, 1, 2, 3], ∀ cmode ∈ [5, 1], ∀ sum ∈ [none, some (sumBeat 1), some (sumBeat 2)],
      let w := 3 + 16 * mode
      let s := sMatrix w 1 2 cmode sum
      let g := strandOf (s.cell k0).cfg
      s.slotReady k0 slMX = some (latchOf w) ∧ fldN (latchOf w).mx 0 4 = 3 ∧ fldN (latchOf w).mx 4 2 = mode ∧
        g.cls = 1 ∧ g.role = 2 ∧ g.cmode = cmode ∧ (s.envOf k0).sum = sum ∧ (sumBeat 1).cls = g.cls ∧
        (sumBeat 2).cls ≠ g.cls ∧ (sumBeat 1).win.toNat = g.win ∧ (sumBeat 1).soff.toInt = g.soff ∧
        (Coded.check (Smap.get Coded.zero (s.cell k0).pad 0)).2.bad = none := by
  decide +kernel

/-- N takes qout0, and input queue 0 takes what comes from the north. -/
def rtWord : Nat := 2 ^ 144 * (8 + 2 ^ 16)

theorem witness_RouteMovesBeats :
    let s := (sCell rtWord fun c => { c with qout := c.qout.set! 0 [entry 3] }).modChan 0 fun ch =>
      { ch with links := [⟨0, k0.num, .north, entry 1⟩] }
    let l := latchOf rtWord
    s.slotReady k0 slRT = some l ∧ s.hasChan k0.ch = true ∧
      (∀ q : Fin 8, (∃ i ∈ [1, 2, 3, 4], rtSrc l.rt i = 8 + q.val) → (s.cell k0).qout.getD q.val [] ≠ []) ∧
      (s.envOf k0).north = some (entry 1) ∧ bitAt l.rt 16 = true ∧ rtSrc l.rt 1 = 8 ∧
      linkTarget k0 1 = some (0, k0.num - 80, .south, 1) := by
  decide +kernel

/-- A running channel whose cell is about to issue the bundle at address 0. -/
def sIssue (b : Bundle) : State :=
  (State.reset.setCell k0 { Cell.reset with page0 := [(0, b)], seq := { Seq.reset with running := true } }).modChan 0
    fun ch => { ch with gate := { ch.gate with st := .running } }

theorem witness_BundleIssue :
    ∀ b ∈ [((Coded.zero : Bundle), true), (Coded.ofData (BitVec.ofNat 256 (2 ^ 252)), false), (⟨0, 0, 1⟩, false)],
      let s := sIssue b.1
      let q := (s.cell k0).seq
      let r := Coded.check ((s.cell k0).bundle q.page q.addr)
      s.hasChan k0.ch = true ∧ (s.chan k0.ch).gate.st = .running ∧ q.canIssue s.cy = true ∧
        (r.2.bad = none ∧ fldN r.1.data 252 4 = q.addr % 16 ↔ b.2 = true) := by
  decide +kernel

theorem witness_LoopIterates : 1 ≤ 1 ∧ 511 + 1 ≤ 512 ∧ ∀ p ∈ [(⟨0, 0, 5, 0⟩ : Loop)], p.last ≠ 511 + 1 - 1 := by
  decide

theorem witness_SequencerControl :
    (∀ op ∈ [1, 2, 3], (sCell (ct op 0)).slotReady k0 slCT = some (latchOf (ct op 0)) ∧
      (sCell (ct op 0)).hasChan k0.ch = true ∧ ctOp (latchOf (ct op 0)).ct = op) ∧
    (∀ n ∈ [0, 1],
      let s := State.reset.setCell k0 { Cell.reset with seq := { Seq.reset with idle := true, nextAt := n } }
      s.hasChan k0.ch = true ∧ (s.cell k0).seq.idle = true ∧ ((s.cell k0).seq.nextAt ≤ s.cy ↔ n = 0)) := by
  decide +kernel

def sBarrier (op : Nat) (b : Barrier) : State :=
  (sCell (ct op 0)).modChan 0 fun ch => { ch with barriers := [(0, b)] }
def sTree (op : Nat) (x : FlagTree) : State :=
  (sCell (ct op (2 ^ 16))).modChan 0 fun ch => { ch with trees := [(0, x)] }

theorem witness_BarriersAndFlagTrees :
    (∀ b ∈ [((⟨[k0.num], [], none⟩ : Barrier), true, false), (⟨[k0.num, 0], [], none⟩, true, false),
        (⟨[k0.num], [k0.num], some 5⟩, true, true), (⟨[0], [], none⟩, false, false)],
      let s := sBarrier 8 b.1
      let x := Smap.get Barrier.none_ ((s.chan 0).releaseGroup 0 s.cy).barriers 0
      s.slotReady k0 slCT = some (latchOf (ct 8 0)) ∧ ctOp (latchOf (ct 8 0)).ct = 8 ∧
        fldN (latchOf (ct 8 0)).ct 6 12 = 0 ∧ x.members.contains k0.num = b.2.1 ∧ x.latched.contains k0.num = b.2.2) ∧
    (let s := sBarrier 9 ⟨[k0.num], [], none⟩
    s.slotReady k0 slCT = some (latchOf (ct 9 0)) ∧ ctOp (latchOf (ct 9 0)).ct = 9) ∧
    (∀ r ∈ [none, some 0, some 1],
      let s := sBarrier 0 ⟨[k0.num], [k0.num], r⟩
      s.hasChan 0 = true ∧ (Smap.get Barrier.none_ (s.chan 0).barriers 0).releaseAt = r) ∧
    (∀ op ∈ [0x0A, 0x0B, 0x0C, 0x0D], ∀ x ∈ [((⟨[k0.num, 0], [k0.num], []⟩ : FlagTree), true), (⟨[0], [], []⟩, false)],
      let s := sTree op x.1
      s.slotReady k0 slCT = some (latchOf (ct op (2 ^ 16))) ∧ ctOp (latchOf (ct op (2 ^ 16))).ct = op ∧
        fldN (latchOf (ct op (2 ^ 16))).ct 6 10 = 0 ∧ (s.treeOf k0 0).members.contains k0.num = x.2 ∧
        (s.envOf k0).off < treeLatency (s.treeOf k0 0).members.length) := by
  decide +kernel

theorem witness_TagCheckAndSignals :
    (∀ tag ∈ [0, 1],
      let s := sCell (ct 5 0) (withQ tag)
      s.slotReady k0 slCT = some (latchOf (ct 5 0)) ∧ ctOp (latchOf (ct 5 0)).ct = 5 ∧
        (s.cell k0).qin.getD 0 [] = [entry tag] ∧ expTag (s.cell k0).index (latchOf (ct 5 0)) 0 0 = 0) ∧
    ((sCell (ct 5 0)).cell k0).qin.getD 0 [] = [] ∧
    (∀ op ∈ [0x10, 0x11], ∀ n ∈ [0, 32768, 131071],
      let w := ct op (2 ^ 6 * n + 2 ^ 23 * 511)
      (sCell w).slotReady k0 slCT = some (latchOf w) ∧ ctOp (latchOf w).ct = op ∧ fldN (latchOf w).ct 6 17 = n ∧
        fldN (latchOf w).ct 23 9 + 1 = 512) := by
  decide +kernel

def sSync (v : W32) (kind : SyncKind) (n : Nat) (src : SyncSrc) : State :=
  { State.reset with sync := { State.reset.sync with counts := Smap.put 0 [] 7 v, ops := [⟨0, 7, kind, n, src, 3, 5, 0⟩] } }

theorem witness_CounterArithmetic :
    ∀ e ∈ ([(0x7FFFFFFE, SyncKind.signal, 1, true), (0x7FFFFFFF, .signal, 1, false), (1, .take, 1, true),
        (0, .take, 1, false)] : List (W32 × SyncKind × Nat × Bool)),
      ∀ src ∈ [SyncSrc.cell 0 162, SyncSrc.endpoint 3],
      let s := sSync e.1 e.2.1 e.2.2.1 src
      let v := (s.count 7).toInt
      let v' := if e.2.1 = .signal then v + e.2.2.1 else v - e.2.2.1
      s.sync.ops.length = 1 ∧ s.counterAbsent 7 = false ∧ s.sync.waits = [] ∧ Smap.wf 0 s.sync.counts = true ∧
        ((e.2.1 = .signal ∧ v' < 2 ^ 31 ∨ e.2.1 = .take ∧ 0 ≤ v') ↔ e.2.2.2 = true) := by
  decide +kernel

/-! ### Witnesses: blocks, gates, recovery -/

/-- A block of channel 0, of 8 cycles, with band 0; and one of channels 0 and 1. -/
def bOne : BEntry := BitVec.ofNat 512 (8 + 2 ^ 32 + 2 ^ 64)
def bTwo : BEntry := BitVec.ofNat 512 (8 + 3 * 2 ^ 32 + 2 ^ 48)

def imgOf (blocks : List BEntry) (chset : BitVec 4) : Image :=
  ⟨0, 0, 0, 4, { emptyPart with chset := chset, blocks := blocks }, []⟩

theorem noMark_of {s : State} (h : s.tide.orders = Vector.replicate 4 none) : s.noMark := by
  intro n o ho
  simp only [State.orderAt, h] at ho
  by_cases hn : n < 4 <;> simp [Vector.getD, hn] at ho

/-- The image of those blocks in force, channels 0 and 1 waiting to open `b`. -/
def sOpen (b : BEntry) (f : Gate → Gate := id) : State :=
  let g : Gate := f { Gate.reset with st := .gate, phase := .opening, next := some b }
  let s : State := { State.reset with img := ⟨some (imgOf [bOne, bTwo] 3), 0, 0, []⟩ }
  let s := s.modChan 0 fun ch => { ch with gate := g, resident := [(0, 0)], core := { ch.core with wait := .gate 0 5 } }
  s.modChan 1 fun ch => { ch with gate := { g with ready := true } }

theorem witness_BlockRuns :
    (∀ two : Bool,
      let b := if two then bTwo else bOne
      let s := sOpen b
      s.hasChan 0 = true ∧ s.newFaults = [] ∧ (s.chan 0).gate.target = some b ∧ beLeader b = 0 ∧
        s.wrongPeer 0 b = none ∧ s.tide.orders = Vector.replicate 4 none ∧ (s.chan 0).gate.resetDue = false ∧ s.mayPass 0 (BitVec.allOnes 7) = true ∧
        (∀ d ∈ s.setOf b, (s.chan d).gate.lateStop = 0) ∧ ((s.setOf b).length = 1 ↔ two = false)) ∧
    (∀ r ∈ [0, 1],
      let s := sOpen bOne fun g => { g with phase := .delay r }
      (s.chan 0).gate.phase = .delay r ∧ (s.chan 0).gate.target = some bOne ∧ s.setOf bOne = [0] ∧
        (s.cy < r ↔ r = 1) ∧ (s.chan 0).core.wait = .gate 0 5 ∧ (s.chan 0).gate.restarted = false ∧
        beBand bOne 0 0 = true) ∧
    (∀ cy ∈ [7, 8],
      let s : State := { sOpen bOne fun g => { g with st := .running, block := some bOne } with cy := cy }
      (s.chan 0).gate.block = some bOne ∧ (s.chan 0).gate.st = .running ∧
        (s.cy < (s.chan 0).gate.releaseCy + beLen bOne ↔ cy = 7)) := by
  decide +kernel

theorem witness_GateCloses :
    ∀ e ∈ [(false, false), (false, true), (true, false)],
      let s := sOpen bOne fun g => { g with phase := .closing, block := some bOne, faulted := e.1, halted := e.2 }
      s.hasChan 0 = true ∧ s.newFaults = [] ∧ (s.chan 0).gate.block = some bOne ∧ s.setOf bOne = [0] ∧
        s.closed 0 = true ∧ (∀ x ∈ s.growth 0 bOne ++ s.identities 0, x.2.1 = x.2.2) ∧
        (∀ g ∈ (s.chan 0).barriers, g.2.latched = []) ∧ (s.chan 0).gate.resetDue = false ∧
        s.tide.orders = Vector.replicate 4 none ∧ s.recov.saveDue = false ∧ (s.chan 0).gate.slackPassed = true ∧
        (s.chan 0).regs2.fwDue = false ∧ (s.chan 0).regs.stopAfter ≠ (s.chan 0).gate.seq ∧
        (s.chan 0).gate.stopNow = false ∧ s.mayReplay [0] = false ∧ (s.chan 0).gate.faulted = e.1 ∧
        (s.chan 0).gate.halted = e.2 := by
  decide +kernel

theorem witness_GateSignals :
    (let s := sOpen bTwo fun g => { g with ready := false }
     s.hasChan 1 = true ∧ (s.chan 1).gate.target = some bTwo ∧ s.tide.orders = Vector.replicate 4 none ∧
      bitAt (beChset bTwo) 1 = true ∧ beLeader bTwo = (0 : Chn).val ∧
      (s.chan 0).gate.target = some bTwo ∧ beJoint bTwo = 1 ∧
      (s.modGate 1 fun g => { g with ready := false }).mayPass 1 0b0110111 = true ∧
      ((s.modGate 1 fun g => { g with ready := false }).chan 1).gate.ready = false) ∧
    (∀ n ∈ [1000, 1001],
      let s := sOpen bOne fun g => { g with openTicks := n }
      (s.chan 0).gate.st = .gate ∧ (s.chan 0).regs.gwLim ≠ 0 ∧ (s.chan 0).gate.longSaid = false ∧
        ((s.chan 0).regs.gwLim.toNat < (s.chan 0).gate.openTicks ↔ n = 1001)) := by
  decide +kernel

/-- Channels 0 and 1 bound; a save due, of the joint block; or part of it written. -/
def sSave (active failed : Bool) : State :=
  let s := sOpen bTwo
  { s with recov := { s.recov with
    saveDue := true, saveTicks := 100000, saveActive := active, saveFailed := failed, written := [0, 1]
    slots := s.recov.slots.set! 0 (some (s.makeSlot 0 [])) } }

theorem witness_SavePoints :
    (sSave false false).flt.cadence ≠ 0 ∧ (sSave false false).flt.cadence.toNat ≤ (sSave false false).recov.saveTicks ∧
    State.reset.recov.saveTicks < State.reset.flt.cadence.toNat ∧
    (∀ c ∈ [(0 : Chn), 1],
      let s := sSave false false
      s.hasChan c = true ∧ s.saveWanted c = true ∧ s.messagesOut = false ∧ (s.chan c).gate.saved = false ∧
        s.tide.orders = Vector.replicate 4 none ∧
        (∀ d ∈ s.bound, s.saveWanted d = true ∧ (s.chan d).core.bcasts = []) ∧ (∀ n < 9, (s.msd n).retraining = false) ∧
        s.checkSaveSet.copySaveSet.isSome = true ∧ s.keeper = some 0) ∧
    (∀ failed ∈ [true, false],
      let s := sSave true failed
      s.recov.saveActive = true ∧ (∀ c ∈ s.bound, c.val ∈ s.recov.written) ∧ s.recov.saveFailed = failed ∧
        s.recov.saveStop = false ∧ s.bound = [0, 1] ∧ (∀ c, (s.chan c).gate.resetDue = false) ∧ (s.slotOf 0 (s.chan 0).nextSlot).isSome = true) := by
  refine ⟨?_, ?_, ?_, ?_, ?_⟩ <;> decide +kernel

/-- Channel 0 held by a fault, with what the last rollback saw; with complete slots of numbers 4 (B) and 3 (A)
when a poisoned fault may fall back. -/
def sHeld (f : Nat × Nat × Nat × W64) (auto_ : Bool) (last : List (Nat × Nat × Nat × W64)) (older : Bool) : State :=
  let s := sOpen bOne fun g => { g with st := .held, phase := .none, block := some bOne, faults := [f] }
  let v := fun (n : W64) => some { s.makeSlot 0 [] with complete := true, number := n }
  { s with
    flt := { s.flt with autoRollback := auto_ }
    recov := { s.recov with
      lastFaults := last, lastNumber := 4, lastSlotB := true
      slots := if older then (s.recov.slots.set! 0 (v 3)).set! 2 (v 3) else s.recov.slots } }

theorem witness_RecoveryDecision :
    ∀ auto_ : Bool,
      ∀ e ∈ ([((8, 1, 0, 0), [], false), ((8, 1, 0, 0), [(8, 1, 0, 0)], false), ((7, 4, 0, 0), [(7, 4, 0, 0)], false),
        ((7, 4, 0, 0), [(7, 4, 0, 0)], true)] : List ((Nat × Nat × Nat × W64) × List (Nat × Nat × Nat × W64) × Bool)),
      let s := sHeld e.1 auto_ e.2.1 e.2.2
      s.hasChan 0 = true ∧ s.newFaults = [] ∧ (s.chan 0).gate.st = .held ∧ s.blockFaults 0 = [e.1] ∧
        s.flt.recovering = false ∧ s.svc.mgmtSwitch = false ∧ s.cxl.quiescing = false ∧ s.cxl.quiesced = false ∧
        s.bound = [0, 1] ∧ s.flt.autoRollback = auto_ ∧ s.recov.lastFaults = e.2.1 ∧ s.recov.fellBack = [] ∧
        s.olderNumber = (if e.2.2 then some 3 else none) := by
  decide +kernel

/-- A rollback under way, with complete slots of number 3, their headers in HBM. -/
def sRoll (st : ChState) : State :=
  let s := sOpen bTwo fun g => { g with st := st, phase := .none }
  let v : Slot := { s.makeSlot 0 [] with complete := true, number := 3 }
  let hdm := fun (c : Chn) (m : Mem) => m.write (s.slotBase c false) (bytesLE 64 v.header)
  { s with
    mem := { s.mem with hdm := hdm 1 (hdm 0 s.mem.hdm) }
    recov := { s.recov with
      rolling := .rollback false none, slots := (s.recov.slots.set! 0 (some v)).set! 2 (some v) } }

theorem witness_RollbackRestores :
    (let s := sRoll .running
     s.newFaults = [] ∧ s.tide.orders = Vector.replicate 4 none ∧ s.recov.rolling = .rollback false none ∧ s.svc.mgmtSwitch = false ∧
      (∃ c ∈ s.bound, (s.chan c).canRoll = false)) ∧
    (let s := sRoll .held
     (∀ c ∈ s.bound, (s.chan c).canRoll = true) ∧ s.recov.subDue = [] ∧ (∀ c, (s.chan c).gate.resetDue = false) ∧
      s.canRestore false = some 3 ∧ s.bound = [0, 1] ∧ (∀ c ∈ s.bound, (s.restoreSlot false c).isSome = true)) := by
  decide +kernel

def subTask : Task := ⟨.substitute 0 5, 10, true, [1], 0, none⟩

theorem witness_ColumnSubstitution :
    State.reset.hasChan 0 = true ∧ State.reset.runningTask (.substitute 0 5) = none ∧
    (let s : State := { State.reset with svc := { State.reset.svc with openMark := some 10, tasks := [subTask] } }
     s.runningTask (.substitute 0 5) = some subTask ∧ (s.chan 0).spareFor 5 = some 80) ∧
    (∀ p ∈ [0, 79], Chan.reset.regs.out0.toNat < Chan.reset.regs.out1.toNat ∧ Chan.reset.regs.out1.toNat ≤ 81 ∧
      p ≠ Chan.reset.regs.out0.toNat ∧ p ≠ Chan.reset.regs.out1.toNat ∧ Chan.reset.spareFor p = some 80) := by
  decide +kernel

theorem witness_RecoveryWindows :
    (let s := State.reset
     s.recov.ceTicks < s.flt.ceWin.toNat ∧
      (∃ n, s.flt.ceWin.toNat ≤ ({ s with recov := { s.recov with ceTicks := n } } : State).recov.ceTicks) ∧
      s.hasChan 3 = true) ∧
    (let f : FltRegs := { FltRegs.reset with prod := 5, cons := 2 }
     f.cons.toNat ≤ (2 : W64).toNat ∧ (5 : W64).toNat ≤ f.prod.toNat ∧ (1 : W64).toNat < f.cons.toNat ∧
      f.prod.toNat < (6 : W64).toNat) := by
  refine ⟨⟨by decide, ⟨_, le_refl _⟩, rfl⟩, by decide⟩

theorem witness_FaultLogNeverOverfills :
    let s : State := { State.reset with flt := { State.reset.flt with prod := 4096 } }
    (s.flt.prod - s.flt.cons).toNat ≤ 4096 ∧ ∃ t, step s = .next t := ⟨by decide, _, rfl⟩

theorem witness_CountsStayCanonical :
    let s := sSync 5 .signal 1 (.endpoint 0)
    Smap.wf 0 s.sync.counts = true ∧ ∃ t, step { s with pending := [.counterOpArrive 7] } = .next t :=
  ⟨by decide, _, rfl⟩

/-! ### Witnesses: control cores -/

/-- An instruction word: MAJOR, d, a, b, and the rest. -/
def ins (major d a b rest : Nat) : Nat := 2 ^ 26 * major + 2 ^ 21 * d + 2 ^ 16 * a + 2 ^ 11 * b + rest

/-- Channel 0's core about to issue word `w` at address 0, with s1 and s2 given. -/
def sCore (w : Nat) (s1 s2 : W64 := 0) (f : Core → Core := id) : State :=
  (sOpen bOne).modChan 0 fun ch => { ch with core := f { Core.reset with
    started := true, imem := Mem.empty.write 0 (bytesLE 4 w)
    regs := (Core.reset.regs.set! 1 s1).set! 2 s2 } }

/-- The core issues `w`, of the kind named. -/
def issuesB (s : State) (kind : CoreKind) (w : Nat) : Bool :=
  s.hasChan 0 && s.coreReady 0 && (s.chan 0).core.fetch.2.bad.isNone &&
    decide ((s.chan 0).core.pc < returnAddr) && (s.chan 0).core.word = BitVec.ofNat 32 w &&
    coreKind (BitVec.ofNat 32 w) = some kind

theorem issues_of (s : State) (kind : CoreKind) (w : Nat) (h : issuesB s kind w = true) :
    s.issues 0 kind (BitVec.ofNat 32 w) := by
  simpa [issuesB, State.issues, and_assoc] using h

/-- Every core row issues in some state. -/
theorem witness_issues :
    ∀ e ∈ [(CoreKind.alu, 0x01, 0), (.iaddk, 0x02, 0), (.bandk, 0x03, 0), (.bork, 0x04, 0), (.bxork, 0x05, 0),
        (.shiftk, 0x06, 0), (.cltsk, 0x07, 0), (.cltuk, 0x08, 0), (.ldk, 0x09, 0), (.shins, 0x0A, 0),
        (.load, 0x10, 0), (.store, 0x11, 0), (.branch, 0x18, 0), (.call, 0x19, 0), (.jreg, 0x1A, 0),
        (.ssig, 0x20, 0), (.swait, 0x20, 1), (.stake, 0x20, 2), (.sset, 0x20, 3), (.srd, 0x20, 4),
        (.msend, 0x21, 0), (.mrecv, 0x21, 1), (.mpoll, 0x21, 2), (.gate, 0x22, 0), (.bcast, 0x23, 0),
        (.sopen, 0x24, 0), (.scancel, 0x24, 1), (.sdepth, 0x24, 2), (.wkrd, 0x25, 0), (.wkwr, 0x25, 1),
        (.csrr, 0x26, 0), (.csrw, 0x26, 0x1000), (.rdtide, 0x26, 0x2000), (.rdfwait, 0x26, 0x3000),
        (.rdrand, 0x26, 0x4000), (.rdcyc, 0x26, 0x5000), (.flgclr, 0x26, 0x6000), (.evsig, 0x26, 0x7000)],
      let w := 2 ^ 26 * e.2.1 + 2 ^ 21 * 5 + e.2.2
      issuesB (sCore w) e.1 w = true := by
  decide +kernel

theorem witness_CoreArithmetic :
    (∀ fn ∈ [0x000, 0x00E, 0x013],
      let w := ins 0x01 31 1 2 fn
      issuesB (sCore w 5 0) .alu w = true ∧ fldN (BitVec.ofNat 32 w) 0 11 = fn) ∧
    (∀ e ∈ [(0, 0, true), (0, 1, false), (5, 1, false)],
      let w := 2 ^ 26 * 0x18 + 2 ^ 21 * 1 + 2 ^ 18 * e.1 + 2
      let s := sCore w (w64 e.2.1)
      issuesB s .branch w = true ∧ ((fldN (BitVec.ofNat 32 w) 18 3 = 0 ∧ (s.chan 0).core.reg 1 = 0) ↔ e.2.2 = true)) ∧
    (∀ v ∈ [0, 0xFFFC, 0xFFFD, 0x10000, 0x10001],
      let w := ins 0x1A 5 1 0 0
      issuesB (sCore w (w64 v)) .jreg w = true ∧
        ((sCore w (w64 v)).chan 0).core.reg 1 + BitVec.ofInt 64 (4 * fldI (BitVec.ofNat 32 w) 0 16) = w64 v) := by
  refine ⟨?_, ?_, ?_⟩ <;> decide +kernel

theorem witness_CoreMemory :
    (let w := ins 0x10 5 1 0 (2 ^ 13 * 6)
     issuesB (sCore w 0x3FFFE) .load w = true ∧ ((sCore w 0x3FFFE).chan 0).core.dmem.resid = [] ∧
      ((sCore w 0x3FFFE).chan 0).core.dmem.poison = []) ∧
    (let w := ins 0x10 5 1 0 (2 ^ 13 * 3)
     let s := sCore w 0 0 fun k => { k with dmem := k.dmem.setPoison 0 true }
     issuesB s .load w = true ∧ ((s.chan 0).core.dread 0 8).2.bad ≠ none) ∧
    (let w := ins 0x11 1 1 0 (2 ^ 13 * 3)
     issuesB (sCore w 0x3FFFE) .store w = true ∧ ((sCore w 0x3FFFE).chan 0).core.dmem = Mem.empty) := by
  refine ⟨?_, ?_, ?_⟩ <;> decide +kernel

theorem witness_CoreSync :
    issuesB (sCore (ins 0x20 5 1 2 1) 7 3) .swait (ins 0x20 5 1 2 1) = true ∧
    (∀ e ∈ ([(SyncKind.read 5, 0, 5, 7), (.wait, 3, 3, 7), (.wait, 4, 3, 7), (.wait, 0, 0, 131072)] :
        List (SyncKind × Nat × W32 × Nat)),
      let s : State := { sOpen bOne with sync := { State.reset.sync with
        counts := Smap.put 0 [] 7 e.2.2.1, ops := [⟨0, e.2.2.2, e.1, e.2.1, .endpoint 0, 0, 0, 0⟩] } }
      s.hasChan 0 = true ∧ s.sync.ops.length = 1 ∧ s.sync.waits = [] ∧ Smap.wf 0 s.sync.counts = true ∧
        (s.counterAbsent e.2.2.2 = true ↔ e.2.2.2 = 131072) ∧
        ((e.2.1 : Int) ≤ (s.count 7).toInt ↔ e.2.1 ≠ 4)) := by
  refine ⟨?_, ?_⟩ <;> decide +kernel

def msg0 : Msg := ⟨0, 1, 3, Coded.zero⟩
def withPort (i : Nat) (p : MsgPort) (s : State) : State := { s with ports := s.ports.set! i p }

theorem witness_CoreMessages :
    (∀ n ∈ [0, 4],
      let w := ins 0x21 0 1 2 0
      let s := withPort 0 { MsgPort.reset with out := List.replicate n msg0 } (sCore w 0 (w64 (1 + 256 * 3)))
      issuesB s .msend w = true ∧ s.hasPort (fldN ((s.chan 0).core.reg 2) 0 8) = true ∧
        (s.port 0).out.length = n ∧ s.hasPort 0xFF = false) ∧
    (∀ n ∈ [3, 4], ∀ said : Bool,
      let s := withPort 0 { MsgPort.reset with out := List.replicate n msg0 }
        (sCore 0 0 0 fun k => { k with wait := .send msg0, sendTicks := 1000, stallRaised := said })
      s.hasChan 0 = true ∧ (s.chan 0).core.wait = .send msg0 ∧ s.hasPort msg0.dst.toNat = true ∧
        (s.port 0).out.length = n ∧ (s.chan 0).regs2.stallLimit.toNat ≤ (s.chan 0).core.sendTicks ∧
        (s.chan 0).core.stallRaised = said) ∧
    (∀ e ∈ [(true, false, 15), (true, false, 16), (true, true, 0), (false, false, 0)],
      let s := withPort 1 ⟨[], if e.2.1 then some msg0 else none, List.replicate e.2.2 msg0, e.1, 0⟩
        (withPort 0 { MsgPort.reset with out := [msg0] } State.reset)
      portOf 0 = some 0 ∧ portOf 1 = some 1 ∧ (s.port 0).out = [msg0] ∧ msg0.dst = 1 ∧ (s.port 1).isOpen = e.1 ∧
        ((s.port 1).input = none ↔ e.2.1 = false) ∧ (s.port 1).inbox.length = e.2.2) ∧
    (∀ tag ∈ [3, 4],
      let w := ins 0x21 5 1 2 1
      let s := withPort 0 { MsgPort.reset with inbox := [msg0] } (sCore w 0 (w64 (256 * tag)))
      let f := (s.chan 0).core.reg 2
      issuesB s .mrecv w = true ∧ (s.port 0).input = none ∧
        ((bitAt f 63 || msg0.tag = fld f 8 16) = true ↔ tag = 3)) ∧
    (∀ tag ∈ [3, 4],
      let s := withPort 0 { MsgPort.reset with inbox := [msg0] }
        (sCore 0 0 0 fun k => { k with wait := .recv 0 (w64 (256 * tag)) 5, waitTicks := 10000 })
      s.hasChan 0 = true ∧ (s.chan 0).core.wait = .recv 0 (w64 (256 * tag)) 5 ∧
        (passes (w64 (256 * tag)) msg0 = true ↔ tag = 3) ∧ (s.chan 0).core.waitLong = false ∧
        (s.chan 0).regs2.waitLim ≠ 0 ∧ (s.chan 0).regs2.waitLim.toNat ≤ (s.chan 0).core.waitTicks) ∧
    (State.reset.chan 0).core.waitTicks < (State.reset.chan 0).regs2.waitLim.toNat := by
  refine ⟨?_, ?_, ?_, ?_, ?_, ?_⟩ <;> decide +kernel

/-- The ticks for which a management core waits before its stall is recorded are an open value. -/
theorem witness_CoreMessages_mgmt :
    let r := State.reset
    let k : MgmtCore := { r.sync.mgmt[3] with sending := some msg0, sendTicks := Config.mgmtStallLimit }
    let s := { r with sync := { r.sync with mgmt := r.sync.mgmt.set 3 k } }
    (s.sync.mgmt[3]).sending = some msg0 ∧ (s.sync.mgmt[3]).stallRaised = false ∧
      Config.mgmtStallLimit ≤ (s.sync.mgmt[3]).sendTicks ∧ (r.sync.mgmt[3]).sending = none :=
  ⟨rfl, rfl, le_refl _, rfl⟩

theorem witness_CoreGateAndBroadcast :
    ∀ good : Bool, let w := ins 0x22 5 1 0 0
      let b := if good then BitVec.ofNat 512 (withCrc 64 bOne.toNat) else bOne
      let s : State := { sCore w with img := ⟨some (imgOf [b] 1), 0, 0, []⟩ }
      let s := s.modGate 0 fun g => { g with phase := .waitGate }
      issuesB s .gate w = true ∧ s.sync.ops = [] ∧ s.newFaults = [] ∧ s.intervalFaults 0 = [] ∧
        (s.chan 0).gate.phase = .waitGate ∧ (s.chan 0).gate.st = .gate ∧ s.part.blocks = [b] ∧
        (s.badEntry 0 0 = none ↔ good = true) ∧ (crcGood 64 b.toNat = false ↔ good = false) := by
  decide +kernel

theorem witness_CoreSystem :
    (∀ e ∈ [(0xFFFFFFFF, 0, false), (0x08000000, 0, false), (0, 0x10000, false), (0, 0, true)],
      let s := sCore e.1 0 0 fun k => { k with
        pc := e.2.1, imem := if e.2.2 then k.imem.setPoison 0 true else k.imem }
      s.hasChan 0 = true ∧ s.coreReady 0 = true ∧ (s.chan 0).core.pc = e.2.1 ∧
        ((s.chan 0).core.fetch.2.bad = none ↔ e.2.2 = false) ∧
        (coreKind (s.chan 0).core.word = none ↔ e.1 ≠ 0x08000000)) ∧
    (∀ n ∈ [0, 1, 2, 3], issuesB (sCore (ins 0x26 5 1 0 n)) .csrr (ins 0x26 5 1 0 n) = true ∧
      issuesB (sCore (ins 0x26 5 1 2 n)) .csrw (ins 0x26 5 1 2 n) = true) ∧
    (∀ bad : Bool,
      let s : State := { sCore (ins 0x26 5 0 8 0) with sec := { Sec.reset with
        drbgs := Sec.reset.drbgs.set! 0 ⟨0, bad⟩ } }
      issuesB s .rdrand (ins 0x26 5 0 8 0) = true ∧ (s.sec.drbgs.getD 0 ⟨0, false⟩).unhealthy = bad ∧
        (s.sec.drbgs.getD 0 ⟨0, false⟩).used < 65536) := by
  refine ⟨?_, ?_, ?_⟩ <;> decide +kernel

theorem witness_CoreFrame : answers (.alu 0) (sCore (ins 0x01 5 1 2 0) 3 4) = true ∧
    answers (.store 0) (sCore (ins 0x11 1 1 0 (2 ^ 13 * 3)) 3) = true := by
  decide +kernel

/-! ### Witnesses: streams and memory -/

/-- A tensor of 32 F32 elements at address 0: two beats. -/
def tens : TDesc := BitVec.ofNat 512 (withCrc 64 (2 ^ 64 * 32 + 2 ^ 384 * 0x0D + 2 ^ 392 + 2 ^ 448))

def streamDesc (tensor queue drain : Nat) : SDesc :=
  BitVec.ofNat 256 (withCrc 32 (tensor + 2 ^ 16 * queue + 2 ^ 22 * drain + 2 ^ 128 * 2))

/-- Channel 0 with one stream descriptor, tensor 1 mapped by window entry 0. -/
def sStream (d : SDesc) (e : W64 := 5) (f : Core → Core := id) : State :=
  let part := { emptyPart with chset := 1, streamDescs := ⟨[d], [], [], []⟩ }
  let s := { sCore 0 0 0 f with img := ⟨some ⟨0, 0, 0, 4, part, []⟩, 0, 0, []⟩ }
  { s with mem := { s.mem with tdt := [(1, tens)], wtab := Smap.put 0 [] 0 e } }

def strm0 : Strm := ⟨0, 0, 0, 0, false, none⟩

theorem witness_StreamsOpenAndCancel :
    (∀ e ∈ [(63, 0, 0, true), (0, 1, 0, true), (31, 1, 0, true), (32, 1, 0, false), (5, 0, 3, true)],
      let d := streamDesc 1 e.1 e.2.1
      let s := (sStream d 5 fun k => { k with wait := .sopen 0 0 }).modSq 0 5 fun x => { x with
        pend := List.replicate e.2.2.1 strm0 }
      s.hasChan 0 = true ∧ (s.chan 0).core.wait = .sopen 0 0 ∧ (s.part.streamDescs.get 0)[0]? = some d ∧
        (s.queueFull 0 d = true ↔ e.2.2.1 = 3) ∧ (s.checkDesc d = none ↔ e.2.2.2 = true) ∧ sdQueue d = e.1 ∧
        (sdDrain d = true ↔ e.2.1 = 1)) ∧
    issuesB (sCore (ins 0x24 0 1 2 0)) .sopen (ins 0x24 0 1 2 0) = true ∧
    issuesB (sCore (ins 0x24 0 1 2 1) 63) .scancel (ins 0x24 0 1 2 1) = true ∧
    issuesB (sCore (ins 0x24 0 1 2 2) 64) .sdepth (ins 0x24 0 1 2 2) = true ∧
    (let s := sStream (streamDesc 1 0 0) 5 fun k => { k with wait := .scancel 63 }
     (s.chan 0).core.wait = .scancel 63 ∧ (s.sqOf 0 63).beats = []) ∧
    (let s := sStream (streamDesc 1 0 0) 5 fun k => { k with wait := .sopen 1 0 }
     (s.chan 0).core.wait = .sopen 1 0 ∧ (s.part.streamDescs.get 0)[1]? = none) := by
  refine ⟨?_, ?_, ?_, ?_, ?_, ?_⟩ <;> decide +kernel

def sFetch (e : W64) (f : StreamQ → StreamQ := id) : State :=
  (sStream (streamDesc 1 63 0) e).modSq 0 63 fun x => f { x with cur := some strm0, cap := 4 }

/-- The index bytes and the placed elements of the first beat of a queue's stream. -/
def firstBeat (s : State) (drain : Bool) (q : Nat) : List (Bool × Nat) × State × List (Loc × Nat) × Option Placed :=
  let die := queueDie 0 drain q
  let t0 := s.tensor (sdTensor (s.sdesc 0 0))
  let ix := s.indexBytes die (q % 16) t0 (sdStart (s.sdesc 0 0))
  (ix, (s.indexReads die (tdShared (s.tensor (tdIndex t0))) (hdmOf ix)).placeBeat die (q % 16) t0 drain
    (sdStart (s.sdesc 0 0)))

/-- Tensor 1 takes its rows from the values of tensor 2, the first of which is negative. -/
def sIndex : State :=
  let s := sFetch 5
  { s with mem := { s.mem with
    tdt := [(1, tens ||| BitVec.ofNat 512 (2 ^ 417)), (2, tens)], hdm := Mem.empty.write 0 [0, 0, 0, 0x80] } }

theorem witness_BeatsAreFetched :
    (∀ e ∈ [5, 0],
      let s := sFetch (w64 e)
      s.hasChan 0 = true ∧ s.fetchTurn 0 63 = true ∧ (s.sqOf 0 63).cur = some strm0 ∧
        s.indexWaits (firstBeat s false 63).1 = false ∧
        ((firstBeat s false 63).2.2.2 = none ↔ e = 5) ∧
        ((firstBeat s false 63).2.2.2 = some (.page 1 0) ↔ e = 0)) ∧
    (sIndex.fetchTurn 0 63 = true ∧ (sIndex.sqOf 0 63).cur = some strm0 ∧
      sIndex.indexWaits (firstBeat sIndex false 63).1 = false ∧
      (firstBeat sIndex false 63).2.2.2 = some (.range (-2147483648))) ∧
    (let s := sIndex.modMsd 0 fun d => { d with retraining := true }
     s.fetchTurn 0 63 = true ∧ s.indexWaits (firstBeat s false 63).1 = true) ∧
    (sStream (streamDesc 1 63 0)).fetchTurn 0 63 = false ∧
    (∀ e ∈ [(0, false), (1, false), (0, true)],
      let r : ReadOp := ⟨e.1, 8, [⟨[(false, 0), (false, 1)], none, false⟩], e.2, false⟩
      let s := sFetch 5 fun x => { x with reads := [r] }
      (s.sqOf 0 63).reads.find? (fun r => r.pos = e.1) = some r ∧ r.hdmBytes.any (s.stackWait true) = false ∧
        r.locs.any Loc.host = false ∧ (s.sqOf 0 63).arrived = [] ∧ (s.sqOf 0 63).cur = some strm0) := by
  refine ⟨?_, ?_, ?_, ?_, ?_⟩ <;> decide +kernel

theorem witness_DrainsAndEdgePlan :
    (∀ e ∈ [5, 0],
      let s := (sStream (streamDesc 1 31 1) (w64 e)).modDq 0 31 fun x => { x with
        cur := some strm0, beats := [⟨Coded.zero, 0, 0⟩] }
      s.hasChan 0 = true ∧ (s.dqOf 0 31).cur = some strm0 ∧ (s.dqOf 0 31).beats = [⟨Coded.zero, 0, 0⟩] ∧
        (s.dqOf 0 31).halted = false ∧ strm0.dead = false ∧ s.hasHeld 7 = false ∧ s.drainsPassed 0 strm0 = true ∧
        s.indexWaits (firstBeat s true 31).1 = false ∧ ((firstBeat s true 31).2.2.2 = none ↔ e = 5) ∧
        ((firstBeat s true 31).2.2.2 = some (.page 1 0) ↔ e = 0) ∧
        (∀ l ∈ (firstBeat s true 31).2.2.1, l.1.host = false) ∧ tdDigest tens = false) ∧
    (let s := sStream (streamDesc 1 31 3)
     sdAfter (s.sdesc 0 0) = true ∧ s.drainsBelow 0 1 = false) ∧
    (∀ n < 9, (State.reset.msd n).retraining = false ∧ (State.reset.msd n).snoop = []) ∧
    (∀ e ∈ [(0, 79, 0), (0, 80, 1), (2 ^ 94, 5, 0), (2 ^ 94, 5, 2)],
      let run : W128 := BitVec.ofNat 128 (e.1 + 2 ^ 32 + 2 ^ 64 + 2 ^ 80 * e.2.1)
      let s := (sOpen bOne fun g => { g with st := .running, block := some bOne }).modChan 0 fun ch => { ch with
        drainOut := [(0, 5, entry 1)] }
      let part := { emptyPart with chset := 1, codeSets := [⟨Quad.all [], ⟨[run], [], [], []⟩⟩] }
      let s := { s with img := ⟨some ⟨0, 0, 0, 4, part, []⟩, 0, 0, []⟩ }
      let s := (s.modDq 0 0 fun x => { x with cap := 1, beats := List.replicate e.2.2 ⟨Coded.zero, 0, 0⟩ }).modSq 0 0 fun x =>
        { x with beats := if e.2.2 = 1 then [] else [⟨entry 1, 0, 0, 0, none⟩] }
      let off := s.cy - (s.chan 0).gate.releaseCy
      (s.edgePlan 0)[0]? = some run ∧ (s.chan 0).gate.st = .running ∧ fldN run 0 32 ≤ off ∧
        (off - fldN run 0 32) % fldN run 64 16 = 0 ∧ (off - fldN run 0 32) / fldN run 64 16 < fldN run 32 32 ∧
        0 ∉ (s.chan 0).edgeDone ∧ (bitAt run 94 = true ↔ e.1 ≠ 0) ∧ fldN run 80 8 = e.2.1 ∧ fldN run 88 6 = 0 ∧
        ((s.sqOf 0 0).beats = [] ↔ e.2.2 = 1) ∧
        ((s.chan 0).drainOut.find? fun o => o.1 = s.cy && o.2.1 = 5) = some (0, 5, entry 1)) := by
  refine ⟨?_, ?_, ?_, ?_⟩ <;> decide +kernel

theorem witness_WicketPath :
    (∀ va ∈ [0, 1],
      let w := ins 0x25 5 1 2 0
      let s := sCore w 0 (w64 (va + 2 ^ 52 * 255))
      issuesB s .wkrd w = true ∧ (256 < ((s.chan 0).core.reg 2).toNat % 2 ^ 52 % 256 + 256 ↔ va = 1)) ∧
    (∀ e ∈ [(5, true, 0), (5, false, 0), (0, false, 1), (3, false, 3), (0x71 + 2 ^ 63, false, 4), (1, true, 2)],
      let s := sStream (streamDesc 1 0 0) (w64 e.1) fun k => { k with wait := .wicket e.2.1 0 16 0 5 }
      let x := s.entryFor 0 16 0
      let ok := bitAt x 0 = true ∧ fldN x 8 13 = 0
      s.hasChan 0 = true ∧ (s.chan 0).core.wait = .wicket e.2.1 0 16 0 5 ∧ (∀ n < 9, (s.msd n).retraining = false ∧ (s.msd n).snoop = []) ∧
        (e.2.2 = 1 ∧ ¬ ok ∨ e.2.2 = 3 ∧ ok ∧ bitAt x 1 = true ∨
          e.2.2 = 4 ∧ ok ∧ bitAt x 1 = false ∧ s.frameOk x = false ∨
          e.2.2 = 2 ∧ ok ∧ bitAt x 1 = false ∧ s.frameOk x = true ∧ e.2.1 = true ∧ bitAt x 2 = false ∨
          e.2.2 = 0 ∧ ok ∧ bitAt x 1 = false ∧ s.frameOk x = true ∧ (e.2.1 = true → bitAt x 2 = true))) := by
  refine ⟨?_, ?_⟩ <;> decide +kernel

theorem witness_MemorySideRows :
    ({ State.reset with four := false } : State).hasMsd 7 = false ∧ State.reset.hasMsd 7 = true ∧
    State.reset.mem.hdm.resid = [] ∧ (State.reset.msd 7).scrubPeriod ≠ 0 ∧
    ((State.reset.modMsd 7 fun d => { d with scrubPeriod := 0 }).msd 7).scrubPeriod = 0 ∧
    (∀ j < 16, (State.reset.mem.hdm.cw ((7 * 2 ^ 36 + 256 * (2 ^ 28 - 1)) / 16 + j)).clean = true) := by
  decide +kernel

theorem witness_HostMemory :
    State.reset.cxl.memActive = false ∧
    (let s : State := { State.reset with cxl := { State.reset.cxl with memActive := true }, cmd := { State.reset.cmd with winBase := 0xE80000000 } }
     (s.hostAccess 0xE80000000).1 = true ∧ (∀ n < 9, (s.msd n).retraining = false) ∧
      (Smap.get [] (s.msd 0).snoop 0).length < 16 ∧
      (∀ q : Bool, let t := (({ s with cxl := { s.cxl with quiesced := q } } : State)).modMsd 0 fun d => { d with
          snoop := [(0, (List.range 16).map (131072 * (· + 1)))] }
        t.cxl.quiesced = q ∧ 16 ≤ (Smap.get [] (t.msd (0 / 64 * 64 / stackBytes)).snoop (0 / 64 % 131072)).length ∧
          0 / 64 ∉ Smap.get [] (t.msd (0 / 64 * 64 / stackBytes)).snoop (0 / 64 % 131072)) ∧ (s.hostAccess 0xE80100000).1 = false ∧
      (s.hostAccess 0xE84000000).1 = true ∧ (s.hostAccess 0xE84000000).2 = false ∧ (s.hostAccess 0).2 = true ∧
      s.cmd.winBase.toNat ≤ 0xE80000100 / 64 * 64 ∧ 0xE80000100 / 64 * 64 < s.cmd.winBase.toNat + 2 ^ 20 ∧
      (0xE80000100 / 64 * 64 - s.cmd.winBase.toNat) / 256 = s.cmd.next.toNat % 4096 ∧
      (s.hostAccess 0xE80000100).2 = true) ∧
    (let s : State := { State.reset with mem := { State.reset.mem with
        snooping := [3], heldWrites := [⟨0, [3], plainWrites 192 [7]⟩] } }
     (∀ n < 9, (s.msd n).retraining = false) ∧ 192 / 64 ∈ s.mem.snooping ∧ s.mem.heldWrites = [⟨0, [192 / 64], plainWrites 192 [7]⟩] ∧
      256 / 64 ∉ s.mem.snooping) := by
  refine ⟨?_, ?_, ?_⟩ <;> decide +kernel

theorem witness_WindowTable :
    State.reset.readsOut = false ∧ State.reset.mem.heldWrites = [] ∧
    (sFetch 5 fun x => { x with reads := [⟨0, 8, [], false, false⟩] }).readsOut = true ∧
    (∀ n < 9, (State.reset.msd n).tcache = []) ∧
    State.reset.useEntry 5 (2 ^ 38) true = .ok false 0 ∧ State.reset.useEntry 5 0 false = .ok false 0 := by
  decide +kernel

/-! ### Witnesses: the command window -/

/-- A command of sequence 1, its packet with MARK and parameters as given. -/
def cmdW (op : Nat) (par : Nat := 0) (mark : Option Nat := none) (f : Cmd → Cmd := id) : Cmd :=
  f (Cmd.fresh 1 (BitVec.ofNat 2048 (1 + 2 ^ 64 * op + 2 ^ 80 * (if mark.isSome then 1 else 0) + 2 ^ 96 * 192 +
    2 ^ 128 * mark.getD 0 + 2 ^ 256 * par)))

/-- That command alone is accepted and the link is up. -/
def sCmd (c : Cmd) (s : State := State.reset) : State :=
  { s with cmd := { s.cmd with accepted := [c] }, cxl := { s.cxl with up := true } }

def turnB (op : Nat) (c : Cmd) (s : State) : Bool := s.nextCmd = some c && c.seq = 1 && c.opcode = op

theorem turn_of (op : Nat) (c : Cmd) (s : State) (h : turnB op c s = true) : s.turnOf op 1 c := by
  simpa [turnB, State.turnOf, and_assoc] using h

/-- Reset with the watch at its slot 1, whose packet is given. -/
def sSlot (x : Nat) : State :=
  let s := { State.reset with mem := { State.reset.mem with hdm := State.reset.mem.hdm.write 256 (bytesLE 64 x) } }
  { s with cmd := { s.cmd with examine := true, ready := true, enable := true } }

def slotOf (seq op par : Nat) : Nat := seq + 2 ^ 64 * op + 2 ^ 96 * 8 + 2 ^ 256 * par
def goodSlot (x : Nat) : Nat := x + 2 ^ 224 * (packetCrc (BitVec.ofNat 2048 x)).toNat

/-- Packets of slots 1 and 2, good and bad, of a known opcode, an unknown one, and of an absent channel. -/
theorem witness_CommandSlots_packets :
    ∀ e ∈ [(goodSlot (slotOf 1 opCLEAR 0), 1, true), (goodSlot (slotOf 2 opCLEAR 0), 2, true),
        (goodSlot (slotOf 1 0xFFFF 0), 1, true), (goodSlot (slotOf 1 opSTART 0x8), 1, true),
        (slotOf 1 opCLEAR 0 + 2 ^ 224, 1, false)],
      let x : BitVec 2048 := BitVec.ofNat 2048 e.1
      fldN x 0 64 = e.2.1 ∧ packetGood x = e.2.2 := by decide +kernel

theorem witness_CommandSlots :
    (State.reset.cmd.examine = false ∨ State.reset.watchOpen = false) ∧
    (∀ f : Bool,
     let x := goodSlot (slotOf 1 opSTART 0x8)
     let s : State := { sSlot x with four := f }
     s.cmd.examine = true ∧ s.watchOpen = true ∧ s.stackWait true (s.slotAt s.cmd.next) = false ∧ s.cmd.next = 1 ∧
       s.slotBytesAt = BitVec.ofNat 2048 x) ∧
    ((Cmd.fresh 1 (BitVec.ofNat 2048 (slotOf 1 0xFFFF 0))).fields.isNone = true ∧
      ({ State.reset with four := false } : State).namesAbsent (Cmd.fresh 1 (BitVec.ofNat 2048 (slotOf 1 opSTART 0x8))) = true ∧
      State.reset.namesAbsent (Cmd.fresh 1 (BitVec.ofNat 2048 (slotOf 1 opSTART 0xF8))) = false) := by
  refine ⟨?_, ?_, ?_⟩ <;> decide +kernel

theorem witness_CommandComplete :
    State.reset.cmdOf 1 = none ∧
    (∀ e ∈ [(false, false), (true, false), (true, true)],
      let c := cmdW opSTOP 1 none fun c => { c with begun := e.1, finished := e.2 }
      let r := sCmd c (sOpen bOne)
      let s := { r with cmd := { r.cmd with enable := e.1 } }
      s.cmdOf 1 = some c ∧ c.begun = e.1 ∧ c.finished = e.2 ∧ c.opcode = opSTOP ∧ c.open_ = (e.1 && !e.2) ∧
        (∃ d ∈ s.maskOf c, s.busyChan d = true) ∧ s.cmd.room = e.1 ∧ s.cxl.up = true ∧ s.cmd.held = []) := by
  refine ⟨?_, ?_⟩ <;> decide +kernel

theorem witness_StopAfterBlock :
    (∀ n ∈ [0, 5, 2 ^ 64 - 1], ∀ m ∈ [0, 3],
      let c := cmdW opSTOPAFTER (m + 2 ^ 64 * n)
      let s := sCmd c (sOpen bOne)
      turnB opSTOPAFTER c s = true ∧ s.named (c.arg 0) = (if m = 3 then [0, 1] else []) ∧ c.arg 1 = n) ∧
    (∀ e ∈ ([(ChState.stopped, 2), (.stopped, 1), (.gate, 2)] : List (ChState × BitVec 3)),
      let c := cmdW opSTOPAFTER 1 none fun c => { c with begun := true }
      let s := sCmd c (sOpen bOne fun g => { g with st := e.1, stopCause := e.2 })
      s.cmdOf 1 = some c ∧ c.opcode = opSTOPAFTER ∧ c.open_ = true ∧ s.maskOf c = [0] ∧
        (s.chan 0).gate.st = e.1 ∧ (s.chan 0).gate.stopCause = e.2) := by
  refine ⟨?_, ?_⟩ <;> decide +kernel

def badPage0 (s : State) : State := { s with host := { s.host with bad := [0] } }

theorem witness_InfoCommands :
    (∀ op ∈ [opIDENTIFY, opFEATURES], ∀ bad : Bool, ∀ n ∈ [16, 600],
      let c := cmdW op (2 ^ 64 * n)
      let s := sCmd c (if bad then badPage0 State.reset else State.reset)
      turnB op c s = true ∧ c.arg 1 = n ∧ (0 ∈ s.host.bad ↔ bad = true)) ∧
    (∀ n ∈ [100, 10 ^ 6], let c := cmdW opATTEST (2 ^ 64 * n)
      turnB opATTEST c (sCmd c) = true ∧ c.arg 1 = n ∧ (sCmd c).host.bad = []) ∧
    (∀ st ∈ [ChState.stopped, .held, .running],
      let c := cmdW opDUMP (2 ^ 8 + 2 ^ 128 * 64)
      let s := sCmd c (sOpen bOne fun g => { g with st := st })
      turnB opDUMP c s = true ∧ s.host.bad = [] ∧
        ((s.chan (chnOf (c.arg 0))).gate.st = .stopped ∨ (s.chan (chnOf (c.arg 0))).gate.st = .held ↔ st ≠ .running)) ∧
    (let c := cmdW opDUMP (2 ^ 8 + 2 ^ 128 * 64)
     let s := badPage0 (sCmd c (sOpen bOne fun g => { g with st := .stopped }))
     let parts := ((List.range 7).filter fun k => c.arg 1 / 2 ^ k % 2 = 1).map fun k =>
       (s.begunCmd 1).dumpSection 0 (k + 1)
     turnB opDUMP c s = true ∧ c.arg 2 = 0 ∧ (dumpBytes (fitSections parts (c.arg 3))).length ≠ 0 ∧ s.host.bad = [0]) ∧
    (∀ active : Bool, ∀ n ∈ [100, 528, 600],
      let c := cmdW opSEAL (2 ^ 64 * n)
      let r := sCmd c (sOpen bOne fun g => { g with st := .stopped })
      let s := { r with job := { r.job with active := active } }
      turnB opSEAL c s = true ∧ c.arg 1 = n ∧ s.job.active = active ∧ s.bound = [0, 1] ∧
        (∀ d ∈ s.bound, (s.chan d).gate.st = .stopped) ∧ s.host.bad = []) ∧
    (∀ en ∈ [0, 1], let c := cmdW opEVENT (0x3FE + 2 ^ 16 * 9 + 2 ^ 32 * 7 + 2 ^ 64 * 63 + 2 ^ 80 * en)
      turnB opEVENT c (sCmd c) = true ∧ c.arg 0 = 0x3FE ∧ c.arg 3 = 63 ∧ c.arg 4 = en) ∧
    turnB opCLEAR (cmdW opCLEAR) (sCmd (cmdW opCLEAR)) = true := by
  refine ⟨?_, ?_, ?_, ?_, ?_, ?_, ?_⟩ <;> decide +kernel

/-- Whether a larger buffer holds the report rests on the certificates, which `Config` leaves open. -/
theorem witness_InfoCommands_attest :
    let c := cmdW opATTEST 0
    turnB opATTEST c (sCmd c) = true ∧ c.arg 1 < (((sCmd c).begunCmd 1).report (bytesLE 32 (c.arg 2))).length := by
  refine ⟨by decide +kernel, ?_⟩
  have h : (cmdW opATTEST 0).arg 1 = 0 := by decide +kernel
  rw [h]
  simp [State.report, bytesLE]

theorem witness_ImageCommands :
    (∀ e ∈ [(ChState.stopped, true), (.gate, false), (.running, false)], ∀ op ∈ [opLOAD, opBIND, opVERIFY],
      ∀ n ∈ [0, 64],
      let c := cmdW op (2 ^ 64 * n)
      let s := sCmd c (sOpen bOne fun g => { g with st := e.1 })
      turnB op c s = true ∧ (op ≠ opBIND → min (c.arg 1) (s.hdmSize - c.arg 0) = n) ∧
        ((∀ d ∈ s.channels, (s.chan d).gate.st ≠ .running ∧ (s.chan d).gate.st ≠ .gate) ↔ e.2 = true)) ∧
    (∀ op ∈ [opLOAD, opVERIFY], ∀ n ∈ [64, 2 ^ 64 - 1],
      let c := cmdW op (2 ^ 64 * n)
      let len := min (c.arg 1) ((sCmd c).hdmSize - c.arg 0)
      turnB op c (sCmd c) = true ∧ c.arg 1 = n ∧ len ≠ 0 ∧
        (∀ d ∈ (sCmd c).channels, (sCmd c).chan d = Chan.reset) ∧
        ((((sCmd c).begunCmd 1).summarize (imgOf [] 0)).verify (imgOf [] 0) len).isSome = true) ∧
    (∀ e ∈ [(0, ChState.stopped), (0, .retired), (4, .stopped)],
      let c := cmdW opBIND e.1
      let s := sCmd c (sOpen bOne fun g => { g with st := e.2 })
      turnB opBIND c s = true ∧ s.variantSet (c.arg 0) = (if e.1 = 0 then some 3 else none) ∧
        (∀ d ∈ s.channels, (s.chan d).gate.st ≠ .running ∧ (s.chan d).gate.st ≠ .gate) ∧
        ((∃ d ∈ chansOf 3, (s.chan d).gate.st = .retired) ↔ e.2 = .retired)) := by
  refine ⟨?_, ?_, ?_⟩ <;> decide +kernel

/-- An image of one empty block of channel 0 (its records with their CRCs), whose checks all pass. -/
def okBlock : BEntry := 9321488482371520569588568069564350139904405629158151957082358480590195455091612341675097633221179520265753980769576708864826426007421304896903070265376769#512
def okTotals : BitVec 512 := 4715937080217196260308302737491030148727133827595599505645368824693598100926800464256900321024587016786147731149015660151493514340309939978648415151063040#512
def okPlan : W128 := 57658942801528100766132761891730096128#128

def okPart : ImagePart := { emptyPart with
  chset := 1
  codeSets := [⟨Quad.all [], Quad.all []⟩]
  programs := ⟨some ⟨0, [0x08000000], []⟩, none, none, none⟩
  blocks := [okBlock]
  totals := [okTotals]
  tallyPlan := [okPlan]
  digestPlan := [okPlan] }

def okImage : Image := ⟨1, 1, 1, State.reset.grade, okPart, []⟩

theorem ok_crc : crcGood 64 okBlock.toNat = true ∧ crcGood 64 okTotals.toNat = true ∧ crcGood 16 okPlan.toNat = true := by
  refine ⟨?_, ?_, ?_⟩ <;> decide +kernel

theorem ok_header : State.reset.checkHeader okImage 4096 = none := by decide +kernel

theorem ok_tables : checkTables okPart = none := by
  have e : entryOk okPart okBlock = true := by
    unfold entryOk
    rw [ok_crc.1]
    decide +kernel
  have h : checkTables okPart = firstOf (
    [orFail (!okPart.blocks.isEmpty && !okPart.codeSets.isEmpty && (crcGood 64 okTotals.toNat && true) &&
        (crcGood 16 okPlan.toNat && true) && (crcGood 16 okPlan.toNat && true) &&
        okPart.tensorDescs.all (fun t => crcGood 64 t.2.toNat) &&
        okPart.saveSet.all fun h => (Smap.find? okPart.tensorDescs h).isSome) (Viol.at_ vrTABLE)] ++
    chans4.map (fun c => orFail (chanTables okPart c) (Viol.inChan vrTABLE c.val)) ++
    [orFail (entryOk okPart okBlock) (Viol.inBlock vrTABLE 0)] ++ [programCode okPart]) := rfl
  rw [h, e, ok_crc.2.1, ok_crc.2.2]
  decide +kernel

def okSet : CodeSet := ⟨Quad.all [], Quad.all []⟩

theorem open_none (m : BitVec 4) (v b : Nat) (t : BlockTrace) (h : t.issued = []) : openFault okImage m v b t = [] := by
  unfold openFault
  rw [h]
  split <;> rfl

/-- The intervals of the image's channel programs. -/
def okWalks : Quad (List (Nat × CoreCounts)) :=
  ⟨State.reset.intervals okPart 0, State.reset.intervals okPart 1, State.reset.intervals okPart 2,
    State.reset.intervals okPart 3⟩

theorem ok_block : State.reset.checkBlock okImage okPart 0 0 okBlock okWalks = none := by
  have ht : (State.reset.traceBlock okPart okBlock okSet).issued = [] := by decide +kernel
  have e : codeCheck okImage okPart 0 0 okBlock okSet (State.reset.traceBlock okPart okBlock okSet) =
      codeFailure okPart 0 okBlock okSet (State.reset.traceBlock okPart okBlock okSet) [] := by
    rw [codeCheck, open_none _ _ _ _ ht, ht]
    rfl
  have hs : okPart.codeSets[beCodeset okBlock]? = some okSet := by decide +kernel
  unfold State.checkBlock
  rw [hs]
  simp only [e]
  decide +kernel

theorem ok_image : State.reset.verify okImage 4096 = none := by
  have h3 : (chans4.findSome? fun c => orFail (orderOk okPart c) (Viol.inChan vrORDER c.val)) = none := by decide +kernel
  have hv : State.reset.verify okImage 4096 = firstOf [
    State.reset.checkHeader okImage 4096,
    orFail true (Viol.at_ vrTABLE),
    overParts okImage fun _ p => checkTables p,
    overParts okImage fun n p =>
      let walks := (⟨State.reset.intervals p 0, State.reset.intervals p 1, State.reset.intervals p 2,
        State.reset.intervals p 3⟩ : Quad _)
      p.blocks.zipIdx.findSome? fun b => State.reset.checkBlock okImage p n b.2 b.1 walks,
    overParts okImage fun n p => (chans4.findSome? fun c => orFail (orderOk p c) (Viol.inChan vrORDER c.val)).or
      (orFail (n = 0 || fallbackOk okImage.main p) (Viol.at_ vrFALLBACK))] := rfl
  have i : (imageParts okImage).zipIdx = [(okPart, 0)] := rfl
  have z : okPart.blocks.zipIdx = [(okBlock, 0)] := rfl
  have o : ∀ v, orFail true v = none := fun _ => rfl
  have d : decide True = true := rfl
  have w : (⟨State.reset.intervals okPart 0, State.reset.intervals okPart 1, State.reset.intervals okPart 2,
      State.reset.intervals okPart 3⟩ : Quad _) = okWalks := rfl
  rw [hv]
  simp only [overParts, i, w, List.findSome?_cons, List.findSome?_nil, ok_tables, ok_header, z, ok_block, h3,
    Option.map_none, Option.none_or, Bool.true_or, o, firstOf, d]
  rfl

theorem verify_frame (x y : CmdRegs) (z : Cxl) :
    State.verify (State.summarize { ({ State.reset with cmd := x, cxl := z } : State) with cmd := y } okImage)
      okImage 4096 = State.reset.verify okImage 4096 := rfl

theorem witness_ImageCommands_passes :
    ∀ op ∈ [opLOAD, opVERIFY],
      let c := cmdW op (2 ^ 64 * 4096)
      turnB op c (sCmd c) = true ∧ min (c.arg 1) ((sCmd c).hdmSize - c.arg 0) = 4096 ∧
        (((sCmd c).begunCmd 1).summarize okImage).verify okImage 4096 = none := by
  intro op hop
  have e : turnB op (cmdW op (2 ^ 64 * 4096)) (sCmd (cmdW op (2 ^ 64 * 4096))) = true ∧
      min ((cmdW op (2 ^ 64 * 4096)).arg 1)
        ((sCmd (cmdW op (2 ^ 64 * 4096))).hdmSize - (cmdW op (2 ^ 64 * 4096)).arg 0) = 4096 := by
    simp only [List.mem_cons, List.not_mem_nil, or_false] at hop
    rcases hop with rfl | rfl <;> decide +kernel
  exact ⟨e.1, e.2, (verify_frame _ _ _).trans ok_image⟩

/-- The image of two blocks in force, its channels 0 and 1 in a state. -/
def sIn (st : ChState) : State := sOpen bOne fun g => { g with st := st, phase := .none }

/-- With a save point of every bound channel. -/
def sKept (st : ChState) : State := { sRoll st with recov := { (sRoll st).recov with rolling := .none } }

/-- The four order slots are in use. -/
def fullOrders (s : State) : State := (List.range 4).foldl (fun s _ => (s.storeOrder otSLACK 9 1).getD s) s

/-- As manager of the line or not, its send slots in use or free. -/
def onLine (man full : Bool) (s : State) : State :=
  { s with
    tide := { s.tide with role := if man then rlMANAGER else 0 }
    line := { s.line with sending := if full then s.line.sending.map fun _ => some ⟨1, otSLACK, 0, 9, 1⟩ else s.line.sending } }

theorem witness_RunCommands_start :
    (∀ st ∈ [ChState.retired, .running, .loaded, .stopped], ∀ key ∈ [0, 2 ^ 256 - 1],
      let c := cmdW opSTART (3 + 2 ^ 64 * key)
      let s := sCmd c (sIn st)
      turnB opSTART c s = true ∧ s.tide.orders = Vector.replicate 4 none ∧ (s.chan 0).regs2.reproduced = false ∧
        (s.chan 1).regs2.reproduced = false ∧ s.named (c.arg 0) = [0, 1] ∧ c.arg 1 = key ∧ (s.chan 0).gate.st = st ∧
        (s.chan 1).gate.st = st ∧ (st ≠ .retired → s.bound = [0, 1]) ∧ (s.chan 0).regs2.slackEntered = false ∧
        (s.chan 1).regs2.slackEntered = false) ∧
    (let c := cmdW opSTART 0xF0
     turnB opSTART c (sCmd c (sIn .stopped)) = true ∧ (sCmd c (sIn .stopped)).named (c.arg 0) = []) := by
  refine ⟨?_, ?_⟩ <;> decide +kernel

theorem witness_RunCommands_stop :
    (∀ st ∈ [ChState.held, .running, .stopped], ∀ mark ∈ [none, some 0, some 100], ∀ full : Bool,
      let c := cmdW opSTOP 3 mark
      let s := sCmd c (if full then fullOrders (sIn st) else sIn st)
      turnB opSTOP c s = true ∧ c.lineStop = false ∧ s.named (c.arg 0) = [0, 1] ∧ (s.chan 0).gate.st = st ∧
        (s.chan 1).gate.st = st ∧ c.hasMark = mark.isSome ∧ s.freeOrder = (if full then none else some 0)) ∧
    (let c := cmdW opSTOP 0
     turnB opSTOP c (sCmd c) = true ∧ c.lineStop = false ∧ (sCmd c).named (c.arg 0) = []) ∧
    (∀ mark ∈ [0, 2 ^ 63], ∀ man : Bool, ∀ full : Bool,
     let c := cmdW opSTOP (2 ^ 8 + 2 ^ 16 * 9) (some mark)
     let s := onLine man full (sCmd c)
     turnB opSTOP c s = true ∧ c.lineStop = true ∧ (s.tide.role = rlMANAGER ↔ man = true) ∧
       s.freeLine = (if full then 0 else 4) ∧ (c.mark.toNat < s.earliestMark.toNat ↔ mark = 0)) := by
  refine ⟨?_, ?_, ?_⟩ <;> decide +kernel

theorem witness_RunCommands_no_marks :
    (sIn .running).tide.orders = Vector.replicate 4 none ∧ (sKept .stopped).tide.orders = Vector.replicate 4 none := by
  decide +kernel

theorem witness_RunCommands_save_points :
    (∀ b : Bool, let c := cmdW opSAVE 1
      let s := sCmd c (if b then sIn .stopped else State.reset)
      turnB opSAVE c s = true ∧ (s.bound = [] ↔ b = false)) ∧
    (∀ e ∈ [(sIn .running, false, false), (sIn .stopped, true, false), (sKept .stopped, true, true)],
      ∀ op ∈ [opRESUME, opADOPT],
      let c := cmdW op 0
      let s := sCmd c e.1
      turnB op c s = true ∧ s.recov.rolling = .none ∧ (s.chan 0).gate.resetDue = false ∧
        (s.chan 1).gate.resetDue = false ∧ (s.chan 2).gate.resetDue = false ∧ (s.chan 3).gate.resetDue = false ∧
        s.boundRest = e.2.1 ∧ (s.canRestore false).isSome = e.2.2 ∧
        (e.2.2 = true → s.bound = [0, 1] ∧ (∀ d ∈ s.bound, (s.restoreSlot false d).isSome = true) ∧
          s.adoptee 0 = some 0 ∧ s.variantSet 0 = some 3 ∧ ∀ d ∈ chansOf 3, (s.chan d).gate.st ≠ .retired)) ∧
    (∀ e ∈ [(sIn .retired, ChState.retired, false, false), (State.reset, .noImage, false, false),
        (sIn .running, .running, true, false), (sKept .running, .running, true, true)],
      let c := cmdW opRETIRE 0
      let s := sCmd c e.1
      turnB opRETIRE c s = true ∧ s.recov.rolling = .none ∧ chnOf (c.arg 0) = 0 ∧ (s.chan 0).gate.st = e.2.1 ∧
        s.bound.contains 0 = e.2.2.1 ∧ (s.canRestore false).isSome = e.2.2.2) := by
  refine ⟨?_, ?_, ?_⟩ <;> decide +kernel

theorem witness_RunCommands_rest :
    (∀ st ∈ [ChState.retired, .noImage, .running, .gate, .loaded, .held],
      let c := cmdW opRESET 3
      let s := sCmd c (sIn st)
      turnB opRESET c s = true ∧ s.named (c.arg 0) = [0, 1] ∧ (s.chan 0).gate.st = st ∧ (s.chan 1).gate.st = st ∧
        s.busyChan 0 = (st = .running || st = .gate) ∧ (s.chan 0).regs2.slackEntered = false) ∧
    (∀ h : Bool,
      let c := cmdW opSTREAM (2 ^ 8 * 63)
      let s := sCmd c ((sIn .running).modSq 0 63 fun q => { q with halted := h })
      turnB opSTREAM c s = true ∧ c.arg 1 = 63 ∧ c.arg 2 = 0 ∧ (s.sqOf (chnOf (c.arg 0)) (c.arg 1)).halted = h) ∧
    (∀ mode ∈ [0, 1, 2], ∀ role ∈ [rlMANAGER, 0], ∀ st ∈ [ChState.stopped, .running],
      let c := cmdW opPAIR (mode + 2 ^ 8 * 7)
      let r := sCmd c (sIn st)
      let s := { r with tide := { r.tide with role := role } }
      turnB opPAIR c s = true ∧ c.arg 0 = mode ∧ c.arg 1 = 7 ∧ s.tide.role = role ∧ s.img.image ≠ none ∧
        s.bound = [0, 1] ∧ (s.chan 0).gate.st = st ∧ (s.chan 1).gate.st = st) := by
  refine ⟨?_, ?_, ?_⟩ <;> decide +kernel

theorem witness_TimeCommands_orders :
    (∀ n ∈ [0, 1, 4], ∀ line ∈ [0, 1], ∀ role ∈ [rlMANAGER, 0], ∀ full : Bool,
      let c := cmdW opFREQ (n + 2 ^ 8 * line)
      let r := sCmd c (if full then fullOrders State.reset else State.reset)
      let s := { r with tide := { r.tide with role := role } }
      turnB opFREQ c s = true ∧ c.arg 0 = n ∧ c.arg 1 = line ∧ s.tide.role = role ∧
        s.freeLine = 4 ∧ s.freeOrders = (if full then 0 else 4)) ∧
    (let c := cmdW opFREQ (1 + 2 ^ 8)
     let s := onLine true true (sCmd c)
     turnB opFREQ c s = true ∧ s.freeLine = 0) ∧
    (∀ n ∈ [0, 65535], ∀ line ∈ [0, 1], ∀ mark ∈ [none, some 0, some (2 ^ 63)], ∀ full : Bool, ∀ man : Bool,
      let c := cmdW opSLACK (n + 2 ^ 16 * line) mark
      let s := onLine man full (sCmd c (if full then fullOrders State.reset else State.reset))
      turnB opSLACK c s = true ∧ c.arg 0 = n ∧ c.arg 1 = line ∧ c.hasMark = mark.isSome ∧
        (s.tide.role = rlMANAGER ↔ man = true) ∧ s.freeOrder = (if full then none else some 0) ∧
        s.freeLine = (if full then 0 else 4) ∧ (s.earliestMark.toNat ≤ c.mark.toNat ↔ mark = some (2 ^ 63))) ∧
    (∀ now ∈ [0, 1], ∀ role ∈ [0, 1, 2], ∀ el : Bool, ∀ man : Bool, ∀ full : Bool,
      let c := cmdW opTIDEROLE (role + 2 ^ 8 * now)
      let r := onLine man full (sCmd c)
      let s := { r with tide := { r.tide with eligible := el } }
      turnB opTIDEROLE c s = true ∧ c.arg 1 = now ∧ c.arg 0 = role ∧ s.tide.eligible = el ∧ s.lineIdle = !man ∧
        (s.tide.role = rlMANAGER ↔ man = true) ∧ (s.freeLine = 0 ↔ full = true)) := by
  refine ⟨?_, ?_, ?_, ?_⟩ <;> decide +kernel

theorem witness_TimeCommands_tasks :
    (∀ p ∈ [79, 80, 81],
      let c := cmdW opSUBST (2 ^ 8 * p)
      turnB opSUBST c (sCmd c) = true ∧ c.arg 1 = p ∧
        (((sCmd c).chan (chnOf (c.arg 0))).regs.out0.toNat ≠ p ∧ ((sCmd c).chan (chnOf (c.arg 0))).regs.out1.toNat ≠ p ↔ p = 79)) ∧
    (∀ e ∈ [(opCALIBRATE, 36), (opRETRAIN, 7)],
      let c := cmdW e.1 e.2
      turnB e.1 c (sCmd c) = true ∧ c.arg 0 = e.2) ∧
    (∀ b : Bool, let c := cmdW opACTIVATE
      let s := { sCmd c with sec := { State.reset.sec with staged := b } }
      turnB opACTIVATE c s = true ∧ s.sec.staged = b) ∧
    (∀ n ∈ [0, 4096, 2 ^ 64 - 1], let c := cmdW opSTAGE (2 ^ 64 * n)
      turnB opSTAGE c (sCmd c) = true ∧ c.arg 1 = n) ∧
    State.reset.fwCheck [] ≠ 0 := by
  refine ⟨?_, ?_, ?_, ?_, ?_⟩ <;> decide +kernel
/-! ### Witnesses: tasks, pairs, events and the host -/

/-- A window is open at mark 10 with one started task, and maybe its outcome. -/
def sTask (k : SlackTask) (o : Option (Nat × Nat × BitVec 192)) (s : State := State.reset) : State :=
  { s with svc := { s.svc with openMark := some 10, openEnd := 0, tasks := [⟨k, 10, true, [1], 0, o⟩] } }

/-- Records of block 5, its twin with another link, and of block 6, with their CRCs. -/
def rec5 : Nat := 13234784114356002188827945102462960474758187407190324121510530070938166469717028948394442117636145599839318785339098994693259661975457045419018062483423237
def rec5b : Nat := 4654085638936895682212529566575748680430697615701519589695588882556611679137312297723269567061326217536168272015860465505162663544130068002709278325473285

/-- A slot of the manager's between two rings of one host page, each with one record of channel 0. -/
def sPair (a b : Nat) (f : PairSlot → PairSlot := id) : State :=
  let ring := 0x140000
  let cells := fun (at_ x : Nat) => ((bytesLE 64 x).zipIdx.map fun e => (at_ + e.2, e.1)).filter fun e => decide (e.2 ≠ 0)
  let s := { State.reset with
    mem := { State.reset.mem with wtab := [(0, 7)] }
    host := { State.reset.host with bytes := [(0, 1)] ++ cells 64 a ++ [(ring, 1)] ++ cells (ring + 64) b } }
  { s with
    job := { s.job with pairs := s.job.pairs.set! 7 (f { PairSlot.reset with state := 1, ringB := w64 ring }) }
    cxl := { s.cxl with up := true }
    tide := { s.tide with role := rlMANAGER } }

theorem witness_SlackTasksAndPairs_tasks :
    (∀ k ∈ [SlackTask.calibrate 36, .retrain 7, .firmware],
      State.reset.runningTask k = none ∧
      (∀ o ∈ [none, some (stOK, 0, resNone)],
        (sTask k o).runningTask k = some ⟨k, 10, true, [1], 0, o⟩ ∧
          (sTask k o).tide.orders = Vector.replicate 4 none)) ∧
    State.reset.hasMsd 7 = true ∧
    (∀ st ∈ [stOK, stFAULTED],
      let c := cmdW opACTIVATE 0 none fun c => { c with begun := true }
      c ∈ (sTask .firmware (some (st, 0, resNone)) (sCmd c)).cmd.accepted ∧ c.seq = 1) ∧
    (∀ e ∈ [(10, true), (9, false), (0, false)],
      let s0 := sTask .firmware none
      let s := { s0 with tide := { s0.tide with count := w64 e.1 }, svc := { s0.svc with openEnd := 10, tasks := [] } }
      s.svc.openMark ≠ none ∧ s.svc.spanOver = false ∧ s.windowTasks = [] ∧
        (s.svc.openEnd.toNat ≤ s.tide.count.toNat ↔ e.2 = true)) ∧
    (∀ st ∈ [ChState.running, .gate, .stopped], ((sOpen bOne fun g => { g with st := st }).chan 0).gate.st = st) := by
  refine ⟨?_, ?_, ?_, ?_, ?_⟩ <;> decide +kernel

theorem witness_SlackTasksAndPairs_pairs :
    (∀ e ∈ [(rec5, rec5, (0 : BitVec 2)), (rec5, rec5b, 1), (rec5, 6, 3)],
      let s := sPair e.1 e.2.1
      s.hasChan 0 = true ∧ (s.pairSlot 7).state = 1 ∧ s.cxl.up = true ∧ s.tide.role = rlMANAGER ∧
        s.pairHead (s.pairSlot 7).ringA 0 = some (BitVec.ofNat 512 e.1) ∧
        s.pairHead (s.pairSlot 7).ringB 0 = some (BitVec.ofNat 512 e.2.1) ∧
        isOld ((s.pairSlot 7).lastSeq.get 0) (BitVec.ofNat 512 e.1) = false ∧
        isOld ((s.pairSlot 7).lastSeq.get 0) (BitVec.ofNat 512 e.2.1) = false ∧
        headsDiffer (BitVec.ofNat 512 e.1) (BitVec.ofNat 512 e.2.1) = e.2.2) ∧
    isOld ((sPair rec5 rec5 fun p => { p with lastSeq := p.lastSeq.set 0 (some 5) }).pairSlot 7 |>.lastSeq.get 0)
      (BitVec.ofNat 512 rec5) = true ∧
    (State.reset.pairSlot 7).state = 0 ∧ State.reset.cxl.up = false ∧
    (∀ n ∈ [1000, 0],
      let s := sPair rec5 rec5 fun p => { p with timeout := w32 n, sinceA := p.sinceA.set 0 1 }
      (s.pairSlot 7).state = 1 ∧ s.sideStalled (s.pairSlot 7) 0 = (n = 0)) ∧
    (∀ b : Bool,
      let s := (sPair rec5 rec5).modChan 0 fun ch => { ch with regs2 := { ch.regs2 with pairMember := b } }
      s.hasChan 0 = true ∧ (s.chan 0).regs2.pairMember = b ∧ s.cxl.up = true) := by
  refine ⟨?_, ?_, ?_, ?_, ?_, ?_⟩ <;> decide +kernel

/-- One event with an entry. -/
def sEv (e : Nat) (v : Ev) (f : Events → Events := id) : State :=
  { State.reset with ev := f { State.reset.ev with evs := [(e, v)] } }

def evOn : Ev := { Ev.reset with enable := true, masked := false, vector := 63 }

theorem witness_EventController :
    State.reset.ev.raised = [] ∧
    (∀ b : Bool, let s := sEv 0x3FE { evOn with enable := b } fun x => { x with raised := [0x3FE, 1], routes := [(0x3FE, 31)] }
      s.ev.raised = [0x3FE, 1] ∧ (s.evOf 0x3FE).enable = b ∧ Smap.find? s.ev.routes 0x3FE = some 31) ∧
    (∀ n ∈ [3, 4, 5], let s := sEv 0 { evOn with seen := true, timeout := 4, ticks := n }
      ((s.evOf 0).seen = true ∧ (s.evOf 0).timeout ≠ 0 ∧ (s.evOf 0).timeout.toNat ≤ (s.evOf 0).ticks ↔ 4 ≤ n)) ∧
    (∀ p : Bool, let s := sEv 0x3FE { evOn with pend := p, occ := 7 }
      Smap.risingFrom 0 s.ev.evs = true ∧ (s.evOf 0x3FE).pend = p ∧ (s.evOf 0x3FE).masked = false ∧
        (s.evOf 0x3FE).vector.toNat = 63 ∧ ∀ d < 0x3FE, (s.evOf d).pend = false) ∧
    (∀ go : Bool, let s := sEv 5 { evOn with pend := true } fun x => { x with
        msixEnable := go, msixMask := false, msixTable := [(255, 0)] }
      bitAt s.fullVectors 63 = true ∧ bitAt s.ev.full 63 = false ∧ s.ev.mayGo 63 = go) ∧
    (∀ p : Bool, ∀ w ∈ [0, 8], ∀ m : Bool,
      let r := sEv 5 evOn fun x => { x with asleep := w, mgmt := [(5, ⟨1, p⟩)] }
      let s := { r with svc := { r.svc with mgmtSwitch := m } }
      bitAt s.ev.asleep 3 = decide (w = 8) ∧ s.svc.mgmtSwitch = m ∧ Smap.risingFrom 0 s.ev.mgmt = true ∧
        (Smap.get ⟨0, false⟩ s.ev.mgmt 5).pend = p) := by
  refine ⟨?_, ?_, ?_, ?_, ?_, ?_⟩ <;> decide +kernel

theorem witness_PendSetKeepsTheCount :
    let s := sEv 0x3FE evOn
    (32 * 31 + 30 = 0x3FE ∧ bitAt (0x40000000 : W32) 30 = true ∧ Smap.risingFrom 0 s.ev.evs = true) ∧
    (after (.evcPendSet 31 0x40000000) s).claimable 63 = some (0x3FE, { evOn with pend := true }) := by
  decide +kernel

theorem witness_HostAccesses :
    State.reset.on 79 = false ∧
    (let s := { State.reset with pwr := { State.reset.pwr with domains := setBit State.reset.pwr.domains 79 true } }
     s.on 79 = true) ∧
    (State.reset.cxl.up = false ∧ (sCmd (cmdW 0)).cxl.up = true ∧ 4092 % 4 = 0) ∧
    (∀ busy : Bool, ∀ p2p : Bool,
      let s := { State.reset with cxl := { State.reset.cxl with
        peerBusy := busy, p2p := p2p, peers := State.reset.cxl.peers.set! 15 ⟨0, 9, 0, true⟩ } }
      s.cxl.peerBusy = busy ∧ s.cxl.p2p = p2p ∧ (s.peerAt 15).valid = true ∧ (s.peerAt 15).reqId = 9 ∧
        (s.peerAt 0).valid = false ∧ (∀ i < 16, bitAt (0x8000 : W16) i = decide (i = 15))) ∧
    (∀ b : Bool, let s := { State.reset with cmd := { State.reset.cmd with enable := b } }
      s.cmd.enable = b ∧ s.cmd.held = [] ∧ bitAt (0x80000000 : W32) 31 = true) ∧
    (∀ n ∈ [100, 36, 35, 101],
      let s := { State.reset with cmd := { State.reset.cmd with prod := 100 } }
      ((s.cmd.prod.toNat ≤ n + s.cmd.ringSize ∧ n ≤ s.cmd.prod.toNat) ↔ n = 100 ∨ n = 36) ∧ s.cmd.held = []) := by
  refine ⟨?_, ?_, ?_, ?_, ?_, ?_⟩ <;> decide +kernel

def sSpdm (f : Spdm → Spdm) : State :=
  { State.reset with sec := { State.reset.sec with spdm := f State.reset.sec.spdm } }

theorem witness_Spdm :
    (∀ b : Bool,
      let s := sSpdm fun p => { p with
        versioned := b, capable := b, negotiated := b, keyAgreed := b, sessions := if b then [(4, false)] else [] }
      s.sec.spdm.versioned = b ∧ s.sec.spdm.capable = b ∧ s.sec.spdm.negotiated = b ∧ s.sec.spdm.keyAgreed = b ∧
        (s.sec.spdm.sessions.any (fun e => e.1 = 4) = true ↔ b = true)) ∧
    (State.reset.drbgDraw 4).2.isSome = true ∧ (State.drbgDraw { State.reset with
      sec := { State.reset.sec with drbgs := State.reset.sec.drbgs.set! 4 ⟨0, true⟩ } } 4).2.isNone = true ∧
    (State.reset.measureAnswer 0).isSome = true ∧ (State.reset.measureAnswer 0x7F).isNone = true ∧
    (∀ b : Bool, let s := { State.reset with sec := { State.reset.sec with recovery := b, transfer := [1] } }
      s.sec.recovery = b ∧ s.sec.transfer.length = 1) := by
  refine ⟨?_, ?_, ?_, ?_, ?_, ?_⟩ <;> decide +kernel

/-- A firmware image without payload: one component, of no bytes, with its measurement, signed with the private
key 1 and the nonce 1, so that the public key is the base point (by hand from FIPS 186-5). -/
def okFwR : Nat := 2661740802050217063228768716723360960729859168756973147706671368418802944996427808491545080627771902352094241225065558662157113545570916814161637315895999846
def okFwS : Nat := 2668594845641995604472181399794773356154639154934454537961311309454171965387529392890741101492824040509046003555511502896678543373481063032618212015867770312
def okFwHash : Nat := 6854043591778541243412683071412395424779986177481390254639941035369020391101584399196020865052138156951762330445944234521429827910146218456574699971770466
def okFw : List Byte :=
  asciiBytes "VT8FWIMG" ++ bytesLE 8 9 ++ [0, 0, 0, 1] ++ List.replicate 44 0 ++
    [2] ++ List.replicate 15 0 ++ sha512Bytes [] ++ List.replicate (4096 - 144) 0 ++ bytesLE 66 okFwR ++ bytesLE 66 okFwS

/-- Its signature verifies on a part whose first public key is the base point; the hash of its 4,096 bytes, which
the kernel is slow to take, is a premise. -/
def okFwKeys : Prop :=
  Config.fwKey 0 = (ecGx, ecGy) ∧ sha512Bytes (okFw.take 4096) = bytesBE 64 okFwHash

theorem okFw_signed (h : okFwKeys) : fwSigned okFw = true := by
  have k : fwKey okFw = 0 := by decide +kernel
  have e : fwSigned okFw = ecdsaVerify (Config.fwKey (fwKey okFw)) (sha512Bytes (okFw.take (4096 + fwPayload okFw)))
    (fwField okFw (4096 + fwPayload okFw) 66) (fwField okFw (4096 + fwPayload okFw + 66) 66) := rfl
  have n : fwPayload okFw = 0 := by decide +kernel
  have r : fwField okFw 4096 66 = okFwR := by decide +kernel
  have s : fwField okFw (4096 + 66) 66 = okFwS := by decide +kernel
  rw [e, k, h.1, n, Nat.add_zero, h.2, r, s]
  decide +kernel

theorem okFw_checks (h : okFwKeys) : State.reset.fwCheck okFw = 0 := by
  have a : (okFw.isEmpty || !fwShapeOk okFw) = false := by decide +kernel
  have b : bitAt State.reset.sec.revoked (fwKey okFw) = false := by decide +kernel
  have c : ¬ fwSvn okFw < State.reset.svnFloor := by decide +kernel
  have d : (!fwMeasuresOk okFw) = false := by decide +kernel
  unfold State.fwCheck
  rw [a, b, d, okFw_signed h]
  simp [c]

theorem witness_FwStage (h : okFwKeys) (c : Cmd) : (sCmd c).fwCheck okFw = 0 := okFw_checks h
/-! ### Witnesses: power, the link, bring-up and the tide -/

def withPwr (f : Power → Power) (s : State := State.reset) : State := { s with pwr := f s.pwr }

theorem witness_ClocksAndPower :
    (let s := withPwr fun p => { p with domains := BitVec.ofNat 80 (2 ^ 40) }
     (bitAt (BitVec.ofNat 37 (2 ^ 36)) 36 && bitAt s.pwr.domains (regionDomain 36)) = true ∧
       (bitAt (0 : BitVec 37) 36 && bitAt s.pwr.domains (regionDomain 36)) = false) ∧
    (State.reset.hasSensor 36 = true ∧ State.reset.hasSensor 52 = true ∧ State.reset.hasSensor 53 = true) ∧
    (∀ e ∈ [(999, none, false), (1000, none, true), (1000, some 1000, false), (1000, some 0, true)],
      let s := withPwr (fun p => { p with evalAt := e.2.1 })
        { State.reset with tide := { State.reset.tide with count := w64 e.1 } }
      (s.tide.count.toNat % 1000 = 0 ∧ s.pwr.evalAt ≠ some s.tide.count) ↔ e.2.2 = true) ∧
    -- temperatures above the limit by 5 °C and more, at the limit of either kind, and below the hysteresis
    (∀ e ∈ [(0, 5), (0, 4), (0, 0), (1, 0), (0, -100)],
      let q : Power := State.reset.pwr
      let p : Power := { q with
        hotC := BitVec.ofInt 16 (if e.1 = 0 then q.tLimit + 16 * e.2 else q.tLimit - 1000)
        hotS := BitVec.ofInt 16 (if e.1 = 1 then q.sLimit else q.sLimit - 1000) }
      (p.tLimit + 80 ≤ p.hotC.toInt ↔ e.1 = 0 ∧ e.2 = 5) ∧
        ((p.tLimit ≤ p.hotC.toInt ∨ p.sLimit ≤ p.hotS.toInt) ↔ e.2 ≠ -100) ∧
        (p.hotC.toInt < p.tLimit - p.hystUsed ∧ p.hotS.toInt < p.sLimit - p.hystUsed ↔ e.2 = -100)) ∧
    (∀ e ∈ [(0, 1850001, true), (0, 1850000, false)], State.reset.pwr.capUsed * 1000 = 1850000 ∧
      (State.reset.pwr.capUsed * 1000 < (w32 e.2.1).toNat ↔ e.2.2 = true)) ∧
    (∀ n ∈ [0, 14, 15],
      let p : Power := { State.reset.pwr with coolRun := n, capRun := n, hotC := -2000, hotS := -2000 }
      p.hotC.toInt < p.tLimit - p.hystUsed ∧ p.hotS.toInt < p.sLimit - p.hystUsed ∧ (15 ≤ p.coolRun ↔ n = 15) ∧
        (15 ≤ p.capRun ↔ n = 15) ∧ (0 : W32).toNat + p.headroom.toNat * 1000 ≤ p.capUsed * 1000 ∧
        p.capUsed * 1000 < (w32 1850000).toNat + p.headroom.toNat * 1000) ∧
    (∀ n ∈ [36, 35, 7], ({ State.reset with four := false } : State).hasRegion n = decide (n ≠ 35)) ∧
    (∀ uv ∈ [0, 600000, 612499, 612500, 800000],
      let s := withPwr fun p => { p with stepDue := true, step := 0, planned := 1, tceil := 16, pceil := 16, railUv := uv }
      s.pwr.stepDue = true ∧ s.pwr.step.toNat < s.pwr.wanted ∧ s.pwr.wanted = 1 ∧
        (railOf s.pwr.wanted ≤ s.pwr.railUv ↔ 612500 ≤ uv)) ∧
    (∀ m ∈ [14, 15], ((m : Nat) < State.reset.pwr.warn.toNat ↔ m = 14)) ∧
    (∀ st ∈ [ChState.retired, .stopped],
      let s := sOpen bOne fun g => { g with st := st }
      (s.chan 0).gate.st = st ∧ (s.chan 0).regs2.slackEntered = false ∧ bitAt s.pwr.chOff 0 = false ∧ 0 ∈ s.channels) := by
  refine ⟨?_, ?_, ?_, ?_, ?_, ?_, ?_, ?_, ?_, ?_⟩ <;> decide +kernel

theorem witness_LinkAndRemoval :
    (∀ ph ∈ [2, 3], ∀ up : Bool, ∀ narrow : Bool, ∀ full : Bool, let s := { State.reset with
        mdl := { State.reset.mdl with regulators := true, perstN := true }
        svc := { State.reset.svc with phase := BitVec.ofNat 4 ph }
        cxl := { State.reset.cxl with up := up, narrow := narrow, retrainFull := full } }
      s.mdl.regulators = true ∧ s.mdl.perstN = true ∧ s.sec.recovery = false ∧ (3 ≤ s.svc.phase.toNat ↔ ph = 3) ∧
        s.cxl.up = up ∧ s.cxl.narrow = narrow ∧ s.cxl.retrainFull = full) ∧
    (fld (0xFF00 : W16) 0 8 = 0#8 ∧ fld (0x0001 : W16) 8 8 = 0#8 ∧ fld (0x8001 : W16) 0 8 ≠ 0#8 ∧ fld (0x8001 : W16) 8 8 ≠ 0#8) ∧
    (∀ n ∈ [14, 15],
      let s := sCmd (cmdW 0)
      let s := { s with cxl := { s.cxl with width := 16, recovTicks := List.replicate n 999999 ++ [1000000] } }
      s.cxl.up = true ∧ s.cxl.width = 16 ∧ s.cxl.degLimit ≠ 0 ∧
        (s.cxl.degLimit.toNat ≤ (s.cxl.recovTicks.filter fun n => decide (n < 1000000)).length + 1 ↔ n = 15)) ∧
    (∀ n ∈ [999999, 1000000],
      let s := { State.reset with cxl := { State.reset.cxl with downTicks := n } }
      s.cxl.up = false ∧ s.cxl.linkLost = false ∧ (s.cxl.downLimit.toNat ≤ s.cxl.downTicks ↔ n = 1000000)) ∧
    (∀ n ∈ [999999, 1000000],
      let s := { State.reset with cxl := { State.reset.cxl with downTicks := n, linked := true } }
      s.downLimitPassed = (n = 1000000)) ∧
    (∀ st ∈ [ChState.running, .stopped],
      let r := sIn st
      let s := { r with cxl := { r.cxl with up := true } }
      s.cxl.quiescing = false ∧ s.cxl.quiesced = false ∧ s.serviceIdle = true ∧ s.cxl.up = true ∧
        s.drained = (st = .stopped) ∧ s.snoopLines = [] ∧ s.busyChan 0 = (st = .running)) := by
  refine ⟨?_, ?_, ?_, ?_, ?_, ?_⟩ <;> decide +kernel

def withMdl (f : Module → Module) (ph : Nat := 0) : State :=
  { State.reset with mdl := f State.reset.mdl, svc := { State.reset.svc with phase := BitVec.ofNat 4 ph } }

theorem witness_ModuleAndBringUp :
    (∀ b : Bool, (withMdl fun m => { m with inserted := b }).mdl.inserted = b ∧
      (withMdl fun m => { m with pwrEn := b }).mdl.pwrEn = b ∧
      (withMdl fun m => { m with controllerOn := b }).mdl.controllerOn = b ∧
      (withMdl fun m => { m with regulators := b }).mdl.regulators = b ∧
      (withMdl fun m => { m with perstN := b }).mdl.perstN = b) ∧
    (let s := withMdl fun m => { m with inserted := true, ample := true }
     s.mdl.inserted = true ∧ s.mdl.pwrEn = false ∧ s.mdl.ample = true ∧ s.mdl.controllerOn = false ∧
       s.mdl.latchedOff = false) ∧
    (let s := withMdl fun m => { m with inserted := true, pwrEn := true }
     s.mdl.inserted = true ∧ s.mdl.pwrEn = true ∧ s.mdl.controllerOn = false ∧ s.mdl.latchedOff = false ∧
       s.mdl.thermtrip = false) ∧
    (∀ n ∈ [36, 52, 53], State.reset.hasSensor n = true) ∧
    (let s := withMdl id 2
     s.svc.phase = 2 ∧ s.badFuses = 0 ∧ s.fwCheck (s.slotBytes s.activeSlot) ≠ 0 ∧ s.fwCheck (s.slotBytes (!s.activeSlot)) ≠ 0) ∧
    (∀ ph ∈ List.range 16, ∀ b : Bool,
      (withMdl (fun m => { m with regulators := b }) ph).svc.phase.toNat = ph) ∧
    (let s := { withMdl id 2 with sec := { State.reset.sec with fuseRecs := State.reset.sec.fuseRecs.set! 9 1 } }
     s.svc.phase = 2 ∧ s.badFuses ≠ 0) ∧
    (∀ n : Fin 8, State.reset.hasMsd n = true) ∧ State.reset.hasRegion 36 = true := by
  refine ⟨?_, ?_, ?_, ?_, ?_, ?_, ?_, ?_, ?_⟩ <;> decide +kernel

/-- Firmware in slot A, B or both that boots on a part whose first public key is the one that signed it. -/
theorem witness_ModuleAndBringUp_boots (h : okFwKeys) :
    ∀ b : Bool,
      let s := withMdl id 2
      let t := { s with sec := { s.sec with
        flashA := if b then s.sec.flashA else ⟨okFw, false⟩, flashB := if b then ⟨okFw, false⟩ else s.sec.flashB } }
      t.svc.phase = 2 ∧ t.badFuses = 0 ∧ t.activeSlot = false ∧ t.fwCheck (t.slotBytes b) = 0 ∧
        (b = true → t.fwCheck (t.slotBytes false) ≠ 0) := by
  intro b
  cases b
  · exact ⟨by decide +kernel, by decide +kernel, by decide +kernel, okFw_checks h, by decide⟩
  · exact ⟨by decide +kernel, by decide +kernel, by decide +kernel, okFw_checks h, fun _ => by decide +kernel⟩

/-- The part past phase 1, on the line or off. -/
def sTide (ph : Nat) (f : Tide → Tide := id) (g : TideLine → TideLine := id) : State :=
  { State.reset with
    svc := { State.reset.svc with phase := BitVec.ofNat 4 ph }, tide := f State.reset.tide, line := g State.reset.line }

theorem witness_TideTicks :
    (∀ ph ∈ [1, 2], (sTide ph).tideRuns = (ph = 2) ∧ (sTide ph).settle.line.resume = none) ∧
    (let s := sTide 2 (g := fun l => { l with resume := some 8192 })
     s.tideRuns = true ∧ s.line.resume ≠ none ∧ s.settle.line.resume = some 8192 ∧ s.settle.line.pendingFail = false) ∧
    (let s := sTide 2 (g := fun l => { l with pendingFail := true })
     s.tideRuns = true ∧ s.settle.line.resume = none ∧ s.settle.line.pendingFail = true) ∧
    (∀ n ∈ [15, 16],
      let s := sTide 2 (fun t => { t with role := rlWORKER, locked := true }) fun l => { l with missRun := n }
      s.tide.orders = Vector.replicate 4 none ∧ s.tide.role = rlWORKER ∧ s.tide.locked = true ∧ (16 ≤ s.line.missRun ↔ n = 16)) ∧
    (∀ n ∈ [4095, 4096],
      let s := sTide 2 (fun t => { t with count := w64 n }) fun l => { l with releaseAt := some 4096 }
      s.line.releaseAt = some 4096 ∧ ((4096 : W64).toNat ≤ s.tide.count.toNat ↔ n = 4096)) := by
  refine ⟨?_, ?_, ?_, ?_, ?_⟩ <;> decide +kernel

/-- A frame that begins at 4096, with its CRC and no orders. -/
def okFrameBits : Nat := 31155423217338472155151691670164123720068425643434080595478427556747233659936411145281115502661761005591929054984669293609267412631963005062171683677886443108371538568514193667642721869003257758205780912998611648405722544887302311162701592124841746856782911218211589664772415674583127326670298472381482536960
def okFrame : List Byte := bytesLE 128 okFrameBits

def sFrame (f : Tide → Tide) (frame : List Byte) : State :=
  sTide 2 f fun l => { l with frame := frame, frameReady := true, frameCount := some 4096, sinceFirst := 63 }

def ordOf (typ arg : Nat) (mark : W64 := 0) (target : Byte := 0) : Order :=
  ⟨BitVec.ofNat 8 typ, target, 1, mark, w64 arg⟩

def sOrders (os : List Order) (f : Tide → Tide := id) : State :=
  sTide 2 (fun t => { f t with orders := Vector.ofFn fun i => os[i.val]? })

theorem okFrame_crc : crcGood 128 (ofBytesLE okFrame) = true := by
  have h : ofBytesLE okFrame = okFrameBits := by decide +kernel
  have a : ((bytesLE 124 okFrameBits).take 62).foldl crcByte 0xFFFFFFFF#32 = 3721233474#32 := by decide +kernel
  have b : ((bytesLE 124 okFrameBits).drop 62).foldl crcByte 3721233474#32 = 3550615986#32 := by decide +kernel
  have c : crc32c (bytesLE 124 okFrameBits) = 3550615986#32 ^^^ 0xFFFFFFFF#32 := by
    rw [crc32c, ← List.take_append_drop 62 (bytesLE 124 okFrameBits), List.foldl_append, a, b]
  rw [h, crcGood, c]
  decide +kernel

theorem okFrame_good (f : Tide → Tide) : (sFrame f okFrame).goodFrame = true := by
  have h : (sFrame f okFrame).goodFrame = (decide (okFrame.length = 128) && crcGood 128 (ofBytesLE okFrame) &&
      decide (frameField okFrame 0 8 % 4096 = 0) &&
      (!(f State.reset.tide).locked || decide (some (4096 : W64) = some (w64 (frameField okFrame 0 8))))) := rfl
  have a : decide (okFrame.length = 128) = true := by decide +kernel
  have b : decide (frameField okFrame 0 8 % 4096 = 0) = true := by decide +kernel
  have c : decide (some (4096 : W64) = some (w64 (frameField okFrame 0 8))) = true := by decide +kernel
  rw [h, okFrame_crc, a, b, c]
  simp

theorem witness_TideFramesAndOrders_frames :
    (sTide 2).line.frameReady = false ∧
    (∀ locked : Bool, ∀ n ∈ [4159, 4160],
      let f := fun (t : Tide) => { t with locked := locked, count := w64 n, hold := true }
      let s := sFrame f okFrame
      s.line.frameReady = true ∧ s.line.resume = none ∧ s.tide.locked = locked ∧ s.tide.hold = true ∧ (sFrame f []).goodFrame = false ∧
        frameField s.line.frame 0 8 + s.line.sinceFirst = 4159 ∧ (s.tide.count.toNat ≤ 4159 ↔ n = 4159)) ∧
    (let s := sFrame id okFrame
     let r := { s with line := { s.line with resume := some 8192 } }
     r.line.frameReady = true ∧ r.line.resume.isSome = true) := by
  refine ⟨?_, ?_, ?_⟩ <;> decide +kernel

theorem witness_TideFramesAndOrders_taken :
    (∀ e ∈ [(ordOf 5 0, true), (ordOf 2 17, true), (ordOf 3 0, true), (ordOf 4 0xFF, true), (ordOf 2 16, false),
        (ordOf 1 0, false), (ordOf 3 1, false), (ordOf 4 0xFE, false)], e.1.typ ≠ 0 ∧ e.1.bad = e.2) ∧
    (∀ e ∈ [(0, true), (0xFF, true), (7, false)], ∀ m ∈ [126, 127],
      let s := sTide 2 fun t => { t with addr := 0 }
      let o := ordOf 1 0 (w64 m) (BitVec.ofNat 8 e.1)
      o.bad = false ∧ (o.target = s.tide.addr ∨ o.target = 0xFF ↔ e.2 = true) ∧ (o.mark.toNat < 0 + 127 ↔ m = 126) ∧
        (∀ n < 4, s.orderAt n = none) ∧ s.freeOrder = some 0) ∧
    (sOrders [ordOf 1 0]).orderAt 0 = some (ordOf 1 0) := by
  refine ⟨?_, ?_, ?_⟩ <;> decide +kernel

theorem witness_TideFramesAndOrders_act :
    (∀ n : Fin 4, ∀ k ∈ [1, 2, 3, 4], (sTide 2).actsNow n.val (BitVec.ofNat 8 k) = none) ∧
    (∀ e ∈ [(1, 0), (1, 8), (2, 16), (3, 65535), (4, 0), (4, 9)],
      let o := ordOf e.1 e.2
      let s := sOrders [o]
      s.actsNow 0 o.typ = some o ∧ s.dueOrders = [o] ∧ s.svc.listed = [] ∧
        (fldN o.arg 0 8 = s.tide.addr.toNat ↔ e.2 = 0)) ∧
    (let o := ordOf 2 1
     let d : Order := { o with id := 2 }
     let s := sOrders [o, d]
     s.actsNow 0 otFREQ = some o ∧ s.actsNow 1 otFREQ = some d ∧ s.dueOrders = [o, d]) ∧
    (∀ role ∈ [rlMANAGER, rlWORKER], ∀ el : Bool,
      let s := sOrders [ordOf 4 0] fun t => { t with role := role, locked := true, eligible := el }
      let s := { s with line := { s.line with neverLocked := false } }
      s.actsNow 0 otHANDOVER = some (ordOf 4 0) ∧ s.tide.role = role ∧ s.tide.locked = true ∧ s.tide.eligible = el) ∧
    (∀ st ∈ [ChState.running, .gate, .held, .loaded, .stopped, .noImage], ((sIn st).chan 0).gate.st = st) := by
  refine ⟨?_, ?_, ?_, ?_, ?_⟩ <;> decide +kernel
/-! ### Ill-formed operands are refused -/

theorem test_ill_formed_ticks_and_columns :
    (Instr.tideTick (some ⟨1001, 0⟩)).wf = false ∧ (Instr.tideTick (some ⟨-1001, 0⟩)).wf = false ∧
    (Instr.columnSubstitution 0 82).wf = false ∧ (Instr.slackTaskEnd (.substitute 0 82)).wf = false ∧
    (Instr.phaseCalibration 0 101).wf = false ∧ (Instr.clockDrift 0 101).wf = false ∧
    (Instr.sensorRead []).wf = false ∧ (Instr.bringupFailed 10).wf = false ∧
    (Instr.bringupPhaseEnd ⟨0, List.replicate 38 0⟩).wf = false := by decide +kernel

theorem test_ill_formed_numbers :
    (Instr.barrierRelease 0 4096).wf = false ∧ (Instr.edgePlanRun 0 4096).wf = false ∧
    (Instr.counterOpArrive 131072).wf = false ∧ (Instr.fetchRequest 0 64).wf = false ∧
    (Instr.readReturn 0 64 0).wf = false ∧ (Instr.drainWrite 0 32).wf = false ∧
    (Instr.patrolScrub 0 (2 ^ 28)).wf = false ∧ (Instr.eventTimeout 1024).wf = false ∧
    (Instr.evcCfgWrite 1024 0).wf = false ∧ (Instr.windowTableWrite (2 ^ 18) .whole 0).wf = false ∧
    (Instr.windowTableWrite 0 .low 0x100000000).wf = false := by decide +kernel

theorem test_ill_formed_accesses :
    (Instr.cxlMemRead 32 false).wf = false ∧ (Instr.cxlMemWrite 1 0 0 0 false).wf = false ∧
    (Instr.bisnpResponse 63 none).wf = false ∧ (Instr.readClear 0 3).wf = false ∧
    (Instr.readClear (2 ^ 26) 4).wf = false ∧ (Instr.latchedLowRead 2).wf = false ∧
    (Instr.registerWrite (2 ^ 26 - 4) 8 0).wf = false ∧ (Instr.configRequest false 4096 0).wf = false ∧
    (Instr.configRequest true 2 0).wf = false ∧ (Instr.doeCompliance [0]).wf = false ∧
    (Instr.keyExchange 0 []).wf = false ∧ (Instr.peerReplyWrite 0 (2 ^ 24) [0]).wf = false ∧
    (Instr.sidebandRecoveryWrite 0 (List.replicate 4097 0)).wf = false ∧
    (Instr.doeObjectDiscarded 0 0 (2 ^ 18 + 1)).wf = false := by decide +kernel

theorem test_well_formed_bounds :
    (Instr.tideTick (some ⟨1000, 0⟩)).wf = true ∧ (Instr.columnSubstitution 0 81).wf = true ∧
    (Instr.counterOpArrive 131071).wf = true ∧ (Instr.registerWrite (2 ^ 26 - 8) 8 0).wf = true ∧
    (Instr.eventTimeout 1023).wf = true ∧ (Instr.peerReplyWrite 0 (2 ^ 24 - 1) [0]).wf = true := by decide +kernel

/-! ### Results, from the spec's worked examples and by hand -/

/-- Lane 0 of the first tile row that falls due after a VX operation, and the flags that do. -/
def laneDue (i : Instr) (word : Nat) (tiles : Smap Row) : Option W32 × List (BitVec 8) :=
  let s := sCell word fun c => { c with tiles := tiles, masks := c.masks.set! 1 0xF }
  let d := ((after i s).chan 0).dues
  (d.findSome? fun d => match d.effect with
    | .tile _ v => some (v.getD 0 0)
    | _ => none, d.filterMap fun d => match d.effect with
    | .flags f => some f
    | _ => none)

def rowOf (l : List Nat) : Row := Vector.ofFn fun i => w32 (l.getD i.val 0)

/-- The example under R162: 2^24, 1, 1, −2^24 in lanes 0 to 3 sum to 1, inexactly, and in the order
2^24, −2^24, 1, 1 to 2. -/
theorem test_vlsum_example :
    (laneDue (.vlsum k0) (vx 0x20 4 0 (oTile 2 0) (oTile 0 0) 0 0)
      [(0, rowOf [0x4B800000, 0x3F800000, 0x3F800000, 0xCB800000])]).1 = some 0x3F800000 ∧
    (laneDue (.vlsum k0) (vx 0x20 4 0 (oTile 2 0) (oTile 0 0) 0 0)
      [(0, rowOf [0x4B800000, 0xCB800000, 0x3F800000, 0x3F800000])]).1 = some 0x40000000 := by
  refine ⟨?_, ?_⟩ <;> decide +kernel

theorem test_viadd_wraps :
    (laneDue (.viadd k0) (vx 0x0B 1 0 (oTile 2 0) (oTile 0 0) (oTile 0 1) 0)
      [(0, rowOf [0x7FFFFFFF]), (1, rowOf [1])]).1 = some 0x80000000 := by decide +kernel

theorem test_vshl_shifts_modulo_32 :
    (laneDue (.vshl k0) (vx 0x08 1 0 (oTile 2 0) (oTile 0 0) (oTile 0 1) 0)
      [(0, rowOf [3]), (1, rowOf [33])]).1 = some 6 := by decide +kernel

/-- The table of windows (04): λ is −18, −25 and −32 for WIN 78, 71 and 64, and 0 for 96. -/
theorem test_window_table :
    (strandOf (cfgOf 0 0 0)).lam = 0 ∧
    [78, 71, 64].map (fun w => (strandOf (BitVec.ofNat 64 (2 ^ 16 * w))).lam) = [-18, -25, -32] := by
  refine ⟨?_, ?_⟩ <;> decide +kernel

/-- The example under R251: sums 12, 33 and −9 have the residue 36; −9 alone has p − 9. -/
theorem test_residue_example : foundResidue [12, 33, -9] = 36 ∧ residue (-9) 0 = 0x1FFFFFFFFFFFFFF6 := by
  refine ⟨?_, ?_⟩ <;> decide +kernel

/-- The example under R63: worker 0x03 at 902,500,000 resumes at 902,565,888. -/
theorem test_resume_count :
    (sTide 2 fun t => { t with count := 902500000 }).resumeCount = 902565888 := by decide +kernel

/-- The example under R470: a mean of 1,850 W over a cap of 1,600 W lowers the ceiling to 15, at 787.5 mV. -/
theorem test_cap_example :
    ((State.reset.pwr.capping 1850000).pceil = State.reset.pwr.pceil) ∧
    (after (.ceilingEvaluate 1850000) (withPwr (fun p => { p with cap := 1600 })
      (sTide 2 fun t => { t with count := 4201000 }))).pwr.pceil = 15 ∧ railOf 15 = 787500 := by
  refine ⟨?_, ?_, ?_⟩ <;> decide +kernel

/-- The example under R103: p23 gives way to p80, and then p60 to p81. -/
theorem test_substitution_example :
    let r := ChRegs.reset.substitute 23 80
    let q := r.substitute 60 81
    Chan.reset.spareFor 23 = some 80 ∧ (r.out0, r.out0Failed, r.out1, r.out1Failed) = (23, true, 81, false) ∧
      ({ Chan.reset with regs := r } : Chan).spareFor 60 = some 81 ∧
      (q.out0, q.out0Failed, q.out1, q.out1Failed) = (23, true, 60, true) := by decide +kernel

/-- The example under R430: 0x0010_0000 to EVC_PEND_CLR1 clears bit 20 alone, and event 0x033 stays;
the window write of 0 loses it. -/
theorem test_pending_example :
    let s := { State.reset with ev := { State.reset.ev with
      evs := [(0x33, { evOn with pend := true, occ := 1 }), (0x34, { evOn with pend := true, occ := 1 })] } }
    ((after (.evcPendClr 1 0x00100000) s).claimable 63).map Prod.fst = some 0x33 ∧
      (after (.evcPendWindowWrite 1 0) s).claimable 63 = none := by decide +kernel

/-- The addresses of 19_address_map: CH2_SQ_5 at 0x0012_0850, EVC_HCLAIM2 at 0x0005_0410. -/
theorem test_addresses :
    ((withPwr fun p => { p with domains := BitVec.allOnes 80 }).regAt 0x120850).isSome = true ∧
    claimOffset 2 = 0x50410 ∧
    ((withPwr fun p => { p with domains := BitVec.allOnes 80 }).regAt 0x330000).isSome = true := by
  refine ⟨?_, ?_, ?_⟩ <;> decide +kernel

/-- CRC-32C of "123456789" is E306_9283 (the check value of its catalogue entry). -/
theorem test_crc32c : crc32c (asciiBytes "123456789") = 0xE3069283 := by decide +kernel

/-- SHA-512 of no bytes begins CF83 E135 7EEF B8BD (FIPS 180-4). -/
theorem test_sha512 : (sha512Bytes []).take 8 = [0xCF, 0x83, 0xE1, 0x35, 0x7E, 0xEF, 0xB8, 0xBD] := by decide +kernel

/-- Division (06): by 0 it writes 0; −2^63 by −1 gives −2^63, remainder 0. FN 0x00E to 0x011 are the four. -/
theorem test_division :
    (∀ fn ∈ [0x00E, 0x00F, 0x010, 0x011],
      ((after (.alu 0) (sCore (ins 0x01 5 1 2 fn) 7 0)).chan 0).core.reg 5 = 0) ∧
    ((after (.alu 0) (sCore (ins 0x01 5 1 2 0x00E) (w64 (2 ^ 63)) (BitVec.allOnes 64))).chan 0).core.reg 5 = w64 (2 ^ 63) := by
  refine ⟨?_, ?_⟩ <;> decide +kernel
end Sys2Proof.Tests
end

section
/-! PROOFS. Writing to a vector, a map or one of four, and reading back. -/
namespace Sys2Proof

theorem getD_set! {α : Type} {n : Nat} (v : Vector α n) (i j : Nat) (x d : α) :
    (v.set! i x).getD j d = if i = j ∧ j < n then x else v.getD j d := by
  by_cases hj : j < n
  · simp [Vector.getD, Array.getElem_setIfInBounds, hj]
  · simp [Vector.getD, hj]

/-- Writing an entry that is already there changes nothing. -/
theorem set!_getD_self {α : Type} {n : Nat} (v : Vector α n) (i : Nat) (d : α) :
    v.set! i (v.getD i d) = v := by
  ext j hj
  rw [Vector.set!_eq_setIfInBounds, Vector.getElem_setIfInBounds hj]
  split
  · rename_i h
    subst h
    simp [Vector.getD, hj]
  · rfl

theorem Smap.upsert_upsert_same {α : Type} (m : Smap α) (a : Nat) (w : α) :
    Smap.upsert (Smap.upsert m a w) a w = Smap.upsert m a w := by
  induction m with
  | nil => simp [Smap.upsert]
  | cons e m ih =>
    obtain ⟨k, v⟩ := e
    by_cases hk : a = k
    · simp [Smap.upsert, hk]
    · by_cases hlt : a < k
      · simp [Smap.upsert, hk, hlt]
      · simp [Smap.upsert, hk, hlt, ih]

theorem Quad.set_get_self {α : Type} (q : Quad α) (c : Chn) : q.set c (q.get c) = q := by
  match c with
  | 0 => rfl
  | 1 => rfl
  | 2 => rfl
  | 3 => rfl

end Sys2Proof
end

section
/-! PROOFS. A slot whose operation did nothing leaves the cell marked and nothing else, and a row of
a channel is run through `State.onChan`, which an absent channel leaves as it was. -/
namespace Sys2Proof.Machine

/-! ### Writing again what stands there -/

theorem Chan.setCell_setCell_same (ch : Chan) (n : Nat) (v : Cell) :
    (ch.setCell n v).setCell n v = ch.setCell n v := by
  simp [Chan.setCell, Smap.upsert_upsert_same]

/-- Adding nothing to a ledger counter leaves the channel as it was. -/
theorem Chan.ledgerAdd_zero (ch : Chan) (code : Nat) : ch.ledgerAdd code 0 = ch := by
  have h : ch.ledger.set! (code - 1) (ch.ledger.getD (code - 1) 0 + w64 0) = ch.ledger := by
    rw [show w64 0 = 0#64 from rfl, BitVec.add_zero, set!_getD_self]
  rw [Chan.ledgerAdd, h, ite_self]

theorem State.setChan_chan (s : State) (c : Chn) : s.setChan c (s.chan c) = s := by
  rw [State.setChan, State.chan, Quad.set_get_self]

theorem State.modChan_of_fixed {s : State} {c : Chn} {f : Chan → Chan} (h : f (s.chan c) = s.chan c) :
    s.modChan c f = s := by
  rw [State.modChan, h, State.setChan_chan]

/-! ### A slot that does nothing -/

/-- Applying the outcome in which nothing was done to a cell that stands in the state changes nothing. -/
theorem applyOut_none (s : State) (k : CellId) (v : Cell) (l : Latched) (off u : Nat) :
    (s.setCell k v).applyOut k l off u (Out.none_ v) = s.setCell k v := by
  have hch : (s.setCell k v).chan k.ch = (s.chan k.ch).setCell k.num v := by simp [State.setCell]
  have hadd (x : W64) : x + w64 0 = x := BitVec.add_zero x
  dsimp only [State.applyOut]
  rw [State.modChan_of_fixed]
  · rfl
  · simp only [hch, Out.none_, Chan.setCell_setCell_same, hadd, List.map_nil, List.append_nil,
      Chan.ledgerAdd_zero]
    rfl

/-- A slot that holds the operation asked for acts on the cell with the slot marked. -/
theorem runSlot_flies {s : State} {k : CellId} {slot : Nat} {l : Latched} (is : Latched → Bool)
    (run : State → Latched → State) (h : s.flies k slot l) (hi : is l = true) :
    s.runSlot k slot is run = run (s.setCell k ((s.cell k).markDone slot)) l := by
  obtain ⟨-, hl⟩ := h
  simp [State.runSlot, hl, hi]

/-- An operation that leaves its outcome as it began marks its slot only. -/
theorem runOut_idle {s : State} {k : CellId} {slot : Nat} {l : Latched} (u : Nat) (is : Latched → Bool)
    (h : s.flies k slot l) (hi : is l = true) :
    s.runOut k slot u is (fun _ _ o => o) = s.setCell k ((s.cell k).markDone slot) := by
  rw [State.runOut, runSlot_flies is _ h hi]
  simp only [State.cell_setCell]
  exact applyOut_none s k _ l _ u

/-! ### The four no-operations -/

section
variable {s : State} {k : CellId} {l : Latched}

theorem exec_mxnop (h : s.flies k slMX l) (hop : fldN l.mx 0 4 = 0) :
    exec (.mxnop k) s = .next (s.setCell k ((s.cell k).markDone slMX)) :=
  (onChan_present (f := fun s => s.mxSlot k 0 mxnopRun) h.1).trans
    (congrArg _ (runOut_idle unMX _ h (decide_eq_true hop)))

theorem exec_vnop (h : s.flies k slVX l) (hop : fldN l.vx 0 6 = 0) :
    exec (.vnop k) s = .next (s.setCell k ((s.cell k).markDone slVX)) :=
  (onChan_present (f := fun s => s.vxSlot k 0x00 vnopRun) h.1).trans
    (congrArg _ (runOut_idle unVX _ h (decide_eq_true hop)))

theorem exec_lsnop (h : s.flies k slLS l) (hop : lsOp l.ls = 0) :
    exec (.lsnop k) s = .next (s.setCell k ((s.cell k).markDone slLS)) :=
  (onChan_present (f := fun s => s.lsSlot k 0 lsnopRun) h.1).trans
    (congrArg _ (runOut_idle unLS _ h (decide_eq_true hop)))

theorem exec_cnop (h : s.flies k slCT l) (hop : ctOp l.ct = 0) :
    exec (.cnop k) s = .next (s.setCell k ((s.cell k).markDone slCT)) :=
  (onChan_present (f := fun s => s.ctSlot k 0x00 cnopRun) h.1).trans
    (congrArg _ (runSlot_flies _ _ h (decide_eq_true hop)))
end

/-! ### Rows of a channel -/

/-- Every row that acts in the cells, the edges or the core of a channel asks first whether the grade has it. -/
theorem exec_eq_onChan {i : Instr} {c : Chn} (h : channelOf i = some c) :
    ∃ f, ∀ s, exec i s = s.onChan c f := by
  cases i <;> cases h <;> exact ⟨_, fun _ => rfl⟩

/-- Settles O3: each no-operation leaves its outcome as it began, and `State.onChan` guards the rest. -/
theorem noOperations : Obligations.NoOperations := by
  refine ⟨fun k s l e he hop h => ?_, fun i c s hi hc => ?_⟩
  · simp only [List.mem_cons, List.not_mem_nil, or_false] at he
    obtain rfl | rfl | rfl | rfl := he
    · exact exec_mxnop h hop
    · exact exec_vnop h hop
    · exact exec_lsnop h hop
    · exact exec_cnop h hop
  · obtain ⟨f, hf⟩ := exec_eq_onChan hi
    exact (hf s).trans (onChan_absent hc)

end Sys2Proof.Machine
end

section
/-! PROOFS. The rows of the memory-side dies: one word of a scrub, what counting its check leaves as it
was, and the scrub of a line as a fold over its words. -/
namespace Sys2Proof.Machine

/-! ### One die's registers -/

@[simp] theorem State.msd_modMsd {n : Nat} (hn : n < 8) (s : State) (f : MsdRegs → MsdRegs) :
    (s.modMsd n f).msd n = f (s.msd n) := by
  rw [State.msd, State.modMsd, getD_set!, if_pos ⟨rfl, hn⟩]

@[simp] theorem State.msd_raise (s : State) (e n : Nat) : (s.raise e).msd n = s.msd n := rfl
@[simp] theorem State.msd_raiseN (s : State) (e i n : Nat) : (s.raiseN e i).msd n = s.msd n := rfl

/-- What leaves a register of a die as it was leaves it so in the state, whichever die it acts on. -/
theorem State.modMsd_keeps {α : Type} (p : MsdRegs → α) {f : MsdRegs → MsdRegs} (hf : ∀ d, p (f d) = p d)
    (s : State) (n m : Nat) : p ((s.modMsd n f).msd m) = p (s.msd m) := by
  rw [State.msd, State.modMsd, getD_set!]
  split
  · rename_i h
    obtain ⟨rfl, -⟩ := h
    exact hf _
  · rfl

/-! ### Exhausted retries (R307) -/

theorem retryHbm_exhausted_retrainDue (s : State) (n : Fin 8) (wdata : Bool) :
    ((s.retryHbm n.val wdata true).msd n.val).retrainDue = true := by
  have h (t : State) : ((t.modMsd n.val fun d => { d with retrainDue := true }).msd n.val).retrainDue = true := by
    rw [State.msd_modMsd n.isLt]
  exact h _

theorem retryHbm_exhausted_raised (s : State) (n : Nat) (wdata : Bool) :
    (s.retryHbm n wdata true).ev.raised = s.ev.raised ++ [0x050 + 4 * n] := rfl

/-! ### The patrol scrub (R356) -/

/-- Nothing but the memory side and the event controller has changed. -/
def sameButMem (s t : State) : Prop := { t with mem := s.mem, ev := s.ev } = s

/-- The scrub of one codeword: it is checked, stored back as checked, and what was found is counted. -/
def State.scrubWord (s : State) (n i : Nat) : State :=
  ({ s with mem := { s.mem with hdm := s.mem.hdm.settle i } } : State).countMsd n
    (s.mem.hdm.cw i).check.2.ce (s.mem.hdm.cw i).check.2.ue

/-- The words `i + j` of a scrub, taken in turn. -/
def State.scrubWords (s : State) (n i : Nat) (l : List Nat) : State :=
  l.foldl (fun s j => s.scrubWord n (i + j)) s

/-- The first codeword of a line of a die's stack. -/
def scrubBase (n g : Nat) : Nat := (n * 2 ^ 36 + 256 * g) / 16

/-- A scrub in force takes the 16 codewords of its line in turn. -/
theorem scrubLine_eq_scrubWords {s : State} {n g : Nat} (hg : g < 2 ^ 28) (hp : (s.msd n).scrubPeriod ≠ 0) :
    s.scrubLine n g = s.scrubWords n (scrubBase n g) (List.range 16) := by
  rw [State.scrubLine, if_pos (by simpa using ⟨hg, hp⟩)]
  rfl

theorem scrubLine_off {s : State} {n g : Nat} (h : (s.msd n).scrubPeriod = 0 ∨ 2 ^ 28 ≤ g) :
    s.scrubLine n g = s := by
  rw [State.scrubLine, if_neg]
  simp only [Bool.and_eq_true, decide_eq_true_eq, not_and, not_not]
  rcases h with h | h
  · exact fun _ => h
  · omega

theorem sameButMem_trans {s t u : State} (h1 : sameButMem s t) (h2 : sameButMem t u) : sameButMem s u :=
  (congrArg (fun x : State => ({ x with mem := s.mem, ev := s.ev } : State)) h2).trans h1

theorem sameButMem_countMsd (s : State) (n ce ue : Nat) : sameButMem s (s.countMsd n ce ue) := by
  unfold State.countMsd
  split
  · rfl
  · simp only
    split <;> rfl

theorem bwLines_countMsd (s : State) (n m ce ue : Nat) :
    ((s.countMsd n ce ue).msd m).bwLines = (s.msd m).bwLines := by
  unfold State.countMsd
  split
  · rfl
  · simp only
    split <;>
      · simp only [State.msd_raise, State.msd_raiseN]
        refine State.modMsd_keeps (·.bwLines) (fun d => ?_) s n m
        rfl

theorem scrubWord_hdm (s : State) (n i : Nat) : (s.scrubWord n i).mem.hdm = s.mem.hdm.settle i := by
  simp [State.scrubWord]

/-- A clean codeword is found clean, stored as it stood and not counted. -/
theorem scrubWord_clean {s : State} {n i : Nat} (h : (s.mem.hdm.cw i).clean = true) :
    s.scrubWord n i = s := by
  simp [State.scrubWord, Mem.settle, Coded.check, h, State.countMsd]

theorem scrubWord_bwLines (s : State) (n i m : Nat) :
    ((s.scrubWord n i).msd m).bwLines = (s.msd m).bwLines := bwLines_countMsd _ n m _ _

theorem sameButMem_scrubWord (s : State) (n i : Nat) : sameButMem s (s.scrubWord n i) :=
  sameButMem_trans (t := { s with mem := { s.mem with hdm := s.mem.hdm.settle i } }) rfl
    (sameButMem_countMsd _ n _ _)

variable (s : State) (n i : Nat) (l : List Nat)

theorem scrubWords_hdm :
    (s.scrubWords n i l).mem.hdm = l.foldl (fun m j => m.settle (i + j)) s.mem.hdm :=
  (List.foldl_hom (fun s : State => s.mem.hdm) fun s j => (scrubWord_hdm s n (i + j)).symm).symm

theorem scrubWords_clean (h : ∀ j ∈ l, (s.mem.hdm.cw (i + j)).clean = true) : s.scrubWords n i l = s :=
  List.foldlRecOn (motive := (· = s)) l _ rfl fun t ht j hj => by
    subst ht
    exact scrubWord_clean (h j hj)

theorem sameButMem_scrubWords : sameButMem s (s.scrubWords n i l) :=
  List.foldlRecOn (motive := sameButMem s) l _ rfl fun t ht j _ =>
    sameButMem_trans ht (sameButMem_scrubWord t n (i + j))

theorem scrubWords_bwLines (m : Nat) : ((s.scrubWords n i l).msd m).bwLines = (s.msd m).bwLines :=
  List.foldlRecOn (motive := fun t => (t.msd m).bwLines = (s.msd m).bwLines) l _ rfl fun t ht j _ =>
    (scrubWord_bwLines t n (i + j) m).trans ht

end Sys2Proof.Machine
end

section
/-! PROOFS. O42: the rows of the memory-side dies. -/
namespace Sys2Proof.Machine

section
variable (n : Fin 8) (s : State) (wdata x on ok : Bool) (g : Nat)

theorem exec_hbmRefresh : exec (.hbmRefresh n) s =
    s.onMsd n fun s => s.modMsd n.val fun d => { d with refresh := d.refresh + 1 } := rfl
theorem exec_hbmRetry : exec (.hbmRetry n wdata x) s = s.onMsd n fun s => s.retryHbm n.val wdata x := rfl
theorem exec_breakwaterEnable :
    exec (.breakwaterEnable n on) s = s.onMsd n fun s => s.enableBw n.val on := rfl
theorem exec_breakwaterInvalidate :
    exec (.breakwaterInvalidate n) s = s.onMsd n fun s => s.invalidateBw n.val := rfl
theorem exec_patrolScrub : exec (.patrolScrub n g) s = s.onMsd n fun s => s.scrubLine n.val g := rfl
theorem exec_hbmRetrainTask :
    exec (.hbmRetrainTask n ok) s = s.onMsd n fun s => s.retrainTask n ok := rfl

/-- On a die that the grade lacks, its rows do nothing (R3). -/
theorem msdRows_absent {n : Fin 8} {s : State} (hn : s.hasMsd n = false) :
    ∀ i ∈ [Instr.hbmRefresh n, .hbmRetry n wdata x, .breakwaterEnable n on,
      .breakwaterInvalidate n, .patrolScrub n g, .hbmRetrainTask n ok], exec i s = .next s := by
  simp [exec_hbmRefresh, exec_hbmRetry, exec_breakwaterEnable, exec_breakwaterInvalidate,
    exec_patrolScrub, exec_hbmRetrainTask, onMsd_absent hn]
end

/-- A scrub in force takes the words of its line (R356, R379). -/
theorem exec_patrolScrub_inForce {n : Fin 8} {s : State} {g : Nat} (hn : s.hasMsd n = true)
    (hg : g < 2 ^ 28) (hp : (s.msd n.val).scrubPeriod ≠ 0) :
    exec (.patrolScrub n g) s = .next (s.scrubWords n.val (scrubBase n.val g) (List.range 16)) := by
  rw [exec_patrolScrub, onMsd_present hn, scrubLine_eq_scrubWords hg hp]

/-- Settles O42: each row acts through `State.onMsd`, and a scrub is a fold of `State.scrubWord`. -/
theorem memorySideRows : Obligations.MemorySideRows := by
  refine fun n s => ⟨fun hn wdata x on g => msdRows_absent wdata x on on g hn, fun hn => ?_⟩
  refine ⟨?refresh, fun wdata => ?retry, fun wdata => ?exhausted, fun on => ?enable, ?invalidate,
    fun g h => ?scrubOff, fun g hg hp => ?scrub⟩
  case refresh => rw [exec_hbmRefresh, onMsd_present hn]
  case retry =>
    rw [exec_hbmRetry, onMsd_present hn]
    rfl
  case exhausted =>
    exact ⟨_, (exec_hbmRetry n s wdata true).trans (onMsd_present hn),
      retryHbm_exhausted_retrainDue s n wdata, retryHbm_exhausted_raised s n wdata⟩
  case enable => rw [exec_breakwaterEnable, onMsd_present hn, State.enableBw]
  case invalidate => rw [exec_breakwaterInvalidate, onMsd_present hn, State.invalidateBw]
  case scrubOff => rw [exec_patrolScrub, onMsd_present hn, scrubLine_off h]
  case scrub =>
    refine ⟨_, exec_patrolScrub_inForce hn hg hp, scrubWords_hdm .., fun hclean => ?_,
      sameButMem_scrubWords .., scrubWords_bwLines ..⟩
    exact scrubWords_clean _ _ _ _ fun j hj => hclean j (List.mem_range.mp hj)

end Sys2Proof.Machine
end

section
/-! PROOFS. O54 fails: what a refused read of BAR0 does, for every size, and the read that shows it. -/
namespace Sys2Proof.Machine

/-- A read of a size that the spec does not allow, or misaligned (R12, R536). -/
def badRead (a size : Nat) : Prop :=
  (size ≠ 4 ∧ size ≠ 8 ∧ size ≠ 16 ∧ size ≠ 32 ∧ size ≠ 64) ∨ a % size ≠ 0

section
variable {a size : Nat}

theorem badRead_four (h : badRead a 4) : a % 4 ≠ 0 := by simpa [badRead] using h
theorem badRead_eight (h : badRead a 8) : a % 8 ≠ 0 := by simpa [badRead] using h

theorem allows_badRead (r : RegVal) (h : badRead a size) : r.allows a size = false := by
  obtain ⟨h4, h8, h16, h32, h64⟩ | h := h
  · simp [RegVal.allows, h4, h8, h16, h32, h64]
  · simp [RegVal.allows, h]

theorem readClaim_badRead (s : State) (h : badRead a size) : s.readClaim a size = s.readNone size := by
  by_cases h8 : size = 8
  · subst h8
    simp [State.readClaim, badRead_eight h]
  · by_cases h4 : size = 4
    · subst h4
      have h0 : a % 8 ≠ 0 := by have := badRead_four h; omega
      have h1 : a % 8 ≠ 4 := by have := badRead_four h; omega
      simp [State.readClaim, h0, h1]
    · simp [State.readClaim, h4, h8]

theorem readMsix_badRead (s : State) (ha : 0xB0000 ≤ a) (h : badRead a size) :
    s.readMsix (a - 0xB0000) size = s.readNone size := by
  rw [State.readMsix, if_neg]
  simp only [Bool.and_eq_true, Bool.or_eq_true, decide_eq_true_eq, not_and]
  rintro (rfl | rfl) h0
  · exact badRead_four h (by omega)
  · exact badRead_eight h (by omega)

/-- A refused read has no effect and answers zeros, where answers of its size are kept: in `readData`
up to 8 bytes, in `lineData` above. -/
theorem exec_readClear_badRead (s : State) (h : badRead a size) :
    exec (.readClear a size) s = .next (s.readNone size) := by
  refine congrArg Host.Outcome.next (?_ : s.readBar a size = s.readNone size)
  unfold State.readBar
  split
  · exact readClaim_badRead s h
  · split
    · rename_i ha
      simp only [Bool.and_eq_true, decide_eq_true_eq] at ha
      obtain ⟨⟨hfrom, -⟩, -⟩ := ha
      exact readMsix_badRead s hfrom h
    · split
      · rename_i r _
        rw [if_neg (by simp [allows_badRead r h])]
      · rfl

/-- A refused read of more than 8 bytes leaves `readData` as it was. -/
theorem readNone_wide_readData (s : State) (h : 8 < size) : (s.readNone size).cxl.readData = s.cxl.readData := by
  rw [State.readNone, if_pos h, State.answerLine]

end

/-- Refutes O54: a misaligned read of 16 bytes answers its zeros in `lineData`, so that a state whose
`readData` is 1 keeps the 1 there, where the statement has it cleared. -/
theorem not_hostAccesses : ¬ Obligations.HostAccesses := by
  intro h
  obtain ⟨-, hread, -⟩ := h { State.reset with cxl := { State.reset.cxl with readData := 1 } }
  have hbad : badRead 8 16 := Or.inr (by decide)
  have hst := Host.Outcome.next.inj ((exec_readClear_badRead _ hbad).symm.trans (hread 8 16 hbad))
  have hdata := congrArg (fun t : State => t.cxl.readData) hst
  rw [readNone_wide_readData _ (by decide)] at hdata
  exact absurd hdata (by decide)

end Sys2Proof.Machine
end

section
/-! PROOFS. Bits of a word after one is replaced, and folds over the state that keep what each of their
steps keeps. -/
namespace Sys2Proof

variable {w : Nat}

theorem bitAt_setBit (x : BitVec w) (i j : Nat) (b : Bool) :
    bitAt (setBit x i b) j = if i = j ∧ j < w then b else bitAt x j := by
  by_cases hw : j < w
  · by_cases hj : i = j
    · subst hj
      simp [bitAt, setBit, setFld, hw]
    · have hsub : j < i ∨ j - i ≠ 0 := by omega
      rcases hsub with h | h <;> simp [bitAt, setBit, setFld, hw, hj, h]
  · have hout (y : BitVec w) : bitAt y j = false := BitVec.getLsbD_of_ge y j (Nat.le_of_not_lt hw)
    rw [hout, hout, if_neg fun h => hw h.2]

/-- A word in which a bit has been set is 0 only when the word was 0, and the bit lies outside it. -/
theorem setBit_true_eq_zero_iff (x : BitVec w) (i : Nat) : setBit x i true = 0#w ↔ x = 0#w ∧ w ≤ i := by
  constructor
  · intro h
    have hbit (j : Nat) : bitAt (setBit x i true) j = false := by simp [h, bitAt]
    have hi : w ≤ i := by
      by_contra hlt
      simpa [bitAt_setBit, Nat.lt_of_not_le hlt] using hbit i
    refine ⟨BitVec.eq_of_getLsbD_eq fun j hj => ?_, hi⟩
    have hne : ¬(i = j ∧ j < w) := by omega
    exact ((bitAt_setBit x i j true).trans (if_neg hne)).symm.trans ((hbit j).trans (by simp))
  · rintro ⟨rfl, hi⟩
    refine BitVec.eq_of_getLsbD_eq fun j hj => ?_
    have hne : ¬(i = j ∧ j < w) := by omega
    exact (bitAt_setBit 0#w i j true).trans (if_neg hne)

namespace Machine

/-- What every step of a fold keeps, the fold keeps. -/
theorem foldl_keeps {α β : Type} (p : State → β) {f : State → α → State}
    (hf : ∀ s x, p (f s x) = p s) (l : List α) (s : State) : p (l.foldl f s) = p s :=
  List.foldlRecOn (motive := fun t => p t = p s) l f rfl fun t ht x _ => (hf t x).trans ht

/-- A fold in which `c` occurs once: what holds until then turns into what holds from then on. -/
theorem foldl_reaches {α : Type} {f : State → α → State} {P Q : State → Prop} {c : α} {l : List α} (hl : l.Nodup)
    (hc : c ∈ l) (hP : ∀ t d, d ≠ c → P t → P (f t d)) (hact : ∀ t, P t → Q (f t c))
    (hQ : ∀ t d, d ≠ c → Q t → Q (f t d)) {s : State} (hs : P s) : Q (l.foldl f s) := by
  induction l generalizing s with
  | nil => exact nomatch hc
  | cons d l ih =>
    obtain ⟨hd, hl⟩ := List.nodup_cons.mp hl
    rcases List.mem_cons.mp hc with rfl | hc
    · exact List.foldlRecOn (motive := Q) l f (hact s hs) fun t ht e he =>
        hQ t e (fun heq => hd (heq ▸ he)) ht
    · exact ih hl hc (hP s d (fun heq => hd (heq ▸ hc)) hs)

theorem nodup_channels (s : State) : s.channels.Nodup := by
  unfold State.channels
  split <;> decide

/-- What a change of one channel leaves as it was in every channel. -/
theorem State.modChan_keeps {α : Type} (p : Chan → α) {f : Chan → Chan} (hf : ∀ ch, p (f ch) = p ch)
    (s : State) (c d : Chn) : p ((s.modChan c f).chan d) = p (s.chan d) := by
  by_cases h : d = c
  · subst h
    rw [State.chan_modChan, hf]
  · rw [State.chan_modChan_other _ _ _ _ h]

end Machine
end Sys2Proof
end

section
/-! PROOFS. What a journal entry leaves as it was (R411 to R415). -/
namespace Sys2Proof.Machine

/-- At most the memory side, the link's counts, the draws of free values and the command window have
changed, and the accepted commands are what they were. -/
structure sameButJournal (s t : State) : Prop where
  same : { t with mem := s.mem, cxl := s.cxl, cmd := s.cmd, draw := s.draw } = s
  accepted : t.cmd.accepted = s.cmd.accepted

section
variable {s t u : State}

theorem sameButJournal_refl (s : State) : sameButJournal s s := ⟨rfl, rfl⟩

theorem sameButJournal_trans (h : sameButJournal s t) (h' : sameButJournal t u) : sameButJournal s u :=
  ⟨(congrArg (fun x : State =>
    ({ x with mem := s.mem, cxl := s.cxl, cmd := s.cmd, draw := s.draw } : State)) h'.same).trans h.same,
    h'.accepted.trans h.accepted⟩

theorem sameButJournal_foldl {α : Type} {f : State → α → State} (hf : ∀ s x, sameButJournal s (f s x))
    (l : List α) (s : State) : sameButJournal s (l.foldl f s) :=
  List.foldlRecOn (motive := sameButJournal s) l f (sameButJournal_refl s) fun t ht x _ =>
    sameButJournal_trans ht (hf t x)

theorem sameButJournal_of_mem (s : State) (m : MemSide) : sameButJournal s { s with mem := m } := ⟨rfl, rfl⟩

theorem sameButJournal_of_cmd (s : State) {r : CmdRegs} (h : r.accepted = s.cmd.accepted) :
    sameButJournal s { s with cmd := r } := ⟨rfl, h⟩

theorem sameButJournal_modMsd (s : State) (n : Nat) (f : MsdRegs → MsdRegs) :
    sameButJournal s (s.modMsd n f) := ⟨rfl, rfl⟩

theorem sameButJournal_bwWrites (s : State) (addrs : List Nat) : sameButJournal s (s.bwWrites addrs) :=
  sameButJournal_foldl (fun t _ => sameButJournal_modMsd t _ _) _ s

theorem sameButJournal_land (s : State) (ws : List ByteWrite) : sameButJournal s (s.land ws) :=
  sameButJournal_trans (sameButJournal_of_mem s _) (sameButJournal_bwWrites _ _)

theorem sameButJournal_issueSnoop (s : State) (line : Nat) : sameButJournal s (s.issueSnoop line) := by
  unfold State.issueSnoop
  split <;> exact ⟨rfl, rfl⟩

theorem sameButJournal_partWrite (s : State) (owner : Nat) (ws : List ByteWrite) :
    sameButJournal s (s.partWrite owner ws) := by
  unfold State.partWrite
  split
  · exact sameButJournal_land s ws
  · exact sameButJournal_trans (sameButJournal_foldl sameButJournal_issueSnoop _ s) (sameButJournal_of_mem _ _)

theorem sameButJournal_countJournal (s : State) : sameButJournal s s.countJournal :=
  sameButJournal_of_cmd s rfl

theorem sameButJournal_journal (s : State) (x : Nat) : sameButJournal s (s.journal x) := by
  unfold State.journal
  refine sameButJournal_trans (sameButJournal_trans ?_ (sameButJournal_partWrite _ 9 _))
    (sameButJournal_countJournal _)
  exact sameButJournal_of_cmd s rfl

theorem sameButJournal_internal (s : State) (type_ d0 d1 : Nat) :
    sameButJournal s (s.internal type_ d0 d1) := by
  unfold State.internal
  split
  · exact sameButJournal_journal s _
  · exact sameButJournal_refl s

theorem sameButJournal_tideEntry (s : State) (loss relock : Bool) : sameButJournal s (s.tideEntry loss relock) :=
  sameButJournal_internal s _ _ _

theorem sameButJournal_ownCmd (s : State) (opcode kind status reason accept done : Nat) :
    sameButJournal s (s.ownCmd opcode kind status reason accept done) :=
  sameButJournal_trans (t := { s with draw := s.draw + 1 }) ⟨rfl, rfl⟩ (sameButJournal_journal _ _)

theorem sameButJournal.four (h : sameButJournal s t) : t.four = s.four := (congrArg State.four h.same :)
theorem sameButJournal.chans (h : sameButJournal s t) : t.chans = s.chans := (congrArg State.chans h.same :)
theorem sameButJournal.tide (h : sameButJournal s t) : t.tide = s.tide := (congrArg State.tide h.same :)
theorem sameButJournal.line (h : sameButJournal s t) : t.line = s.line := (congrArg State.line h.same :)
theorem sameButJournal.flt (h : sameButJournal s t) : t.flt = s.flt := (congrArg State.flt h.same :)
theorem sameButJournal.recov (h : sameButJournal s t) : t.recov = s.recov := (congrArg State.recov h.same :)
theorem sameButJournal.ev (h : sameButJournal s t) : t.ev = s.ev := (congrArg State.ev h.same :)
theorem sameButJournal.pwr (h : sameButJournal s t) : t.pwr = s.pwr := (congrArg State.pwr h.same :)
theorem sameButJournal.svc (h : sameButJournal s t) : t.svc = s.svc := (congrArg State.svc h.same :)

end

section
variable (s : State) (loss relock : Bool)

@[simp] theorem tideEntry_four : (s.tideEntry loss relock).four = s.four := (sameButJournal_tideEntry s _ _).four
@[simp] theorem tideEntry_chans : (s.tideEntry loss relock).chans = s.chans := (sameButJournal_tideEntry s _ _).chans
@[simp] theorem tideEntry_tide : (s.tideEntry loss relock).tide = s.tide := (sameButJournal_tideEntry s _ _).tide
@[simp] theorem tideEntry_line : (s.tideEntry loss relock).line = s.line := (sameButJournal_tideEntry s _ _).line
@[simp] theorem tideEntry_recov : (s.tideEntry loss relock).recov = s.recov := (sameButJournal_tideEntry s _ _).recov
@[simp] theorem tideEntry_accepted : (s.tideEntry loss relock).cmd.accepted = s.cmd.accepted :=
  (sameButJournal_tideEntry s _ _).accepted

end

end Sys2Proof.Machine
end

section
/-! PROOFS. The four order slots of the part and of the frame that a manager sends: the first free one,
how many are free, and what storing an order does (R50, R51). -/
namespace Sys2Proof.Machine

/-! ### Four slots -/

/-- Four order slots. -/
abbrev Slots := Vector (Option Order) 4

/-- The first free slot. -/
def Slots.firstFree (v : Slots) : Option Nat := (List.range 4).find? fun n => (v.getD n none).isNone

/-- The number of free slots. -/
def Slots.freeCount (v : Slots) : Nat := ((List.range 4).filter fun n => (v.getD n none).isNone).length

theorem Slots.lt_of_getD {v : Slots} {k : Nat} {o : Order} (h : v.getD k none = some o) : k < 4 := by
  by_contra hk
  simp [Vector.getD, hk] at h

section
variable {v v' : Slots} {k n : Nat} {o : Order} {is : Nat → Order → Prop}

theorem Slots.firstFree_some (h : Slots.firstFree v = some k) : k < 4 ∧ v.getD k none = none :=
  ⟨List.mem_range.mp (List.mem_of_find?_eq_some h), by simpa using List.find?_some h⟩

theorem Slots.exists_firstFree (h : 0 < Slots.freeCount v) : ∃ k, Slots.firstFree v = some k := by
  obtain ⟨k, hk⟩ := List.exists_mem_of_length_pos h
  obtain ⟨hmem, hfree⟩ := List.mem_filter.mp hk
  exact Option.isSome_iff_exists.mp (List.find?_isSome.mpr ⟨k, hmem, hfree⟩)

theorem Slots.firstFree_eq_none (h : Slots.freeCount v = 0) : Slots.firstFree v = none := by
  rw [Slots.freeCount, List.length_eq_zero_iff, List.filter_eq_nil_iff] at h
  exact List.find?_eq_none.mpr h

theorem Slots.freeCount_set (h : Slots.firstFree v = some k) :
    Slots.freeCount (v.set! k (some o)) + 1 = Slots.freeCount v := by
  obtain ⟨hk, hfree⟩ := Slots.firstFree_some h
  have hmem : k ∈ (List.range 4).filter fun n => (v.getD n none).isNone :=
    List.mem_filter.mpr ⟨List.mem_range.mpr hk, by simp [hfree]⟩
  have herase : (List.range 4).filter (fun n => ((v.set! k (some o)).getD n none).isNone) =
      ((List.range 4).filter fun n => (v.getD n none).isNone).erase k := by
    rw [(List.nodup_range.filter _).erase_eq_filter, List.filter_filter]
    refine List.filter_congr fun n hn => ?_
    rw [getD_set!]
    by_cases hkn : k = n
    · simp [hkn, List.mem_range.mp hn]
    · simp [hkn, Ne.symm hkn]
  rw [Slots.freeCount, herase, List.length_erase_of_mem hmem]
  exact Nat.sub_add_cancel (List.length_pos_of_mem hmem)

/-- The slots `v'` hold what `v` held, and in slots that were free there `n` orders, each as `is` asks. -/
structure Slots.Filled (v v' : Slots) (n : Nat) (is : Nat → Order → Prop) : Prop where
  count : Slots.freeCount v' + n = Slots.freeCount v
  kept : ∀ k, v.getD k none ≠ none → v'.getD k none = v.getD k none
  has : ∀ i < n, ∃ (k : Nat) (o : Order), v'.getD k none = some o ∧ is i o

theorem Slots.Filled.zero (v : Slots) (is : Nat → Order → Prop) : Slots.Filled v v 0 is :=
  ⟨rfl, fun _ _ => rfl, fun _ h => absurd h (Nat.not_lt_zero _)⟩

theorem Slots.Filled.exists_firstFree (h : Slots.Filled v v' n is) (hn : n < Slots.freeCount v) :
    ∃ k, Slots.firstFree v' = some k :=
  Slots.exists_firstFree (by have := h.count; omega)

theorem Slots.getD_set_other {m : Nat} (hfree : v.getD k none = none) (hm : v.getD m none ≠ none) :
    (v.set! k (some o)).getD m none = v.getD m none := by
  rw [getD_set!, if_neg]
  rintro ⟨rfl, -⟩
  exact hm hfree

theorem Slots.Filled.succ (h : Slots.Filled v v' n is) (hk : Slots.firstFree v' = some k) (ho : is n o) :
    Slots.Filled v (v'.set! k (some o)) (n + 1) is := by
  obtain ⟨hlt, hfree⟩ := Slots.firstFree_some hk
  refine ⟨?_, fun m hm => ?_, fun i hi => ?_⟩
  · have hset := Slots.freeCount_set (o := o) hk
    have hcount := h.count
    omega
  · have hsame := h.kept m hm
    rw [Slots.getD_set_other hfree (hsame ▸ hm), hsame]
  · rcases Nat.lt_succ_iff_lt_or_eq.mp hi with hlt' | rfl
    · obtain ⟨m, p, hm, hp⟩ := h.has i hlt'
      exact ⟨m, p, (Slots.getD_set_other hfree (by simp [hm])).trans hm, hp⟩
    · exact ⟨k, o, by rw [getD_set!, if_pos ⟨rfl, hlt⟩], ho⟩

end

/-! ### Storing an order of the part's own -/

section
variable {s t : State} {k : Nat} {typ target : Byte} {mark arg : W64} {moved : Bool}

theorem freeOrder_some (h : s.freeOrder = some k) : k < 4 ∧ s.orderAt k = none := Slots.firstFree_some h

theorem orderAt_setOrder (s : State) (n m : Nat) (o : Option Order) :
    (s.setOrder n o).orderAt m = if n = m ∧ m < 4 then o else s.orderAt m := getD_set! ..

theorem storeOrder_eq_none (h : s.freeOrder = none) (typ : Byte) (mark arg : W64) :
    s.storeOrder typ mark arg = none := by rw [State.storeOrder, h, Option.map_none]

/-- Storing an order writes one slot that was free, and takes an identifier. -/
theorem storeOrder_eq_some (h : s.freeOrder = some k) (typ : Byte) (mark arg : W64) :
    s.storeOrder typ mark arg = some { s.setOrder k
        (some ⟨typ, s.tide.addr, s.line.nextId ||| 0x80000000, mark, arg⟩) with
      line := { s.line with nextId := s.line.nextId + 1 } } := by
  rw [State.storeOrder, h, Option.map_some]
  rfl

/-- What storing an order does, without the order's identifier. -/
theorem storeOrder_stores (h : s.storeOrder typ mark arg = some t) :
    ∃ (k : Nat) (o : Order), s.freeOrder = some k ∧ o.typ = typ ∧ o.target = s.tide.addr ∧ o.mark = mark ∧
      o.arg = arg ∧ t = { s.setOrder k (some o) with line := { s.line with nextId := s.line.nextId + 1 } } := by
  cases hk : s.freeOrder with
  | none => simp [storeOrder_eq_none hk] at h
  | some k =>
    rw [storeOrder_eq_some hk] at h
    exact ⟨k, ⟨typ, s.tide.addr, s.line.nextId ||| 0x80000000, mark, arg⟩, rfl, rfl, rfl, rfl, rfl,
      (Option.some.inj h).symm⟩

/-! ### Placing an order on the line -/

theorem placeOrder_eq_none (h : s.freeLine = 0) (typ target : Byte) (mark arg : W64) :
    s.placeOrder typ target mark arg = none := by
  have hfind : ((List.range 4).find? fun n => (s.line.sending.getD n none).isNone) = none :=
    Slots.firstFree_eq_none h
  rw [State.placeOrder, hfind, Option.map_none]

/-- What placing an order does: it writes a free slot of the frame, and its mark moves later when R50
asks. -/
theorem placeOrder_of_free (h : 0 < s.freeLine) (typ target : Byte) (mark arg : W64) :
    ∃ (k : Nat) (o : Order) (placed : Vector Nat 4), Slots.firstFree s.line.sending = some k ∧ o.typ = typ ∧
      o.target = target ∧ o.arg = arg ∧
      o.mark = (if mark.toNat < s.earliestMark.toNat then s.earliestMark else mark) ∧
      s.placeOrder typ target mark arg = some
        ({ s with line := { s.line with
            sending := s.line.sending.set! k (some o), placed := placed, nextId := s.line.nextId + 1 } },
          decide (mark.toNat < s.earliestMark.toNat)) := by
  obtain ⟨k, hk⟩ := Slots.exists_firstFree h
  have hmoved : decide ((if mark.toNat < s.earliestMark.toNat then s.earliestMark else mark) ≠ mark) =
      decide (mark.toNat < s.earliestMark.toNat) := by
    refine decide_eq_decide.mpr ?_
    split
    · rename_i hlt
      refine iff_of_true (fun heq => ?_) hlt
      rw [heq] at hlt
      exact Nat.lt_irrefl _ hlt
    · rename_i hge
      exact iff_of_false (fun hne => hne rfl) hge
  refine ⟨k, ⟨typ, target, s.line.nextId,
    if mark.toNat < s.earliestMark.toNat then s.earliestMark else mark, arg⟩,
    s.line.placed.set! k (s.tide.count.toNat / 4096 + 1), hk, rfl, rfl, rfl, by dsimp only, ?_⟩
  rw [← hmoved]
  have hfind : ((List.range 4).find? fun n => (s.line.sending.getD n none).isNone) = some k := hk
  rw [State.placeOrder, hfind, Option.map_some]

end

end Sys2Proof.Machine
end

section
/-! PROOFS. The course of a command: its turn, its end and its wait (R392, R396), and the tasks that it
asks for (R507). -/
namespace Sys2Proof.Machine

/-! ### The turn of a command -/

theorem mayBegin_fresh {s : State} {before : List Cmd} {c : Cmd} (h : s.mayBegin before c = true) :
    c.begun = false ∧ c.finished = false := by
  simp only [State.mayBegin, Bool.and_eq_true, Bool.not_eq_true'] at h
  obtain ⟨⟨⟨⟨hbegun, hfinished⟩, -⟩, -⟩, -⟩ := h
  exact ⟨hbegun, hfinished⟩

theorem firstFree_mem {s : State} {c : Cmd} {l : List Cmd} : ∀ before : List Cmd,
    s.firstFree before l = some c → c ∈ l ∧ c.begun = false ∧ c.finished = false := by
  induction l with
  | nil => exact fun _ h => nomatch h
  | cons d l ih =>
    intro before h
    rw [State.firstFree] at h
    split at h
    · rename_i hmay
      obtain rfl := Option.some.inj h
      exact ⟨List.mem_cons_self, mayBegin_fresh hmay⟩
    · obtain ⟨hmem, hfresh⟩ := ih _ h
      exact ⟨List.mem_cons_of_mem _ hmem, hfresh⟩

theorem nextCmd_mem {s : State} {c : Cmd} (h : s.nextCmd = some c) :
    c ∈ s.cmd.accepted ∧ c.begun = false ∧ c.finished = false := by
  rw [State.nextCmd] at h
  split at h
  · exact nomatch h
  · exact firstFree_mem [] h

/-- A command of this sequence stands among the accepted ones. -/
def State.lists (s : State) (seq : W64) : Prop := ∃ x ∈ s.cmd.accepted, x.seq = seq

/-- The command, marked as begun. -/
def Cmd.started (c : Cmd) : Cmd := { c with begun := true }

/-- The row of a command acts, the command marked as begun. -/
def State.runsRow (s : State) (row : State → Cmd → State) (c : Cmd) : State := row (s.begunCmd c.seq) c.started

section
variable {s : State} {op : Nat} {seq : W64} {c : Cmd}

theorem onCmd_runsRow (row : State → Cmd → State) (h : s.turnOf op seq c) :
    s.onCmd op seq row = s.runsRow row c := by
  rw [onCmd_turn row h, ← h.2.1]
  rfl

theorem turnOf_finished (h : s.turnOf op seq c) : c.finished = false := (nextCmd_mem h.1).2.2

theorem turnOf_lists (h : s.turnOf op seq c) : (s.begunCmd c.seq).lists c.seq := by
  refine ⟨c.started, List.mem_map.mpr ⟨c, (nextCmd_mem h.1).1, ?_⟩, rfl⟩
  exact if_pos rfl

end

/-! ### The end of a command -/

section
variable {t : State} {c d : Cmd}

/-- The same command, as it was accepted. -/
structure Cmd.same (d c : Cmd) : Prop where
  seq : d.seq = c.seq
  packet : d.packet = c.packet

theorem Cmd.started_same (c : Cmd) : c.started.same c := ⟨rfl, rfl⟩

theorem Cmd.clamped_same (h : d.same c) (bit : Nat) (b : Bool) : (d.clamped bit b).same c := by
  cases b <;> exact ⟨h.seq, h.packet⟩

@[simp] theorem Cmd.clamped_finished (bit : Nat) (b : Bool) : (d.clamped bit b).finished = d.finished := by
  cases b <;> rfl
@[simp] theorem Cmd.clamped_begun (bit : Nat) (b : Bool) : (d.clamped bit b).begun = d.begun := by
  cases b <;> rfl

theorem Cmd.clamped_clamp_eq_zero {bit : Nat} (hbit : bit < 32) (b : Bool) :
    (d.clamped bit b).clamp = 0 ↔ d.clamp = 0 ∧ b = false := by
  cases b
  · simp [Cmd.clamped]
  · simp [Cmd.clamped, setBit_true_eq_zero_iff, Nat.not_le.mpr hbit]

theorem Cmd.clamped_clamp_zero {bit : Nat} {b : Bool} (h : (d.clamped bit b).clamp = 0) : d.clamp = 0 := by
  cases b
  · exact h
  · exact ((setBit_true_eq_zero_iff d.clamp bit).mp h).1

/-- A command, set to another value, stands in the window as that value. -/
theorem modCmd_mem {x : Cmd} (hl : t.lists c.seq) : x ∈ (t.modCmd c.seq fun _ => x).cmd.accepted := by
  obtain ⟨y, hy, hseq⟩ := hl
  exact List.mem_map.mpr ⟨y, hy, if_pos hseq⟩

theorem ended_finish (hl : t.lists c.seq) (h : d.same c) (status reason : Nat) (result : BitVec 192) :
    (t.finish d status reason result).ended c status reason result := by
  refine ⟨{ d with
      begun := true, finished := true, status := BitVec.ofNat 16 status, reason := BitVec.ofNat 16 reason
      result := result }, ?_, h.seq, h.packet, rfl, rfl, rfl, rfl, rfl⟩
  rw [State.finish, h.seq]
  exact modCmd_mem hl

theorem ended_abort (hl : t.lists c.seq) (h : d.same c) (reason : Nat) :
    (t.abort d reason).ended c stABORTED reason resNone := ended_finish hl h _ _ _

/-- A command that is done ends with OK, or OK_CLAMPED when a field has been clamped. -/
theorem endedOk_done (hl : t.lists c.seq) (h : d.same c) {more : Bool}
    (hclamp : d.clamp = 0 ↔ c.clamp = 0 ∧ more = false) (result : BitVec 192) :
    (t.done d result).endedOk c more result := by
  have hstatus : d.okStatus = if c.clamp = 0 ∧ more = false then stOK else stCLAMPED := by
    rw [Cmd.okStatus]
    exact if_congr hclamp rfl rfl
  rw [State.endedOk, ← hstatus]
  exact ended_finish hl h _ _ _

theorem waitsOn_keepCmd (hl : t.lists c.seq) (h : d.same c) (hb : d.begun = true) (hf : d.finished = false) :
    (t.keepCmd d).waitsOn c := by
  refine ⟨d, ?_, h.seq, h.packet, hb, hf⟩
  rw [State.keepCmd, h.seq]
  exact modCmd_mem hl

end

/-- What speaks of the accepted commands alone holds of any state that has the same. -/
theorem waitsOn_congr {t u : State} {c : Cmd} (h : u.cmd.accepted = t.cmd.accepted) (ht : t.waitsOn c) :
    u.waitsOn c := by
  rw [State.waitsOn, h]
  exact ht

/-! ### Asking for a task -/

section
variable {s t : State} {u : Task} {mark : W64}

theorem storeOrder_cmd {typ : Byte} {mark arg : W64} (h : s.storeOrder typ mark arg = some t) : t.cmd = s.cmd := by
  obtain ⟨k, o, -, -, -, -, -, rfl⟩ := storeOrder_stores h
  rfl

theorem attachAt_cmd (s : State) (u : Task) (mark : W64) : (s.attachAt u mark).cmd = s.cmd := by
  unfold State.attachAt
  split
  · rename_i h
    have hcmd := storeOrder_cmd h
    exact hcmd
  · rfl

theorem attachTask_cmd (s : State) (u : Task) : (s.attachTask u).cmd = s.cmd := by
  unfold State.attachTask
  split
  · rfl
  · exact attachAt_cmd s u _

/-- The waiting list holds an entry for the task, with the commands that asked for it. -/
theorem mem_listTask (l : List Task) (u : Task) :
    ∃ v ∈ listTask l u, v.task = u.task ∧ ∀ q ∈ u.cmds, q ∈ v.cmds := by
  unfold listTask
  split
  · rename_i hany
    obtain ⟨v, hv, htask⟩ := List.any_eq_true.mp hany
    have htask := of_decide_eq_true htask
    refine ⟨{ v with cmds := v.cmds ++ u.cmds }, List.mem_map.mpr ⟨v, hv, if_pos htask⟩, htask, fun q hq => ?_⟩
    exact List.mem_append_right _ hq
  · exact ⟨u, List.mem_append_right _ (List.mem_singleton.mpr rfl), rfl, fun _ h => h⟩

theorem attachAt_free (h : s.freeOrder ≠ none) : { u with mark := mark } ∈ (s.attachAt u mark).svc.tasks := by
  obtain ⟨k, hk⟩ := Option.ne_none_iff_exists'.mp h
  rw [State.attachAt, storeOrder_eq_some hk]
  exact List.mem_append_right _ (List.mem_singleton.mpr rfl)

theorem attachAt_full (h : s.freeOrder = none) :
    (s.attachAt u mark).svc.listed = listTask s.svc.listed u := by
  rw [State.attachAt, storeOrder_eq_none h]

theorem asked_attachTask (s : State) (u : Task) {seq : W64} (hseq : seq ∈ u.cmds) :
    s.asked (s.attachTask u) u.task seq := by
  unfold State.attachTask
  cases hw : s.nextWindow with
  | some m =>
    refine ⟨{ u with mark := m }, rfl, hseq, fun m' hm' => ?_, fun h => ?_, fun h => ?_⟩
    · obtain rfl := Option.some.inj (hw.symm.trans hm')
      exact ⟨List.mem_append_right _ (List.mem_singleton.mpr rfl), rfl⟩
    · exact nomatch hw.symm.trans h
    · exact nomatch hw.symm.trans h
  | none =>
    cases hf : s.freeOrder with
    | some k =>
      have hfree : s.freeOrder ≠ none := by simp [hf]
      refine ⟨{ u with mark := s.earliestMark }, rfl, hseq, fun m hm => ?_, fun _ _ => ?_, fun _ h => ?_⟩
      · exact nomatch hw.symm.trans hm
      · exact ⟨attachAt_free hfree, rfl⟩
      · exact absurd h hfree
    | none =>
      obtain ⟨v, hv, htask, hcmds⟩ := mem_listTask s.svc.listed u
      refine ⟨v, htask, hcmds seq hseq, fun m hm => ?_, fun _ h => ?_, fun _ _ => ?_⟩
      · exact nomatch hw.symm.trans hm
      · exact absurd hf h
      · exact attachAt_full hf ▸ hv

/-- A command that asks for a task waits for it. -/
theorem waitsOn_askTask {c d : Cmd} (hl : s.lists c.seq) (h : d.same c) (hb : d.begun = true)
    (hf : d.finished = false) (task : SlackTask) : (s.askTask d task).waitsOn c :=
  waitsOn_congr (congrArg CmdRegs.accepted (attachTask_cmd _ _)) (waitsOn_keepCmd hl h hb hf)

end

end Sys2Proof.Machine
end

section
/-! PROOFS. O50: the time and service commands. Each row has one equation per case; a plan stores or
places its steps one by one, each in a slot that was free. -/
namespace Sys2Proof.Machine

/-! ### Parameters -/

/-- The parameters of a command lie in its packet. -/
theorem Cmd.arg_of_packet {c d : Cmd} (h : d.packet = c.packet) (i : Nat) : d.arg i = c.arg i := by
  cases d
  cases h
  rfl

theorem Cmd.planStep_of_packet {c d : Cmd} (h : d.packet = c.packet) (i : Nat) : d.planStep i = c.planStep i := by
  rw [Cmd.planStep, Cmd.planStep, Cmd.arg_of_packet h, Cmd.arg_of_packet h]

theorem PField.clamp_le {f : PField} (h : f.lo ≤ f.hi) (v : Nat) : f.clamp v ≤ f.hi :=
  Nat.max_le.mpr ⟨h, Nat.min_le_left _ _⟩

theorem Cmd.arg_le {c : Cmd} {i : Nat} {f : PField} (hf : (c.fields.getD [])[i]? = some f)
    (hop : c.opcode ≠ opADOPT) (h : f.lo ≤ f.hi) : c.arg i ≤ f.hi := by
  rw [Cmd.arg, hf]
  simp only [if_neg hop]
  exact PField.clamp_le h _

theorem arg_target_freqPlan {c : Cmd} (h : c.opcode = opFREQ) : c.arg 2 < 256 := by
  have hf : (c.fields.getD [])[2]? = some (pAny 2 1) := by simp [Cmd.fields, h]; rfl
  exact Nat.lt_succ_of_le (Cmd.arg_le hf (by simp [h, opFREQ, opADOPT]) (by decide))

theorem slack_fields {c : Cmd} (h : c.opcode = opSLACK) :
    c.fields.getD [] = [pAny 0 2, pMax 2 1 1, pAny 3 1] := by simp [Cmd.fields, h]; rfl

theorem arg_length_slack {c : Cmd} (h : c.opcode = opSLACK) : c.arg 0 < 65536 :=
  Nat.lt_succ_of_le (Cmd.arg_le (f := pAny 0 2) (by rw [slack_fields h]; rfl)
    (by simp [h, opSLACK, opADOPT]) (by decide))

theorem arg_target_slack {c : Cmd} (h : c.opcode = opSLACK) : c.arg 2 < 256 :=
  Nat.lt_succ_of_le (Cmd.arg_le (f := pAny 3 1) (by rw [slack_fields h]; rfl)
    (by simp [h, opSLACK, opADOPT]) (by decide))

theorem arg_manager_tideRole {c : Cmd} (h : c.opcode = opTIDEROLE) : c.arg 2 ≤ 0xFE := by
  have hf : (c.fields.getD [])[2]? = some (pMax 2 1 0xFE) := by simp [Cmd.fields, h]; rfl
  exact Cmd.arg_le hf (by simp [h, opTIDEROLE, opADOPT]) (by decide)

/-! ### SET_FREQ_PLAN -/

section
variable {b : State} {d : Cmd}

theorem freqPlanRow_none (h : d.arg 0 = 0) : freqPlanRow b d = b.done d (resOne 32 1 0) := if_pos h

theorem freqPlanRow_notManager (h0 : d.arg 0 ≠ 0) (h1 : d.arg 1 = 1) (hr : b.tide.role ≠ rlMANAGER) :
    freqPlanRow b d = b.abort d rsNOTMANAGER := by
  rw [freqPlanRow, if_neg h0, if_pos h1, if_pos hr]

theorem freqPlanRow_lineFull (h1 : d.arg 1 = 1) (hr : b.tide.role = rlMANAGER) (hf : b.freeLine < d.arg 0) :
    freqPlanRow b d = b.abort d rsNOSLOT := by
  rw [freqPlanRow, if_neg (Nat.ne_zero_of_lt hf), if_pos h1, if_neg (not_not_intro hr), if_pos hf]

theorem freqPlanRow_line (h0 : d.arg 0 ≠ 0) (h1 : d.arg 1 = 1) (hr : b.tide.role = rlMANAGER)
    (hf : d.arg 0 ≤ b.freeLine) :
    freqPlanRow b d = (b.placePlan d (d.arg 0)).1.done (b.placePlan d (d.arg 0)).2 (resOne 32 1 (d.arg 0)) := by
  rw [freqPlanRow, if_neg h0, if_pos h1, if_neg (not_not_intro hr), if_neg (Nat.not_lt.mpr hf)]

theorem freqPlanRow_full (h1 : d.arg 1 ≠ 1) (hf : b.freeOrders < d.arg 0) :
    freqPlanRow b d = b.abort d rsNOSLOT := by
  rw [freqPlanRow, if_neg (Nat.ne_zero_of_lt hf), if_neg h1, if_pos hf]

/-- A plan without steps stores none, so that this holds of it too. -/
theorem freqPlanRow_local (h1 : d.arg 1 ≠ 1) (hf : d.arg 0 ≤ b.freeOrders) :
    freqPlanRow b d = (b.storePlan d (d.arg 0)).done d (resOne 32 1 (d.arg 0)) := by
  by_cases h0 : d.arg 0 = 0
  · rw [freqPlanRow_none h0, h0]
    rfl
  · rw [freqPlanRow, if_neg h0, if_neg h1, if_neg (Nat.not_lt.mpr hf)]

/-- Step `i` of a plan, stored by the part at its mark or at the next boundary. -/
def State.isLocalStep (s : State) (c : Cmd) (i : Nat) (o : Order) : Prop :=
  o.typ = otFREQ ∧ o.target = s.tide.addr ∧ o.mark = s.localMark (c.planStep i).1 ∧ o.arg = (c.planStep i).2

/-- Step `i` of a plan, placed on the line at its mark or at the earliest one that R50 allows. -/
def State.isLineStep (s : State) (c : Cmd) (i : Nat) (o : Order) : Prop :=
  o.typ = otFREQ ∧ o.target = BitVec.ofNat 8 (c.arg 2) ∧ o.arg = (c.planStep i).2 ∧
    o.mark = if (c.planStep i).1.toNat < s.earliestMark.toNat then s.earliestMark else (c.planStep i).1

/-- While free slots last, each step of a plan is stored in one of them. -/
theorem storePlan_fills (b : State) (d : Cmd) (n : Nat) (hn : n ≤ b.freeOrders) :
    Slots.Filled b.tide.orders (b.storePlan d n).tide.orders n (b.isLocalStep d) ∧
      (b.storePlan d n).tide.count = b.tide.count ∧ (b.storePlan d n).tide.addr = b.tide.addr ∧
      (b.storePlan d n).cmd = b.cmd := by
  induction n with
  | zero => exact ⟨Slots.Filled.zero _ _, rfl, rfl, rfl⟩
  | succ n ih =>
    obtain ⟨hfilled, hcount, haddr, hcmd⟩ := ih (Nat.le_of_succ_le hn)
    obtain ⟨k, hk⟩ := hfilled.exists_firstFree hn
    have hstore := storeOrder_eq_some (s := b.storePlan d n) hk otFREQ
      ((b.storePlan d n).localMark (d.planStep n).1) (d.planStep n).2
    have hnext : b.storePlan d (n + 1) = ((b.storePlan d n).storeOrder otFREQ
        ((b.storePlan d n).localMark (d.planStep n).1) (d.planStep n).2).getD (b.storePlan d n) := by
      rw [State.storePlan, List.range_succ, List.foldl_append]
      rfl
    rw [hnext, hstore]
    refine ⟨hfilled.succ hk ⟨rfl, haddr, ?_, rfl⟩, hcount, haddr, hcmd⟩
    rw [State.localMark, State.localMark, hcount]

/-- While free slots last, each step of a plan is placed in one of them. -/
theorem placePlan_fills (b : State) (d : Cmd) (n : Nat) (hn : n ≤ b.freeLine) :
    Slots.Filled b.line.sending (b.placePlan d n).1.line.sending n (b.isLineStep d) ∧
      (b.placePlan d n).1.tide = b.tide ∧ (b.placePlan d n).1.cmd = b.cmd ∧
      (b.placePlan d n).2.same d ∧ ((b.placePlan d n).2.clamp = 0 → d.clamp = 0) := by
  induction n with
  | zero => exact ⟨Slots.Filled.zero _ _, rfl, rfl, ⟨rfl, rfl⟩, id⟩
  | succ n ih =>
    obtain ⟨hfilled, htide, hcmd, hsame, hclamp⟩ := ih (Nat.le_of_succ_le hn)
    have hfree : 0 < Slots.freeCount (b.placePlan d n).1.line.sending := by
      have hcount := hfilled.count
      have hn : n + 1 ≤ Slots.freeCount b.line.sending := hn
      omega
    have hstep : (b.placePlan d n).2.planStep n = d.planStep n := Cmd.planStep_of_packet hsame.packet n
    obtain ⟨k, o, placed, hk, htyp, htarget, harg, hmark, hplace⟩ := placeOrder_of_free hfree otFREQ
      (BitVec.ofNat 8 (d.arg 2)) ((b.placePlan d n).2.planStep n).1 ((b.placePlan d n).2.planStep n).2
    have hnext : b.placePlan d (n + 1) = match (b.placePlan d n).1.placeOrder otFREQ
        (BitVec.ofNat 8 (d.arg 2)) ((b.placePlan d n).2.planStep n).1 ((b.placePlan d n).2.planStep n).2 with
      | some (t, moved) => (t, (b.placePlan d n).2.clamped (3 + 2 * n) moved)
      | none => b.placePlan d n := by
      rw [State.placePlan, List.range_succ, List.foldl_append]
      rfl
    rw [hnext, hplace]
    dsimp only
    have hearly : (b.placePlan d n).1.earliestMark = b.earliestMark := by
      rw [State.earliestMark, htide, State.earliestMark]
    rw [hstep] at harg hmark
    rw [hearly] at hmark
    exact ⟨hfilled.succ hk ⟨htyp, htarget, harg, hmark⟩, htide, hcmd, Cmd.clamped_same hsame _ _,
      fun h0 => hclamp (Cmd.clamped_clamp_zero h0)⟩

end

/-! ### SCHEDULE_SLACK -/

section
variable {b t : State} {d : Cmd}

@[simp] theorem Cmd.clamped_arg (d : Cmd) (bit : Nat) (x : Bool) (i : Nat) : (d.clamped bit x).arg i = d.arg i :=
  Cmd.arg_of_packet (Cmd.clamped_same (c := d) ⟨rfl, rfl⟩ bit x).packet i

/-- The command with the clamp bit that says that its header gave no mark. -/
def Cmd.markClamped (d : Cmd) : Cmd := d.clamped 30 (!d.hasMark)

/-- The mark of a window on the part itself. -/
def State.ownMark (b : State) (d : Cmd) : W64 := b.localMark (if d.hasMark then d.mark else b.tide.count + 1)

theorem slackRow_none (h0 : d.arg 0 = 0) : slackRow b d = b.done d.markClamped resNone := by
  simp [slackRow, Cmd.markClamped, h0]

theorem slackRow_stored (h0 : d.arg 0 ≠ 0) (h1 : d.arg 1 ≠ 1)
    (ht : b.storeOrder otSLACK (b.ownMark d) (w64 (d.arg 0)) = some t) :
    slackRow b d = t.done d.markClamped (resOne 32 8 (b.ownMark d).toNat) := by
  rw [State.ownMark] at ht
  simp only [slackRow, Cmd.markClamped, State.ownMark, State.slackAsk, Cmd.clamped_arg, h0, h1, ht, decide_false,
    Bool.false_and, Bool.false_eq_true, if_false]

theorem slackRow_full (h0 : d.arg 0 ≠ 0) (h1 : d.arg 1 ≠ 1) (hf : b.freeOrder = none) :
    slackRow b d = b.abort d.markClamped rsNOSLOT := by
  simp [slackRow, Cmd.markClamped, h0, h1, storeOrder_eq_none hf]

theorem slackRow_notManager (h0 : d.arg 0 ≠ 0) (h1 : d.arg 1 = 1) (hr : b.tide.role ≠ rlMANAGER) :
    slackRow b d = b.abort d.markClamped rsNOTMANAGER := by
  simp [slackRow, Cmd.markClamped, h0, h1, hr]

theorem slackRow_lineFull (h0 : d.arg 0 ≠ 0) (h1 : d.arg 1 = 1) (hr : b.tide.role = rlMANAGER)
    (hf : b.freeLine = 0) : slackRow b d = b.abort d.markClamped rsNOSLOT := by
  simp [slackRow, Cmd.markClamped, h0, h1, hr, placeOrder_eq_none hf]

/-- The mark that a window on the line asks for. -/
def State.lineAsk (b : State) (d : Cmd) : W64 := if d.hasMark then d.mark else b.earliestMark

theorem slackRow_placed (h0 : d.arg 0 ≠ 0) (h1 : d.arg 1 = 1) (hr : b.tide.role = rlMANAGER) {moved : Bool}
    (ht : b.placeOrder otSLACK (BitVec.ofNat 8 (d.arg 2)) (b.lineAsk d) (w64 (d.arg 0)) = some (t, moved)) :
    slackRow b d = t.done (d.markClamped.clamped 30 moved)
      (resOne 32 8 (if moved then b.earliestMark else b.lineAsk d).toNat) := by
  rw [State.lineAsk] at ht
  simp [slackRow, Cmd.markClamped, State.lineAsk, State.slackAsk, h0, h1, hr, ht]

end

/-! ### SET_TIDE_ROLE -/

section
variable {b t : State} {d : Cmd}

theorem roleRow_notManager (h1 : d.arg 1 = 1) (hr : b.tide.role ≠ rlMANAGER) :
    roleRow b d = b.abort d rsNOTMANAGER := by
  rw [roleRow, if_pos h1, if_pos hr]

/-- The mark that a handover asks for is that of a window on the line. -/
theorem roleRow_handover (h1 : d.arg 1 = 1) (hr : b.tide.role = rlMANAGER) {moved : Bool}
    (ht : b.placeOrder otHANDOVER 0xFF (b.lineAsk d) (w64 (d.arg 2)) = some (t, moved)) :
    roleRow b d = t.keepCmd (d.clamped 30 (moved || !d.hasMark)) := by
  rw [State.lineAsk] at ht
  simp only [roleRow, h1, hr, ht, ne_eq, not_true_eq_false, if_true, if_false]

theorem roleRow_lineFull (h1 : d.arg 1 = 1) (hr : b.tide.role = rlMANAGER) (hf : b.freeLine = 0) :
    roleRow b d = b.abort d rsNOSLOT := by
  simp [roleRow, h1, hr, placeOrder_eq_none hf]

theorem roleRow_resume (h1 : d.arg 1 ≠ 1) (h0 : d.arg 0 = 2) (h : (b.tide.eligible && b.lineIdle) = true) :
    roleRow b d = { b.keepCmd d with line := { b.line with resume := some b.resumeCount } } := by
  rw [roleRow, if_neg h1, if_pos h0, if_pos h]

theorem roleRow_notEligible (h1 : d.arg 1 ≠ 1) (h0 : d.arg 0 = 2) (h : (b.tide.eligible && b.lineIdle) = false) :
    roleRow b d = b.abort d rsSTATE := by
  rw [roleRow, if_neg h1, if_pos h0, if_neg (by simp [h])]

theorem roleRow_role (h1 : d.arg 1 ≠ 1) (h0 : d.arg 0 < 2) : roleRow b d =
    (b.setRole (BitVec.ofNat 2 (d.arg 0))).done d
      (resOne 32 1 (b.setRole (BitVec.ofNat 2 (d.arg 0))).tide.role.toNat) := by
  rw [roleRow, if_neg h1, if_neg (by omega)]

theorem setRole_role (b : State) (r : BitVec 2) : (b.setRole r).tide.role = r := by
  unfold State.setRole
  split
  · assumption
  · rw [tideEntry_tide]

theorem setRole_count (b : State) (r : BitVec 2) : (b.setRole r).tide.count = b.tide.count := by
  unfold State.setRole
  split
  · rfl
  · rw [tideEntry_tide]

theorem setRole_accepted (b : State) (r : BitVec 2) : (b.setRole r).cmd.accepted = b.cmd.accepted := by
  unfold State.setRole
  split
  · rfl
  · rw [tideEntry_accepted]

end

/-! ### Tasks of a window, and FW_STAGE -/

section
variable {b : State} {d : Cmd}

theorem substituteRow_stands
    (h : (b.chan (chnOf (d.arg 0))).regs.out0.toNat ≠ d.arg 1 ∧ (b.chan (chnOf (d.arg 0))).regs.out1.toNat ≠ d.arg 1) :
    substituteRow b d = b.askTask d (.substitute (chnOf (d.arg 0)) (d.arg 1)) := by
  simp [substituteRow, h.1, h.2]

theorem substituteRow_out
    (h : ¬((b.chan (chnOf (d.arg 0))).regs.out0.toNat ≠ d.arg 1 ∧ (b.chan (chnOf (d.arg 0))).regs.out1.toNat ≠ d.arg 1)) :
    substituteRow b d = b.abort d rsSTATE := by
  rw [substituteRow, if_pos]
  simpa [or_iff_not_imp_left] using h

theorem activateRow_staged (h : b.sec.staged = true) :
    activateRow b d = { b with sec := { b.sec with activating := true } }.askTask d .firmware := by
  simp [activateRow, h]

theorem activateRow_nothing (h : b.sec.staged = false) : activateRow b d = b.abort d rsNOTHING := by
  simp [activateRow, h]

/-- The bytes that a staging takes up. -/
def State.stageLen (b : State) (d : Cmd) : Nat := min (d.arg 1) (b.hdmSize - d.arg 0)
def State.stageBytes (b : State) (d : Cmd) : List Byte := b.hdmBytes (d.arg 0) (b.stageLen d)

/-- The command with the clamp bit that says that not all the bytes it names are there. -/
def Cmd.stageClamped (d : Cmd) (b : State) : Cmd := d.clamped 1 (decide (b.stageLen d < d.arg 1))

/-- The part after a staging: the inactive slot is written. -/
def State.staged (b : State) (slot : FwSlot) (good : Bool) (ver : W64) : State :=
  { b with sec := { b.sec with
    flashA := if b.activeSlot then slot else b.sec.flashA
    flashB := if b.activeSlot then b.sec.flashB else slot
    staged := good
    fwStaged := ver } }

theorem stageRow_none (h : b.stageLen d = 0) : stageRow b d = b.done (d.stageClamped b) resNone := by
  have h0 : min (d.arg 1) (b.hdmSize - d.arg 0) = 0 := h
  rw [stageRow, if_pos h0]
  rfl

theorem stageRow_good (h : b.stageLen d ≠ 0) (hgood : b.fwCheck (b.stageBytes d) = 0) :
    stageRow b d = (b.staged ⟨b.stageBytes d, true⟩ true (fwVersion (b.stageBytes d))).done (d.stageClamped b)
      (resSet (resOne 32 8 (fwVersion (b.stageBytes d)).toNat) 40 8
        ((fwMeasure (b.stageBytes d) 2).toNat % 2 ^ 64)) := by
  have h0 : min (d.arg 1) (b.hdmSize - d.arg 0) ≠ 0 := h
  have hg : b.fwCheck (b.hdmBytes (d.arg 0) (min (d.arg 1) (b.hdmSize - d.arg 0))) = 0 := hgood
  simp only [stageRow, if_neg h0, Cmd.clamped_arg, hg, decide_true, if_true]
  rfl

theorem stageRow_bad (h : b.stageLen d ≠ 0) (hbad : b.fwCheck (b.stageBytes d) ≠ 0) :
    stageRow b d = (b.staged ⟨[], false⟩ false 0).finish (d.stageClamped b) stAUTH 0 resNone := by
  have h0 : min (d.arg 1) (b.hdmSize - d.arg 0) ≠ 0 := h
  have hb : b.fwCheck (b.hdmBytes (d.arg 0) (min (d.arg 1) (b.hdmSize - d.arg 0))) ≠ 0 := hbad
  simp only [stageRow, if_neg h0, Cmd.clamped_arg, hb, decide_false, if_false]
  rfl

end

end Sys2Proof.Machine
end

section
/-! PROOFS. O50: what a time or service command has done when its row has acted in its turn. -/
namespace Sys2Proof.Machine

section
variable {s : State} {seq : W64} {c : Cmd}

theorem exec_row {i : Instr} {op : Nat} {row : State → Cmd → State} (hrow : exec i s = .next (s.onCmd op seq row))
    (h : s.turnOf op seq c) : exec i s = .next (s.runsRow row c) := by rw [hrow, onCmd_runsRow row h]

/-! ### How a command that has begun ends -/

theorem started_endedOk {op : Nat} (h : s.turnOf op seq c) {t : State}
    (ht : t.cmd.accepted = (s.begunCmd c.seq).cmd.accepted) (result : BitVec 192) :
    (t.done c.started result).endedOk c false result := by
  refine endedOk_done ?_ c.started_same (by simp [Cmd.started]) result
  rw [State.lists, ht]
  exact turnOf_lists h

theorem clamped_endedOk {op : Nat} (h : s.turnOf op seq c) {t : State}
    (ht : t.cmd.accepted = (s.begunCmd c.seq).cmd.accepted) {bit : Nat} (hbit : bit < 32) (b : Bool)
    (result : BitVec 192) : (t.done (c.started.clamped bit b) result).endedOk c b result := by
  refine endedOk_done ?_ (Cmd.clamped_same c.started_same bit b) (Cmd.clamped_clamp_eq_zero hbit b) result
  rw [State.lists, ht]
  exact turnOf_lists h

theorem aborted_ended {op : Nat} (h : s.turnOf op seq c) {d : Cmd} (hd : d.same c) (reason : Nat) :
    ((s.begunCmd c.seq).abort d reason).ended c stABORTED reason resNone ∧
      { (s.begunCmd c.seq).abort d reason with cmd := s.cmd } = s :=
  ⟨ended_abort (turnOf_lists h) hd reason, rfl⟩

theorem begun_waitsOn {op : Nat} (h : s.turnOf op seq c) {t : State}
    (ht : t.cmd.accepted = (s.begunCmd c.seq).cmd.accepted) (bit : Nat) (b : Bool) :
    (t.keepCmd (c.started.clamped bit b)).waitsOn c := by
  refine waitsOn_keepCmd ?_ (Cmd.clamped_same c.started_same bit b) (Cmd.clamped_begun ..) ?_
  · rw [State.lists, ht]
    exact turnOf_lists h
  · have hfinished := turnOf_finished h
    exact (Cmd.clamped_finished ..).trans hfinished

/-! ### SET_FREQ_PLAN (R406) -/

theorem setFreqPlan_line (h : s.turnOf opFREQ seq c) (h0 : c.arg 0 ≠ 0) (h1 : c.arg 1 = 1)
    (hm : s.tide.role = rlMANAGER) (hn : c.arg 0 ≤ s.freeLine) :
    (∃ more, (s.runsRow freqPlanRow c).endedOk c more (resOne 32 1 (c.arg 0))) ∧
      ∀ i < c.arg 0, ∃ (k : Nat) (o : Order),
        (s.runsRow freqPlanRow c).line.sending.getD k none = some o ∧ s.isLineStep c i o := by
  obtain ⟨hfilled, -, hcmd, hsame, hclamp⟩ := placePlan_fills (s.begunCmd c.seq) c.started (c.arg 0) hn
  rw [State.runsRow, freqPlanRow_line (b := s.begunCmd c.seq) (d := c.started) h0 h1 hm hn]
  refine ⟨⟨decide (((s.begunCmd c.seq).placePlan c.started (c.arg 0)).2.clamp ≠ 0), ?_⟩, hfilled.has⟩
  refine endedOk_done ?_ ⟨hsame.seq, hsame.packet⟩ ?_ _
  · have hl := turnOf_lists h
    rw [State.lists, ← hcmd] at hl
    exact hl
  · simp only [decide_eq_false_iff_not, not_not]
    exact ⟨fun hzero => ⟨hclamp hzero, hzero⟩, And.right⟩

theorem setFreqPlan_local (h : s.turnOf opFREQ seq c) (h1 : c.arg 1 ≠ 1) (hn : c.arg 0 ≤ s.freeOrders) :
    (s.runsRow freqPlanRow c).endedOk c false (resOne 32 1 (c.arg 0)) ∧
      (∀ k, s.orderAt k ≠ none → (s.runsRow freqPlanRow c).orderAt k = s.orderAt k) ∧
      ∀ i < c.arg 0, ∃ (k : Nat) (o : Order),
        (s.runsRow freqPlanRow c).orderAt k = some o ∧ s.isLocalStep c i o := by
  obtain ⟨hfilled, -, -, hcmd⟩ := storePlan_fills (s.begunCmd c.seq) c.started (c.arg 0) hn
  rw [State.runsRow, freqPlanRow_local (b := s.begunCmd c.seq) (d := c.started) h1 hn]
  exact ⟨started_endedOk h (congrArg CmdRegs.accepted hcmd) _, hfilled.kept, hfilled.has⟩

/-! ### SCHEDULE_SLACK (R406) -/

theorem scheduleSlack_stored (h : s.turnOf opSLACK seq c) (h0 : c.arg 0 ≠ 0) (h1 : c.arg 1 ≠ 1) {k : Nat}
    (hk : s.freeOrder = some k) :
    (s.runsRow slackRow c).endedOk c (!c.hasMark) (resOne 32 8 (s.ownMark c).toNat) ∧
      ∃ o : Order, (s.runsRow slackRow c).orderAt k = some o ∧ o.typ = otSLACK ∧ o.target = s.tide.addr ∧
        o.mark = s.ownMark c ∧ o.arg.toNat = c.arg 0 := by
  have hstore := storeOrder_eq_some (s := s.begunCmd c.seq) hk otSLACK (s.ownMark c) (w64 (c.arg 0))
  rw [State.runsRow, slackRow_stored (b := s.begunCmd c.seq) (d := c.started) h0 h1 hstore]
  have harg := arg_length_slack h.2.2
  exact ⟨clamped_endedOk h rfl (by decide) _ _, _,
    (orderAt_setOrder _ k k _).trans (if_pos ⟨rfl, (freeOrder_some hk).1⟩), rfl, rfl, rfl,
    Nat.mod_eq_of_lt (by omega)⟩

/-- The mark that a window on the line gets: the one asked for, or the earliest (R50). -/
theorem lineAsk_used (s : State) (c : Cmd) :
    (if (s.lineAsk c).toNat < s.earliestMark.toNat then s.earliestMark else s.lineAsk c) =
      if c.hasMark = true ∧ s.earliestMark.toNat ≤ c.mark.toNat then c.mark else s.earliestMark := by
  cases hmark : c.hasMark
  · simp [State.lineAsk, hmark]
  · simp only [State.lineAsk, hmark, if_true, true_and, ← Nat.not_lt, ite_not]

theorem lineAsk_moved (s : State) (c : Cmd) :
    (!c.hasMark || decide ((s.lineAsk c).toNat < s.earliestMark.toNat)) =
      !(c.hasMark && decide (s.earliestMark.toNat ≤ c.mark.toNat)) := by
  cases hmark : c.hasMark
  · rfl
  · simp only [State.lineAsk, hmark, if_true, ← Nat.not_lt, decide_not, Bool.not_true, Bool.false_or, Bool.true_and,
      Bool.not_not]

theorem scheduleSlack_placed (h : s.turnOf opSLACK seq c) (h0 : c.arg 0 ≠ 0) (h1 : c.arg 1 = 1)
    (hm : s.tide.role = rlMANAGER) (hf : 0 < s.freeLine) {m : W64}
    (hm' : m = if c.hasMark = true ∧ s.earliestMark.toNat ≤ c.mark.toNat then c.mark else s.earliestMark) :
    (s.runsRow slackRow c).endedOk c (!(c.hasMark && decide (s.earliestMark.toNat ≤ c.mark.toNat)))
        (resOne 32 8 m.toNat) ∧
      ∃ (k : Nat) (o : Order), (s.runsRow slackRow c).line.sending.getD k none = some o ∧ o.typ = otSLACK ∧
        o.target.toNat = c.arg 2 ∧ o.mark = m ∧ o.arg.toNat = c.arg 0 := by
  obtain ⟨k, o, placed, hk, htyp, htarget, harg, homark, hplace⟩ := placeOrder_of_free (s := s.begunCmd c.seq) hf
    otSLACK (BitVec.ofNat 8 (c.arg 2)) (s.lineAsk c) (w64 (c.arg 0))
  have hearly : (s.begunCmd c.seq).earliestMark = s.earliestMark := rfl
  rw [hearly] at homark hplace
  rw [State.runsRow, slackRow_placed (b := s.begunCmd c.seq) (d := c.started) h0 h1 hm hplace]
  rw [lineAsk_used, ← hm'] at homark
  refine ⟨?ends, k, o, (getD_set! _ k k _ _).trans (if_pos ⟨rfl, (Slots.firstFree_some hk).1⟩), htyp, ?_, homark, ?_⟩
  case ends =>
    have hused : (if decide ((s.lineAsk c).toNat < s.earliestMark.toNat) = true
        then s.earliestMark else s.lineAsk c) = m := by
      rw [hm', ← lineAsk_used]
      simp only [decide_eq_true_eq]
    rw [← lineAsk_moved, ← hused]
    refine endedOk_done (turnOf_lists h) (Cmd.clamped_same (Cmd.clamped_same c.started_same _ _) _ _) ?_ _
    rw [Cmd.clamped_clamp_eq_zero (by decide), Cmd.clamped_clamp_eq_zero (by decide), and_assoc,
      Bool.or_eq_false_iff]
    rfl
  · rw [htarget]
    exact Nat.mod_eq_of_lt (arg_target_slack h.2.2)
  · have hlen := arg_length_slack h.2.2
    rw [harg]
    exact Nat.mod_eq_of_lt (by omega)

/-! ### SET_TIDE_ROLE (R407) -/

theorem setTideRole_handover (h : s.turnOf opTIDEROLE seq c) (h1 : c.arg 1 = 1) (hm : s.tide.role = rlMANAGER)
    (hf : 0 < s.freeLine) : (s.runsRow roleRow c).waitsOn c ∧
      ∃ (k : Nat) (o : Order), (s.runsRow roleRow c).line.sending.getD k none = some o ∧ o.typ = otHANDOVER ∧
        o.target = 0xFF ∧ o.arg.toNat = c.arg 2 := by
  obtain ⟨k, o, placed, hk, htyp, htarget, harg, -, hplace⟩ := placeOrder_of_free (s := s.begunCmd c.seq) hf
    otHANDOVER 0xFF (s.lineAsk c) (w64 (c.arg 2))
  rw [State.runsRow, roleRow_handover (b := s.begunCmd c.seq) (d := c.started) h1 hm hplace]
  refine ⟨begun_waitsOn h rfl _ _, k, o, ?_, htyp, htarget, ?_⟩
  · exact (getD_set! _ k k _ _).trans (if_pos ⟨rfl, (Slots.firstFree_some hk).1⟩)
  · have hlt := arg_manager_tideRole h.2.2
    rw [harg]
    exact Nat.mod_eq_of_lt (by omega)

theorem setTideRole_resume (h : s.turnOf opTIDEROLE seq c) (h1 : c.arg 1 ≠ 1) (h0 : c.arg 0 = 2)
    (he : s.tide.eligible = true) (hi : s.lineIdle = true) : (s.runsRow roleRow c).waitsOn c ∧
      (s.runsRow roleRow c).line = { s.line with resume := some s.resumeCount } ∧
      (s.runsRow roleRow c).tide = s.tide := by
  have hok : ((s.begunCmd c.seq).tide.eligible && (s.begunCmd c.seq).lineIdle) = true :=
    Bool.and_eq_true_iff.mpr ⟨he, hi⟩
  rw [State.runsRow, roleRow_resume (b := s.begunCmd c.seq) (d := c.started) h1 h0 hok]
  exact ⟨waitsOn_congr rfl (begun_waitsOn h rfl 0 false), rfl, rfl⟩

theorem setTideRole_role (h : s.turnOf opTIDEROLE seq c) (h1 : c.arg 1 ≠ 1) (h0 : c.arg 0 < 2) :
    (s.runsRow roleRow c).tide.role.toNat = c.arg 0 ∧ (s.runsRow roleRow c).tide.count = s.tide.count ∧
      (s.runsRow roleRow c).endedOk c false (resOne 32 1 (c.arg 0)) := by
  have hrole : ((s.begunCmd c.seq).setRole (BitVec.ofNat 2 (c.arg 0))).tide.role.toNat = c.arg 0 := by
    rw [setRole_role]
    exact Nat.mod_eq_of_lt (by omega)
  rw [State.runsRow, roleRow_role (b := s.begunCmd c.seq) (d := c.started) h1 h0]
  refine ⟨hrole, setRole_count _ _, ?_⟩
  rw [show c.started.arg 0 = c.arg 0 from rfl, hrole]
  exact started_endedOk h (setRole_accepted _ _) _

/-! ### Tasks of a window (R408, R507) -/

/-- Where a task is attached depends on the tide unit alone. -/
theorem asked_of_tide {t u : State} {task : SlackTask} (htide : t.tide = s.tide) (h : t.asked u task seq) :
    s.asked u task seq := by
  have hwindow : t.nextWindow = s.nextWindow := by simp only [State.nextWindow, State.orderAt, htide]
  have hfree : t.freeOrder = s.freeOrder := by simp only [State.freeOrder, State.orderAt, htide]
  have hmark : t.earliestMark = s.earliestMark := by simp only [State.earliestMark, htide]
  rw [State.asked, hwindow, hfree, hmark] at h
  exact h

/-- A command that has begun asks for a task, and waits for it. -/
theorem asks_task {op : Nat} (h : s.turnOf op seq c) {t : State} (hcmd : t.cmd = (s.begunCmd c.seq).cmd)
    (htide : t.tide = s.tide) (task : SlackTask) :
    (t.askTask c.started task).waitsOn c ∧ s.asked (t.askTask c.started task) task seq := by
  have hfinished := turnOf_finished h
  refine ⟨waitsOn_askTask ?_ c.started_same rfl hfinished task, ?_⟩
  · rw [State.lists, hcmd]
    exact turnOf_lists h
  · have hasked := asked_attachTask (t.keepCmd c.started) (t.newTask task c.seq) (seq := c.seq)
      (List.mem_singleton.mpr rfl)
    rw [← h.2.1]
    exact asked_of_tide (t := t.keepCmd c.started) htide hasked

/-- SUBSTITUTE_COLUMN, CALIBRATE, HBM_RETRAIN and FW_ACTIVATE, when what each needs is there. -/
theorem substituteColumn_asks (h : s.turnOf opSUBST seq c)
    (hout : (s.chan (chnOf (c.arg 0))).regs.out0.toNat ≠ c.arg 1 ∧ (s.chan (chnOf (c.arg 0))).regs.out1.toNat ≠ c.arg 1) :
    (s.runsRow substituteRow c).waitsOn c ∧
      s.asked (s.runsRow substituteRow c) (.substitute (chnOf (c.arg 0)) (c.arg 1)) seq := by
  rw [State.runsRow, substituteRow_stands (b := s.begunCmd c.seq) (d := c.started) hout]
  exact asks_task h rfl rfl _

theorem fwActivate_asks (h : s.turnOf opACTIVATE seq c) (hs : s.sec.staged = true) :
    (s.runsRow activateRow c).waitsOn c ∧ s.asked (s.runsRow activateRow c) .firmware seq := by
  rw [State.runsRow, activateRow_staged (b := s.begunCmd c.seq) (d := c.started) hs]
  refine asks_task h ?_ ?_ .firmware <;> rfl

/-! ### FW_STAGE (R479, R480, R483) -/

/-- The slot that a staging writes, and the one that it keeps. -/
def State.otherSlot (s : State) (x : Sec) : FwSlot := if s.activeSlot then x.flashA else x.flashB
def State.keptSlot (s : State) (x : Sec) : FwSlot := if s.activeSlot then x.flashB else x.flashA

theorem staged_keptSlot (b : State) (slot : FwSlot) (good : Bool) (ver : W64) :
    b.keptSlot (b.staged slot good ver).sec = b.keptSlot b.sec := by
  cases hactive : b.activeSlot <;> simp [State.keptSlot, State.staged, hactive]

theorem staged_otherSlot (b : State) (slot : FwSlot) (good : Bool) (ver : W64) :
    b.otherSlot (b.staged slot good ver).sec = slot := by
  cases hactive : b.activeSlot <;> simp [State.otherSlot, State.staged, hactive]

/-- What a command of staging leaves in force: the active slot is kept. -/
theorem stageRow_keptSlot (b : State) (d : Cmd) : b.keptSlot (stageRow b d).sec = b.keptSlot b.sec := by
  by_cases h0 : b.stageLen d = 0
  · rw [stageRow_none h0]
    rfl
  · by_cases hgood : b.fwCheck (b.stageBytes d) = 0
    · rw [stageRow_good h0 hgood]
      exact staged_keptSlot b _ _ _
    · rw [stageRow_bad h0 hgood]
      exact staged_keptSlot b _ _ _

theorem fwStage_none (h : s.turnOf opSTAGE seq c) (h0 : s.stageLen c = 0) :
    (s.runsRow stageRow c).endedOk c (decide (s.stageLen c < c.arg 1)) resNone ∧
      { s.runsRow stageRow c with cmd := s.cmd } = s := by
  rw [State.runsRow, stageRow_none (b := s.begunCmd c.seq) (d := c.started) h0]
  exact ⟨clamped_endedOk h rfl (by decide) _ _, rfl⟩

theorem fwStage_good (h : s.turnOf opSTAGE seq c) (h0 : s.stageLen c ≠ 0) (hgood : s.fwCheck (s.stageBytes c) = 0) :
    (s.runsRow stageRow c).endedOk c (decide (s.stageLen c < c.arg 1))
        (resSet (resOne 32 8 (fwVersion (s.stageBytes c)).toNat) 40 8
          ((fwMeasure (s.stageBytes c) 2).toNat % 2 ^ 64)) ∧
      (s.otherSlot (s.runsRow stageRow c).sec).bytes = s.stageBytes c ∧
      (s.runsRow stageRow c).sec.staged = true := by
  rw [State.runsRow, stageRow_good (b := s.begunCmd c.seq) (d := c.started) h0 hgood]
  exact ⟨clamped_endedOk h rfl (by decide) _ _,
    congrArg FwSlot.bytes (staged_otherSlot (s.begunCmd c.seq) _ _ _), rfl⟩

theorem fwStage_bad (h : s.turnOf opSTAGE seq c) (h0 : s.stageLen c ≠ 0) (hbad : s.fwCheck (s.stageBytes c) ≠ 0) :
    (s.runsRow stageRow c).ended c stAUTH 0 resNone ∧
      (s.otherSlot (s.runsRow stageRow c).sec).bytes = [] ∧ (s.runsRow stageRow c).sec.staged = false := by
  rw [State.runsRow, stageRow_bad (b := s.begunCmd c.seq) (d := c.started) h0 hbad]
  exact ⟨ended_finish (turnOf_lists h) (Cmd.clamped_same c.started_same _ _) _ _ _,
    congrArg FwSlot.bytes (staged_otherSlot (s.begunCmd c.seq) _ _ _), rfl⟩

end

/-! ### The obligation -/

section
variable {s : State} {op : Nat} {seq : W64} {c d : Cmd} {row : State → Cmd → State} {reason : Nat}

/-- A command that its row aborts leaves all but the command window as it was. -/
theorem runsRow_aborts (h : s.turnOf op seq c)
    (hrow : row (s.begunCmd c.seq) c.started = (s.begunCmd c.seq).abort d reason) (hd : d.same c) :
    (s.runsRow row c).ended c stABORTED reason resNone ∧ { s.runsRow row c with cmd := s.cmd } = s := by
  rw [State.runsRow, hrow]
  exact aborted_ended h hd reason

theorem runsRow_aborts_tide (h : s.turnOf op seq c)
    (hrow : row (s.begunCmd c.seq) c.started = (s.begunCmd c.seq).abort d reason) (hd : d.same c) :
    (s.runsRow row c).ended c stABORTED reason resNone ∧ (s.runsRow row c).tide = s.tide :=
  ⟨(runsRow_aborts h hrow hd).1, (congrArg State.tide (runsRow_aborts h hrow hd).2 :)⟩

theorem runsRow_aborts_line (h : s.turnOf op seq c)
    (hrow : row (s.begunCmd c.seq) c.started = (s.begunCmd c.seq).abort d reason) (hd : d.same c) :
    (s.runsRow row c).ended c stABORTED reason resNone ∧ (s.runsRow row c).line = s.line :=
  ⟨(runsRow_aborts h hrow hd).1, (congrArg State.line (runsRow_aborts h hrow hd).2 :)⟩

end

/-- Settles O50: the rows of the time and service commands have one equation per case, above. -/
theorem timeCommands : Obligations.TimeCommands := by
  refine fun s seq c => ⟨fun h => ?freq, fun h h0 h1 => ?slack, fun h h0 => ?slackNone, fun h h0 h1 => ?slackLine,
    fun h => ?role, fun i op task can reason hi h => ?tasks, fun h => ?stage⟩
  case freq =>
    refine ⟨_, exec_row rfl h, fun h0 => ?_, fun h0 h1 hm => ?_, fun h1 hm hf => ?_,
      fun h0 h1 hm hf => ?_, fun h1 hf => ?_, fun h1 hf => ?_⟩
    · rw [State.runsRow, freqPlanRow_none (d := c.started) h0]
      exact ⟨started_endedOk h rfl _, rfl⟩
    · exact runsRow_aborts h (freqPlanRow_notManager h0 h1 hm) c.started_same
    · exact runsRow_aborts_line h (freqPlanRow_lineFull h1 hm hf) c.started_same
    · obtain ⟨hended, hplaced⟩ := setFreqPlan_line h h0 h1 hm hf
      refine ⟨hended, fun i hi => ?_⟩
      obtain ⟨k, o, hk, htyp, htarget, harg, hmark⟩ := hplaced i hi
      refine ⟨k, o, hk, htyp, ?_, harg, hmark⟩
      rw [htarget]
      exact Nat.mod_eq_of_lt (arg_target_freqPlan h.2.2)
    · exact runsRow_aborts_tide h (freqPlanRow_full h1 hf) c.started_same
    · exact setFreqPlan_local h h1 hf
  case slack =>
    refine ⟨_, exec_row rfl h, fun hf => ?_, fun k hk => ?_⟩
    · exact runsRow_aborts_tide h (slackRow_full h0 h1 hf) (Cmd.clamped_same c.started_same _ _)
    · obtain ⟨hended, hstored⟩ := scheduleSlack_stored h h0 h1 hk
      exact ⟨hended, hstored⟩
  case slackNone =>
    refine ⟨_, exec_row rfl h, ?_⟩
    rw [State.runsRow, slackRow_none (d := c.started) h0]
    exact ⟨clamped_endedOk h rfl (by decide) _ _, rfl⟩
  case slackLine =>
    refine ⟨_, exec_row rfl h, fun hm => ?_, fun hm hf => ?_, fun hm hf => scheduleSlack_placed h h0 h1 hm hf rfl⟩
    · exact runsRow_aborts h (slackRow_notManager h0 h1 hm) (Cmd.clamped_same c.started_same _ _)
    · exact runsRow_aborts_line h (slackRow_lineFull h0 h1 hm hf) (Cmd.clamped_same c.started_same _ _)
  case role =>
    refine ⟨_, exec_row rfl h, fun h1 hm => ?_, fun h1 hm hf => setTideRole_handover h h1 hm hf, fun h1 hm hf => ?_,
      fun h1 h0 he hi => setTideRole_resume h h1 h0 he hi, fun h1 h0 hno => ?_,
      fun h1 h0 => setTideRole_role h h1 h0⟩
    · exact runsRow_aborts h (roleRow_notManager h1 hm) c.started_same
    · exact runsRow_aborts_line h (roleRow_lineFull h1 hm hf) c.started_same
    · have hnot : (s.tide.eligible && s.lineIdle) = false := Bool.and_eq_false_iff.mpr hno
      exact runsRow_aborts_tide h (roleRow_notEligible h1 h0 hnot) c.started_same
  case tasks =>
    simp only [List.mem_cons, List.not_mem_nil, or_false, Prod.mk.injEq] at hi
    obtain ⟨rfl, rfl, rfl, rfl, rfl⟩ | ⟨rfl, rfl, rfl, rfl, rfl⟩ | ⟨rfl, rfl, rfl, rfl, rfl⟩ |
      ⟨rfl, rfl, rfl, rfl, rfl⟩ := hi
    · refine ⟨_, exec_row rfl h, fun hcan => ?_, fun hcan => ?_⟩
      · exact substituteColumn_asks h (of_decide_eq_true hcan)
      · exact runsRow_aborts h (substituteRow_out (of_decide_eq_false hcan)) c.started_same
    · exact ⟨_, exec_row (row := calibrateRow) rfl h, fun _ => asks_task h rfl rfl _, fun hno => nomatch hno⟩
    · exact ⟨_, exec_row (row := retrainRow) rfl h, fun _ => asks_task h rfl rfl _, fun hno => nomatch hno⟩
    · refine ⟨_, exec_row rfl h, fun hcan => fwActivate_asks h hcan, fun hcan => ?_⟩
      exact runsRow_aborts h (activateRow_nothing hcan) c.started_same
  case stage =>
    refine ⟨_, exec_row rfl h, stageRow_keptSlot (s.begunCmd c.seq) c.started, fun h0 => fwStage_none h h0,
      fun h0 hgood => fwStage_good h h0 hgood, fun h0 hbad => fwStage_bad h h0 hbad⟩

end Sys2Proof.Machine
end

section
/-! PROOFS. What storing orders and attaching tasks leaves as it was (R507), and where a task is found
once firmware has asked for it. -/
namespace Sys2Proof.Machine

/-- At most the stored orders, the next identifier and the lists of tasks have changed. -/
structure sameButOrders (s t : State) : Prop where
  same : { t with
    tide := { t.tide with orders := s.tide.orders }
    line := { t.line with nextId := s.line.nextId }
    svc := { t.svc with tasks := s.svc.tasks, listed := s.svc.listed } } = s

section
variable {s t u : State}

theorem sameButOrders_refl (s : State) : sameButOrders s s := ⟨rfl⟩

theorem sameButOrders_trans (h : sameButOrders s t) (h' : sameButOrders t u) : sameButOrders s u :=
  ⟨(congrArg (fun x : State => ({ x with
    tide := { x.tide with orders := s.tide.orders }
    line := { x.line with nextId := s.line.nextId }
    svc := { x.svc with tasks := s.svc.tasks, listed := s.svc.listed } } : State)) h'.same).trans h.same⟩

theorem sameButOrders.four (h : sameButOrders s t) : t.four = s.four := (congrArg State.four h.same :)
theorem sameButOrders.chans (h : sameButOrders s t) : t.chans = s.chans := (congrArg State.chans h.same :)
theorem sameButOrders.pwr (h : sameButOrders s t) : t.pwr = s.pwr := (congrArg State.pwr h.same :)
theorem sameButOrders.ev (h : sameButOrders s t) : t.ev = s.ev := (congrArg State.ev h.same :)
theorem sameButOrders.recov (h : sameButOrders s t) : t.recov = s.recov := (congrArg State.recov h.same :)

/-- Of the tide unit, the orders alone may have changed. -/
theorem sameButOrders.tide (h : sameButOrders s t) : t.tide = { s.tide with orders := t.tide.orders } :=
  (congrArg (fun x : State => ({ x.tide with orders := t.tide.orders } : Tide)) h.same :)

/-- Of the line, the next identifier alone may have changed. -/
theorem sameButOrders.line (h : sameButOrders s t) : t.line = { s.line with nextId := t.line.nextId } :=
  (congrArg (fun x : State => ({ x.line with nextId := t.line.nextId } : TideLine)) h.same :)

/-- Of the service unit, the lists of tasks alone may have changed. -/
theorem sameButOrders.svc (h : sameButOrders s t) :
    t.svc = { s.svc with tasks := t.svc.tasks, listed := t.svc.listed } :=
  (congrArg (fun x : State => ({ x.svc with tasks := t.svc.tasks, listed := t.svc.listed } : Service)) h.same :)

theorem sameButOrders_setOrder (s : State) (n : Nat) (o : Option Order) : sameButOrders s (s.setOrder n o) := ⟨rfl⟩

theorem sameButOrders_svc (s : State) (tasks listed : List Task) :
    sameButOrders s { s with svc := { s.svc with tasks := tasks, listed := listed } } := ⟨rfl⟩

theorem sameButOrders_storeOrder {typ : Byte} {mark arg : W64} (h : s.storeOrder typ mark arg = some t) :
    sameButOrders s t := by
  obtain ⟨k, o, -, -, -, -, -, rfl⟩ := storeOrder_stores h
  exact ⟨rfl⟩

theorem sameButOrders_attachAt (s : State) (k : Task) (mark : W64) : sameButOrders s (s.attachAt k mark) := by
  unfold State.attachAt
  split
  · rename_i t h
    exact sameButOrders_trans (sameButOrders_storeOrder h) (sameButOrders_svc t _ _)
  · exact sameButOrders_svc s _ _

theorem sameButOrders_attachTask (s : State) (k : Task) : sameButOrders s (s.attachTask k) := by
  unfold State.attachTask
  split
  · exact sameButOrders_svc s _ _
  · exact sameButOrders_attachAt s k _

theorem sameButOrders_releaseListed (s : State) : sameButOrders s s.releaseListed := by
  unfold State.releaseListed
  split
  · exact sameButOrders_refl s
  · split
    · rename_i t h
      exact sameButOrders_trans (sameButOrders_storeOrder h) (sameButOrders_svc t _ _)
    · exact sameButOrders_refl s

theorem sameButOrders_freeSlot (s : State) (n : Nat) : sameButOrders s (s.freeSlot n) :=
  sameButOrders_trans (sameButOrders_setOrder s n none) (sameButOrders_releaseListed _)

theorem sameButOrders_hurry (s : State) (k : SlackTask) (m : W64) : sameButOrders s (s.hurry k m) := by
  unfold State.hurry
  simp only
  split
  · split
    · rename_i t h
      exact sameButOrders_trans (sameButOrders_storeOrder h) (sameButOrders_svc t _ _)
    · exact sameButOrders_refl s
  · exact sameButOrders_refl s

/-- A task of firmware's own is journalled, and then attached. -/
theorem ownTask_journals (s : State) (k : SlackTask) (at_ : Option W64) : ∃ t, sameButJournal s t ∧
    ∃ u : Task, u.task = k ∧ (s.ownTask k at_ = t.attachTask u ∨ ∃ m, s.ownTask k at_ = t.attachAt u m) := by
  have hjournal := sameButJournal_ownCmd s (taskOpcode k) 0 0 0 s.tide.count.toNat (2 ^ 64 - 1)
  unfold State.ownTask
  generalize s.ownCmd (taskOpcode k) 0 0 0 s.tide.count.toNat (2 ^ 64 - 1) = t at hjournal ⊢
  refine ⟨t, hjournal, t.newTask k 0, rfl, ?_⟩
  cases at_ with
  | none => exact Or.inl rfl
  | some m => exact Or.inr ⟨m, rfl⟩

theorem ownTask_sameBut (s : State) (k : SlackTask) (at_ : Option W64) :
    ∃ t, sameButJournal s t ∧ sameButOrders t (s.ownTask k at_) := by
  obtain ⟨t, ht, u, -, h | ⟨m, h⟩⟩ := ownTask_journals s k at_
  · exact ⟨t, ht, h ▸ sameButOrders_attachTask t u⟩
  · exact ⟨t, ht, h ▸ sameButOrders_attachAt t u m⟩

end

/-! ### A task that has been asked for -/

section
variable {s : State} {k : SlackTask}

theorem hasTask_of_tasks {u : Task} (h : u ∈ s.svc.tasks) (hu : u.task = k) : s.hasTask k = true := by
  rw [State.hasTask, Bool.or_eq_true_iff]
  exact Or.inl (List.any_eq_true.mpr ⟨u, h, decide_eq_true hu⟩)

theorem hasTask_of_listed {u : Task} (h : u ∈ s.svc.listed) (hu : u.task = k) : s.hasTask k = true := by
  rw [State.hasTask, Bool.or_eq_true_iff]
  exact Or.inr (List.any_eq_true.mpr ⟨u, h, decide_eq_true hu⟩)

theorem hasTask_iff : s.hasTask k = true ↔ ∃ u, (u ∈ s.svc.tasks ∨ u ∈ s.svc.listed) ∧ u.task = k := by
  simp only [State.hasTask, Bool.or_eq_true, List.any_eq_true, decide_eq_true_eq]
  constructor
  · rintro (⟨u, hu, hk⟩ | ⟨u, hu, hk⟩)
    · exact ⟨u, Or.inl hu, hk⟩
    · exact ⟨u, Or.inr hu, hk⟩
  · rintro ⟨u, hu | hu, hk⟩
    · exact Or.inl ⟨u, hu, hk⟩
    · exact Or.inr ⟨u, hu, hk⟩

theorem hasTask_attachAt (s : State) (u : Task) (mark : W64) : (s.attachAt u mark).hasTask u.task = true := by
  by_cases hf : s.freeOrder = none
  · obtain ⟨v, hv, hk, -⟩ := mem_listTask s.svc.listed u
    exact hasTask_of_listed (attachAt_full hf ▸ hv) hk
  · exact hasTask_of_tasks (attachAt_free hf) rfl

theorem hasTask_attachTask (s : State) (u : Task) : (s.attachTask u).hasTask u.task = true := by
  unfold State.attachTask
  split
  · exact hasTask_of_tasks (List.mem_append_right _ (List.mem_singleton.mpr rfl)) rfl
  · exact hasTask_attachAt s u _

theorem hasTask_ownTask (s : State) (k : SlackTask) (at_ : Option W64) : (s.ownTask k at_).hasTask k = true := by
  obtain ⟨t, -, u, rfl, h | ⟨m, h⟩⟩ := ownTask_journals s k at_
  · exact h ▸ hasTask_attachTask t u
  · exact h ▸ hasTask_attachAt t u m

theorem storeOrder_svc {t : State} {typ : Byte} {mark arg : W64} (h : s.storeOrder typ mark arg = some t) :
    t.svc = s.svc := by
  obtain ⟨n, o, -, -, -, -, -, rfl⟩ := storeOrder_stores h
  rfl

/-- A task that is moved to an earlier window is still there. -/
theorem hasTask_hurry (m : W64) (h : s.hasTask k = true) : (s.hurry k m).hasTask k = true := by
  unfold State.hurry
  simp only
  split
  · split
    · rename_i t ht
      rw [hasTask_iff, ← storeOrder_svc ht] at h
      obtain ⟨u, hu | hu, hk⟩ := h
      · refine hasTask_of_tasks (List.mem_append_left _ (List.mem_map_of_mem hu)) ?_
        split <;> exact hk
      · refine hasTask_of_tasks (u := { u with mark := m }) (List.mem_append_right _ (List.mem_map.mpr ⟨u, ?_, rfl⟩)) hk
        exact List.mem_filter.mpr ⟨hu, decide_eq_true hk⟩
    · exact h
  · exact h

end

end Sys2Proof.Machine
end

section
/-! PROOFS. O56: stretching, temperatures, ceilings, drift, the rail and switched-off channels. -/
namespace Sys2Proof.Machine

/-! ### Stretching (R462 to R464) -/

/-- The detectors that fire in powered regions. -/
def Power.fires (p : Power) (f : BitVec 37) (r : Nat) : Bool := bitAt f r && bitAt p.domains (regionDomain r)

/-- The regions whose detectors fire, as a register shows them. -/
def Power.live (p : Power) (f : BitVec 37) : BitVec 37 :=
  (List.range 37).foldl (fun m r => if p.fires f r then setBit m r true else m) 0

/-- A word gathered from bits has those of the numbers gathered and those it began with. -/
theorem bitAt_foldl_setBit {w : Nat} (q : Nat → Bool) (l : List Nat) (m : BitVec w) (j : Nat) (hj : j < w) :
    bitAt (l.foldl (fun m r => if q r then setBit m r true else m) m) j = (bitAt m j || (q j && decide (j ∈ l))) := by
  induction l generalizing m with
  | nil => simp
  | cons r l ih =>
    rw [List.foldl_cons, ih]
    by_cases hrj : r = j
    · subst hrj
      cases q r <;> simp [bitAt_setBit, hj]
    · have hbit : bitAt (if q r then setBit m r true else m) j = bitAt m j := by
        split
        · simp [bitAt_setBit, hrj]
        · rfl
      simp [hbit, Ne.symm hrj]

theorem bitAt_live (p : Power) (f : BitVec 37) {r : Nat} (hr : r < 37) : bitAt (p.live f) r = p.fires f r := by
  rw [Power.live, bitAt_foldl_setBit _ _ _ _ hr]
  simp [bitAt, hr]

theorem live_eq_zero_iff (p : Power) (f : BitVec 37) : p.live f = 0 ↔ ∀ r < 37, p.fires f r = false := by
  constructor
  · intro h r hr
    rw [← bitAt_live p f hr, h]
    simp [bitAt]
  · intro h
    refine BitVec.eq_of_getLsbD_eq fun r hr => ?_
    rw [show (p.live f).getLsbD r = p.fires f r from bitAt_live p f hr, h r hr]
    simp

theorem droop_k_fires {p : Power} {f : BitVec 37} (h : ∃ r < 37, p.fires f r = true) :
    (p.droop f).k = min p.kmaxUsed (p.k + 2) := by
  have hlive : p.live f ≠ 0 := by
    obtain ⟨r, hr, hfires⟩ := h
    exact fun h0 => absurd hfires (by simp [(live_eq_zero_iff p f).mp h0 r hr])
  exact if_pos hlive

theorem droop_k_rests {p : Power} {f : BitVec 37} (h : ∀ r < 37, p.fires f r = false) :
    (p.droop f).k = p.k - 1 := if_neg (not_not_intro ((live_eq_zero_iff p f).mpr h))

theorem droop_src (p : Power) (f : BitVec 37) {r : Nat} (hr : r < 37) :
    bitAt (p.droop f).droopSrc r = (bitAt p.droopSrc r || p.fires f r) := by
  rw [← bitAt_live p f hr]
  exact BitVec.getLsbD_or ..

/-! ### Temperatures (R468) -/

theorem toInt_maxT (a b : W16) : (maxT a b).toInt = max a.toInt b.toInt := by
  unfold maxT
  split <;> omega

/-- The hottest of the readings of the sensors `lo + i` that the part has, and of a start value. -/
def State.hotOver (s : State) (ts : Vector W16 54) (lo : Nat) (l : List Nat) (m : W16) : W16 :=
  l.foldl (fun m i => if s.hasSensor (lo + i) then maxT m (ts.getD (lo + i) 0) else m) m

theorem le_hotOver (s : State) (ts : Vector W16 54) (lo : Nat) (l : List Nat) (m : W16) :
    m.toInt ≤ (s.hotOver ts lo l m).toInt ∧
      ∀ i ∈ l, s.hasSensor (lo + i) = true → (ts.getD (lo + i) 0).toInt ≤ (s.hotOver ts lo l m).toInt := by
  induction l generalizing m with
  | nil => exact ⟨Int.le_refl _, fun i hi => nomatch hi⟩
  | cons j l ih =>
    obtain ⟨hstart, hread⟩ := ih (if s.hasSensor (lo + j) then maxT m (ts.getD (lo + j) 0) else m)
    refine ⟨Int.le_trans ?_ hstart, fun i hi hs => ?_⟩
    · split
      · rw [toInt_maxT]
        exact Int.le_max_left _ _
      · exact Int.le_refl _
    · rcases List.mem_cons.mp hi with rfl | hi
      · rw [if_pos hs, toInt_maxT] at hstart
        have hrec : s.hotOver ts lo (i :: l) m = s.hotOver ts lo l (maxT m (ts.getD (lo + i) 0)) := by
          rw [State.hotOver, List.foldl_cons, if_pos hs, State.hotOver]
        exact hrec ▸ Int.le_trans (Int.le_max_right _ _) hstart
      · exact hread i hi hs

/-- The readings that are kept: absent sensors read 0. -/
def State.readings (s : State) (temps : List W16) : Vector W16 54 :=
  Vector.ofFn fun i => if s.hasSensor i.val then temps.getD i.val 0 else 0

theorem readings_getD (s : State) (temps : List W16) {i : Nat} (hi : i < 54) :
    (s.readings temps).getD i 0 = if s.hasSensor i then temps.getD i 0 else 0 := by
  simp [State.readings, Vector.getD, hi]

theorem readSensors_hotC (s : State) (temps : List W16) :
    (s.readSensors temps).pwr.hotC = s.hotOver (s.readings temps) 0 (List.range 37) s.pwr.hotC := rfl
theorem readSensors_hotS (s : State) (temps : List W16) :
    (s.readSensors temps).pwr.hotS = s.hotOver (s.readings temps) 37 (List.range 16) s.pwr.hotS := rfl

theorem le_hotOver_reading (s : State) (temps : List W16) {lo n i : Nat} (m : W16) (hlo : lo ≤ i) (hi : i < lo + n)
    (h54 : lo + n ≤ 54) (hs : s.hasSensor i = true) :
    (temps.getD i 0).toInt ≤ (s.hotOver (s.readings temps) lo (List.range n) m).toInt := by
  have hsum : lo + (i - lo) = i := by omega
  have hread := (le_hotOver s (s.readings temps) lo (List.range n) m).2 (i - lo)
    (List.mem_range.mpr (by omega)) (by rw [hsum]; exact hs)
  rwa [hsum, readings_getD s temps (by omega), if_pos hs] at hread

/-! ### Ceilings (R469) -/

theorem toNat_lower5 (x : BitVec 5) (n : Nat) : (lower5 x n).toNat = x.toNat - n :=
  Nat.mod_eq_of_lt (by omega)

theorem toNat_raise5 (x : BitVec 5) : (raise5 x).toNat = min 16 (x.toNat + 1) :=
  Nat.mod_eq_of_lt (by omega)

section
variable (p : Power)

/-- The thermal ceiling is moved, its intervals counted and its readings begun anew; the rest stays. -/
theorem thermal_keeps : { p.thermal with
    tceil := p.tceil, tdown := p.tdown, coolRun := p.coolRun, hotC := p.hotC, hotS := p.hotS } = p := by
  unfold Power.thermal
  simp only
  split
  · rfl
  · split
    · rfl
    · split
      · split <;> rfl
      · rfl

@[simp] theorem thermal_pceil : p.thermal.pceil = p.pceil := (congrArg Power.pceil (thermal_keeps p) :)
@[simp] theorem thermal_capRun : p.thermal.capRun = p.capRun := (congrArg Power.capRun (thermal_keeps p) :)
@[simp] theorem thermal_capUsed : p.thermal.capUsed = p.capUsed := (congrArg Power.capUsed (thermal_keeps p) :)
@[simp] theorem thermal_headroom : p.thermal.headroom = p.headroom := (congrArg Power.headroom (thermal_keeps p) :)
@[simp] theorem thermal_peak : p.thermal.peak = p.peak := (congrArg Power.peak (thermal_keeps p) :)

theorem capping_keeps (mean : Nat) : { p.capping mean with pceil := p.pceil, pdown := p.pdown, capRun := p.capRun } = p := by
  unfold Power.capping
  split
  · rfl
  · split
    · split <;> rfl
    · rfl

@[simp] theorem capping_tceil (mean : Nat) : (p.capping mean).tceil = p.tceil :=
  (congrArg Power.tceil (capping_keeps p mean) :)
@[simp] theorem capping_peak (mean : Nat) : (p.capping mean).peak = p.peak :=
  (congrArg Power.peak (capping_keeps p mean) :)

end

section
variable {p : Power} {mean : Nat}

theorem thermal_tceil_hot (h : p.tLimit + 80 ≤ p.hotC.toInt) : p.thermal.tceil = lower5 p.tceil 2 := by
  have hthermal : p.thermal = _ := if_pos h
  rw [hthermal]

theorem thermal_tceil_warm (h : p.hotC.toInt < p.tLimit + 80)
    (hwarm : p.tLimit ≤ p.hotC.toInt ∨ p.sLimit ≤ p.hotS.toInt) : p.thermal.tceil = lower5 p.tceil 1 := by
  have hwarm : (decide (p.tLimit ≤ p.hotC.toInt) || decide (p.sLimit ≤ p.hotS.toInt)) = true := by simpa using hwarm
  have hthermal : p.thermal = _ := (if_neg (Int.not_le.mpr h)).trans (if_pos hwarm)
  rw [hthermal]

/-- Below the hysteresis the ceiling rises once 16 intervals in a row have been cool. -/
theorem thermal_tceil_cool (hc : p.hotC.toInt < p.tLimit - p.hystUsed) (hs : p.hotS.toInt < p.sLimit - p.hystUsed) :
    p.thermal.tceil = if 15 ≤ p.coolRun then raise5 p.tceil else p.tceil := by
  have hhyst : 0 ≤ p.hystUsed := by unfold Power.hystUsed; omega
  have hhot : ¬p.tLimit + 80 ≤ p.hotC.toInt := by omega
  have hwarm : ¬(decide (p.tLimit ≤ p.hotC.toInt) || decide (p.sLimit ≤ p.hotS.toInt)) = true := by
    simp only [Bool.or_eq_true, decide_eq_true_eq]
    omega
  have hcool : (decide (p.hotC.toInt < p.tLimit - p.hystUsed) && decide (p.hotS.toInt < p.sLimit - p.hystUsed)) = true := by
    simp [hc, hs]
  have hthermal : p.thermal = _ := (if_neg hhot).trans ((if_neg hwarm).trans (if_pos hcool))
  rw [hthermal]
  split <;> rfl

theorem capping_over (h : p.capUsed * 1000 < mean) : (p.capping mean).pceil = lower5 p.pceil 1 := by
  rw [Power.capping, if_pos h]

theorem capping_near (h : mean ≤ p.capUsed * 1000) (hn : p.capUsed * 1000 < mean + p.headroom.toNat * 1000) :
    (p.capping mean).pceil = p.pceil ∧ (p.capping mean).capRun = 0 := by
  rw [Power.capping, if_neg (Nat.not_lt.mpr h), if_neg (Nat.not_le.mpr hn)]
  exact ⟨rfl, rfl⟩

theorem capping_below (h : mean + p.headroom.toNat * 1000 ≤ p.capUsed * 1000) :
    (p.capping mean).pceil = if 15 ≤ p.capRun then raise5 p.pceil else p.pceil := by
  rw [Power.capping, if_neg (by omega), if_pos h]
  split <;> rfl

end

/-- An evaluation at a multiple of 1,000 of the count that has had none. -/
theorem evaluate_acts {s : State} {mean : W32} (h0 : s.tide.count.toNat % 1000 = 0)
    (hat : s.pwr.evalAt ≠ some s.tide.count) : s.evaluate mean =
      { s with pwr := { s.pwr.thermal.capping mean.toNat with
        evalAt := some s.tide.count, avg := mean
        peak := if s.pwr.peak.toNat < mean.toNat then mean else s.pwr.peak } } := by
  rw [State.evaluate, if_pos (by simpa using ⟨h0, hat⟩)]
  simp only [capping_peak, thermal_peak]

theorem evaluate_waits {s : State} {mean : W32}
    (h : s.tide.count.toNat % 1000 ≠ 0 ∨ s.pwr.evalAt = some s.tide.count) : s.evaluate mean = s := by
  rw [State.evaluate, if_neg]
  simp only [Bool.and_eq_true, decide_eq_true_eq, not_and, not_not]
  exact fun h0 => h.resolve_left (not_not_intro h0)

/-! ### The rail (R465, R466) -/

section
variable {p : Power}

theorem toNat_wanted (p : Power) : (BitVec.ofNat 5 p.wanted).toNat = p.wanted := by
  refine Nat.mod_eq_of_lt (Nat.lt_of_le_of_lt (Nat.min_le_left _ _) p.planned.isLt)

/-- A step that needs no more than the rail gives comes into force. -/
theorem takeStep_step (h : p.wanted ≤ p.step.toNat ∨ railOf p.wanted ≤ p.railUv) :
    p.takeStep.step.toNat = p.wanted := by
  unfold Power.takeStep
  simp only
  split
  · exact toNat_wanted p
  · rename_i hrise
    rw [if_pos (h.resolve_left hrise)]
    exact toNat_wanted p

theorem takeStep_waits (h : p.step.toNat < p.wanted) (hr : p.railUv < railOf p.wanted) :
    p.takeStep = { p with stepDue := true } := by
  simp only [Power.takeStep, if_neg (Nat.not_le.mpr h), if_neg (Nat.not_le.mpr hr)]

theorem takeStep_rises (h : p.step.toNat < p.wanted) (hr : railOf p.wanted ≤ p.railUv) :
    p.takeStep = { p with
      step := BitVec.ofNat 5 p.wanted, stepDue := false
      stepLate := if p.stepDue then satInc p.stepLate else p.stepLate } := by
  simp only [Power.takeStep, if_neg (Nat.not_le.mpr h), if_pos hr]

end

theorem arriveRail_due {s : State} (h : s.pwr.stepDue = true) : s.arriveRail = s.takeStep := if_pos h

/-! ### Drift (R460) -/

@[simp] theorem region_setRegion (s : State) (r : Fin 37) (v : Region) : (s.setRegion r.val v).region r.val = v :=
  (getD_set! ..).trans (if_pos ⟨rfl, r.isLt⟩)

theorem region_of_pwr {s t : State} (h : t.pwr = s.pwr) (r : Nat) : t.region r = s.region r := by
  rw [State.region, h, State.region]

theorem ownTask_pwr (s : State) (k : SlackTask) (at_ : Option W64) : (s.ownTask k at_).pwr = s.pwr := by
  obtain ⟨t, hst, htu⟩ := ownTask_sameBut s k at_
  exact htu.pwr.trans hst.pwr

/-- The part after a drift: the region's margin is kept, and whether it is low. -/
def State.drifted (s : State) (r : Fin 37) (margin : Byte) : State :=
  s.setRegion r.val { s.region r.val with margin := margin, drift := decide (margin.toNat < s.pwr.warn.toNat) }

section
variable {s : State} {r : Fin 37} {m : Byte}

theorem drift_absent (h : s.hasRegion r.val = false) : s.drift r m = s := by simp [State.drift, h]

/-- Firmware asks for nothing, hurries the task that waits, or asks for one. -/
theorem drift_cases (h : s.hasRegion r.val = true) :
    s.drift r m = s.drifted r m ∧ (m.toNat < s.pwr.warn.toNat ∨ m.toNat < s.pwr.holdMargin.toNat →
        (s.drifted r m).hasTask (.calibrate r) = true) ∨
      m.toNat < s.pwr.holdMargin.toNat ∧ (s.drifted r m).hasTask (.calibrate r) = true ∧
        s.drift r m = (s.drifted r m).hurry (.calibrate r) ((s.drifted r m).tide.count + 1) ∨
      (m.toNat < s.pwr.warn.toNat ∨ m.toNat < s.pwr.holdMargin.toNat) ∧
        ∃ at_, s.drift r m = (s.drifted r m).ownTask (.calibrate r) at_ := by
  have hdrift : s.drift r m =
      if (s.drifted r m).hasTask (.calibrate r) then
        if decide (m.toNat < s.pwr.holdMargin.toNat) then
          (s.drifted r m).hurry (.calibrate r) ((s.drifted r m).tide.count + 1) else s.drifted r m
      else if decide (m.toNat < s.pwr.holdMargin.toNat) then
        (s.drifted r m).ownTask (.calibrate r) (some ((s.drifted r m).tide.count + 1))
      else if decide (m.toNat < s.pwr.warn.toNat) then (s.drifted r m).ownTask (.calibrate r) none
      else s.drifted r m := by
    rw [State.drift, h]
    rfl
  rw [hdrift]
  simp only [decide_eq_true_eq]
  split
  · rename_i htask
    split
    · rename_i hhold
      exact Or.inr (Or.inl ⟨hhold, htask, rfl⟩)
    · exact Or.inl ⟨rfl, fun _ => htask⟩
  · split
    · rename_i hhold
      exact Or.inr (Or.inr ⟨Or.inr hhold, _, rfl⟩)
    · rename_i hhold
      split
      · rename_i hwarn
        exact Or.inr (Or.inr ⟨Or.inl hwarn, _, rfl⟩)
      · rename_i hwarn
        exact Or.inl ⟨rfl, fun hlow => absurd hlow (not_or.mpr ⟨hwarn, hhold⟩)⟩

theorem drift_pwr (h : s.hasRegion r.val = true) : (s.drift r m).pwr = (s.drifted r m).pwr := by
  obtain ⟨heq, -⟩ | ⟨-, -, heq⟩ | ⟨-, at_, heq⟩ := drift_cases (m := m) h
  · rw [heq]
  · rw [heq]
    exact (sameButOrders_hurry _ _ _).pwr
  · rw [heq]
    exact ownTask_pwr _ _ _

theorem drift_asks (h : s.hasRegion r.val = true)
    (hlow : m.toNat < s.pwr.warn.toNat ∨ m.toNat < s.pwr.holdMargin.toNat) :
    (s.drift r m).hasTask (.calibrate r) = true := by
  obtain ⟨heq, htask⟩ | ⟨-, htask, heq⟩ | ⟨-, at_, heq⟩ := drift_cases (m := m) h
  · exact heq ▸ htask hlow
  · exact heq ▸ hasTask_hurry _ htask
  · exact heq ▸ hasTask_ownTask _ _ _

theorem drift_quiet (h : s.hasRegion r.val = true) (hw : s.pwr.warn.toNat ≤ m.toNat)
    (hh : s.pwr.holdMargin.toNat ≤ m.toNat) : s.drift r m = s.drifted r m := by
  obtain ⟨heq, -⟩ | ⟨hhold, -⟩ | ⟨hlow, -⟩ := drift_cases (m := m) h
  · exact heq
  · omega
  · omega

end

/-! ### Switched-off channels (R472, R473) -/

/-- What switching channel `c` off, now or when its window ends, makes of the part. -/
def State.switchOff (s : State) (mask : BitVec 4) (c : Chn) : State :=
  if !bitAt mask c.val then s
  else if (s.chan c).regs2.slackEntered then
    { s with pwr := { s.pwr with chOffDue := setBit s.pwr.chOffDue c.val true } }
  else s.chanOff c

theorem writeChOff_eq (s : State) (mask : BitVec 4) :
    s.writeChOff mask = s.channels.foldl (fun s c => s.switchOff mask c) s := rfl

/-- The channel as switching it off leaves it. -/
def Chan.off (ch : Chan) : Chan := { Chan.reset with
  gate := { Gate.reset with st := .retired }
  core := { Core.reset with evin := ch.core.evin }
  sq := ch.sq.map fun q => q.emptied 0
  regs := { ChRegs.reset with
    out0 := ch.regs.out0, out0Failed := ch.regs.out0Failed, out1 := ch.regs.out1
    out1Failed := ch.regs.out1Failed, substCount := ch.regs.substCount } }

/-- The domains with a channel's switched off, and the seam's as `seam` says. -/
def offDomains (m : BitVec 80) (c : Chn) (seam : Bool) : BitVec 80 :=
  setBit ((chanDomains c).foldl (fun m d => setBit m d false) m) 40 seam

/-- Switching off acts on a retired channel that is on, and on no other. -/
theorem chanOff_cases (s : State) (c : Chn) : s.chanOff c = s ∨
    (s.chan c).gate.st = .retired ∧ bitAt s.pwr.chOff c.val = false ∧ ∃ seam, s.chanOff c =
      { s.modChan c Chan.off with pwr := { s.pwr with
        chOff := setBit s.pwr.chOff c.val true, domains := offDomains s.pwr.domains c seam } } := by
  unfold State.chanOff
  simp only
  split
  · rename_i h
    simp only [Bool.and_eq_true, decide_eq_true_eq, Bool.not_eq_true'] at h
    exact Or.inr ⟨h.1, h.2, _, rfl⟩
  · exact Or.inl rfl

theorem chanOff_acts {s : State} {c : Chn} (h : (s.chan c).gate.st = .retired)
    (hon : bitAt s.pwr.chOff c.val = false) : ∃ seam, s.chanOff c =
      { s.modChan c Chan.off with pwr := { s.pwr with
        chOff := setBit s.pwr.chOff c.val true, domains := offDomains s.pwr.domains c seam } } := by
  rw [State.chanOff, if_pos (by simp [h, hon])]
  exact ⟨_, rfl⟩

theorem bitAt_foldl_clear {w : Nat} (l : List Nat) (m : BitVec w) {j : Nat} (hj : j < w) :
    bitAt (l.foldl (fun m d => setBit m d false) m) j = (bitAt m j && !decide (j ∈ l)) := by
  induction l generalizing m with
  | nil => simp
  | cons d l ih =>
    rw [List.foldl_cons, ih, bitAt_setBit]
    by_cases hdj : d = j
    · simp [hdj, hj]
    · simp [hdj, Ne.symm hdj]

theorem lt_of_mem_chanDomains {c : Chn} {d : Nat} (h : d ∈ chanDomains c) : d < 40 := by
  have hc := c.isLt
  simp only [chanDomains, List.mem_append, List.mem_map, List.mem_range, List.mem_cons, List.not_mem_nil,
    or_false] at h
  omega

theorem bitAt_offDomains {m : BitVec 80} {c : Chn} {seam : Bool} {d : Nat} (hd : d < 40) :
    bitAt (offDomains m c seam) d = (bitAt m d && !decide (d ∈ chanDomains c)) := by
  have h40 : ¬(40 = d ∧ d < 80) := by omega
  rw [offDomains, bitAt_setBit, if_neg h40, bitAt_foldl_clear _ _ (by omega)]

/-- A retired channel that is on, as it was in `s`. -/
def State.standsOn (s t : State) (c : Chn) : Prop := t.chan c = s.chan c ∧ bitAt t.pwr.chOff c.val = false

/-- The channel has been switched off, and its domains. -/
def State.isOff (s t : State) (c : Chn) : Prop :=
  t.chan c = (s.chan c).off ∧ bitAt t.pwr.chOff c.val = true ∧ ∀ d ∈ chanDomains c, bitAt t.pwr.domains d = false

/-- What switching another channel off leaves: this one, its bit, and domains that are off. -/
theorem switchOff_other (t : State) (mask : BitVec 4) {c d : Chn} (h : d ≠ c) :
    (t.switchOff mask d).chan c = t.chan c ∧ bitAt (t.switchOff mask d).pwr.chOff c.val = bitAt t.pwr.chOff c.val ∧
      ∀ x < 40, bitAt t.pwr.domains x = false → bitAt (t.switchOff mask d).pwr.domains x = false := by
  unfold State.switchOff
  split
  · exact ⟨rfl, rfl, fun _ _ hx => hx⟩
  · split
    · exact ⟨rfl, rfl, fun _ _ hx => hx⟩
    · obtain heq | ⟨-, -, seam, heq⟩ := chanOff_cases t d
      · exact heq.symm ▸ ⟨rfl, rfl, fun _ _ hx => hx⟩
      · rw [heq]
        refine ⟨State.chan_modChan_other _ _ _ _ (Ne.symm h), ?_, fun x hx hoff => ?_⟩
        · exact (bitAt_setBit ..).trans (if_neg fun heq => h (Fin.ext heq.1))
        · rw [bitAt_offDomains hx, hoff, Bool.false_and]

theorem switchOff_stays (t : State) {mask : BitVec 4} {c : Chn}
    (h : bitAt mask c.val = false ∨ (t.chan c).gate.st ≠ .retired) : (t.switchOff mask c).chan c = t.chan c := by
  unfold State.switchOff
  split
  · rfl
  · rename_i hmask
    split
    · rfl
    · obtain heq | ⟨hst, -⟩ := chanOff_cases t c
      · rw [heq]
      · exact absurd hst (h.resolve_left (by simpa using hmask))

theorem switchOff_acts {s t : State} {mask : BitVec 4} {c : Chn} (hmask : bitAt mask c.val = true)
    (hst : (s.chan c).gate.st = .retired) (hslack : (s.chan c).regs2.slackEntered = false) (h : s.standsOn t c) :
    s.isOff (t.switchOff mask c) c := by
  obtain ⟨hsame, hon⟩ := h
  obtain ⟨seam, heq⟩ := chanOff_acts (hsame ▸ hst) hon
  have hswitch : t.switchOff mask c = t.chanOff c := by
    simp [State.switchOff, hmask, hsame, hslack]
  rw [hswitch, heq]
  refine ⟨?_, (bitAt_setBit ..).trans (if_pos ⟨rfl, c.isLt⟩), fun d hd => ?_⟩
  · rw [← hsame]
    exact State.chan_modChan t c Chan.off
  · rw [bitAt_offDomains (lt_of_mem_chanDomains hd)]
    simp [hd]

theorem writeChOff_stays {s : State} {mask : BitVec 4} {c : Chn}
    (h : bitAt mask c.val = false ∨ (s.chan c).gate.st ≠ .retired) : (s.writeChOff mask).chan c = s.chan c := by
  rw [writeChOff_eq]
  refine List.foldlRecOn (motive := fun t : State => t.chan c = s.chan c) _ _ rfl fun t ht d _ => ?_
  by_cases hd : d = c
  · subst hd
    exact (switchOff_stays t (ht.symm ▸ h)).trans ht
  · exact (switchOff_other t mask hd).1.trans ht

theorem writeChOff_acts {s : State} {mask : BitVec 4} {c : Chn} (hc : c ∈ s.channels) (hmask : bitAt mask c.val = true)
    (hst : (s.chan c).gate.st = .retired) (hslack : (s.chan c).regs2.slackEntered = false)
    (hon : bitAt s.pwr.chOff c.val = false) : s.isOff (s.writeChOff mask) c := by
  rw [writeChOff_eq]
  refine foldl_reaches (P := fun t => s.standsOn t c) (Q := fun t => s.isOff t c) (nodup_channels s) hc
    (fun t d hd ht => ?_) (fun t ht => switchOff_acts hmask hst hslack ht) (fun t d hd ht => ?_) ⟨rfl, hon⟩
  · obtain ⟨hchan, hbit, -⟩ := switchOff_other t mask hd
    exact ⟨hchan.trans ht.1, hbit.trans ht.2⟩
  · obtain ⟨hchan, hbit, hdomains⟩ := switchOff_other t mask hd
    obtain ⟨hoff, hbitOff, hdomainsOff⟩ := ht
    exact ⟨hchan.trans hoff, hbit.trans hbitOff,
      fun x hx => hdomains x (lt_of_mem_chanDomains hx) (hdomainsOff x hx)⟩

/-! ### The obligation -/

/-- Settles O56: each part acts on its own registers, as the lemmas above say case by case. -/
theorem clocksAndPower : Obligations.ClocksAndPower := by
  refine ⟨fun s f => ?droop, fun s temps => ?sensors, fun s mean => ?ceilings, fun s => ?rail, fun s r m => ?drift,
    fun s mask => ?off⟩
  case droop =>
    exact ⟨_, rfl, rfl, fun h => droop_k_fires h, fun h => droop_k_rests h, rfl, fun r hr => droop_src s.pwr f hr, rfl⟩
  case sensors =>
    refine ⟨_, rfl, fun i hi => readings_getD s temps hi, ?_, ?_, fun i hi hs => ?_, fun i hlo hi hs => ?_⟩
    · exact (le_hotOver s (s.readings temps) 0 (List.range 37) s.pwr.hotC).1
    · exact (le_hotOver s (s.readings temps) 37 (List.range 16) s.pwr.hotS).1
    · exact le_hotOver_reading s temps (lo := 0) (n := 37) s.pwr.hotC (Nat.zero_le i) (by omega) (by omega) hs
    · exact le_hotOver_reading s temps (lo := 37) (n := 16) s.pwr.hotS hlo (by omega) (by omega) hs
  case ceilings =>
    refine ⟨fun h => congrArg Host.Outcome.next (evaluate_waits h), fun h0 hat => ?_⟩
    refine ⟨_, congrArg Host.Outcome.next (evaluate_acts h0 hat), rfl, ?_, rfl, fun h => ?_, fun h hw => ?_,
      fun hc hs hrun => ?_, fun hc hs hrun => ?_, fun h => ?_, fun h hn => ?_, fun h => ?_⟩
    · simp only
      split <;> omega
    · exact (congrArg BitVec.toNat ((capping_tceil ..).trans (thermal_tceil_hot h))).trans (toNat_lower5 _ 2)
    · exact (congrArg BitVec.toNat ((capping_tceil ..).trans (thermal_tceil_warm h hw))).trans (toNat_lower5 _ 1)
    · exact (capping_tceil ..).trans ((thermal_tceil_cool hc hs).trans (if_neg (Nat.not_le.mpr hrun)))
    · exact (congrArg BitVec.toNat ((capping_tceil ..).trans ((thermal_tceil_cool hc hs).trans (if_pos hrun)))).trans
        (toNat_raise5 _)
    · rw [show _ = _ from capping_over (p := s.pwr.thermal) (by simpa using h), toNat_lower5, thermal_pceil]
    · obtain ⟨hceil, hrun⟩ := capping_near (p := s.pwr.thermal) (mean := mean.toNat) (by simpa using h)
        (by simpa using hn)
      exact ⟨hceil.trans (thermal_pceil _), hrun⟩
    · rw [show _ = _ from capping_below (p := s.pwr.thermal) (by simpa using h), thermal_capRun, thermal_pceil]
      split
      · exact toNat_raise5 _
      · rfl
  case rail =>
    refine ⟨fun h => ?_, fun hdue hrise hrail => ?_, fun hdue hrise hrail => ?_⟩
    · exact congrArg Host.Outcome.next (if_neg (by simp [h]))
    · refine congrArg Host.Outcome.next ?_
      rw [arriveRail_due hdue, State.takeStep, takeStep_waits hrise hrail, ← hdue]
    · refine ⟨_, congrArg Host.Outcome.next (arriveRail_due hdue), takeStep_step (Or.inr hrail), ?_, ?_, rfl, rfl⟩
      · exact congrArg Power.stepDue (takeStep_rises hrise hrail)
      · exact (congrArg Power.stepLate (takeStep_rises hrise hrail)).trans (if_pos hdue)
  case drift =>
    refine ⟨fun h => congrArg Host.Outcome.next (drift_absent h), fun h => ⟨_, rfl, ?_, drift_asks h, fun hw hh => ?_⟩⟩
    · exact (region_of_pwr (drift_pwr h) r.val).trans (region_setRegion s r _)
    · rw [drift_quiet h hw hh]
      rfl
  case off =>
    refine ⟨_, rfl, fun c hc => ⟨writeChOff_stays, fun hmask hst hslack hon => ?_⟩⟩
    obtain ⟨hchan, hbit, hdomains⟩ := writeChOff_acts hc hmask hst hslack hon
    rw [hchan]
    exact ⟨hbit, hdomains, rfl, rfl, rfl, rfl⟩

end Sys2Proof.Machine
end

section
/-! PROOFS. What a slack window leaves as it was (R504 to R507): the window itself, the windows that
each channel has counted, and the state of every channel that does not stand in a gate. -/
namespace Sys2Proof.Machine

/-- The grade, and the open window with its end. -/
def State.span (s : State) : Bool × Option W64 × W64 × Bool :=
  (s.four, s.svc.openMark, s.svc.openEnd, s.svc.spanOver)

/-- The open window is what it was, no channel has counted a window, and the state of every channel but
those of `l` is what it was. -/
structure Calm (l : List Chn) (s t : State) : Prop where
  span : t.span = s.span
  windows : ∀ d, (t.chan d).regs2.slackWindows = (s.chan d).regs2.slackWindows
  st : ∀ d, d ∉ l → (t.chan d).gate.st = (s.chan d).gate.st

section
variable {l : List Chn} {s t u : State} {c : Chn} {f : Chan → Chan}

theorem Calm.refl (l : List Chn) (s : State) : Calm l s s := ⟨rfl, fun _ => rfl, fun _ _ => rfl⟩

theorem Calm.trans (h : Calm l s t) (h' : Calm l t u) : Calm l s u :=
  ⟨h'.span.trans h.span, fun d => (h'.windows d).trans (h.windows d),
    fun d hd => (h'.st d hd).trans (h.st d hd)⟩

theorem Calm.mono {k : List Chn} (hk : k ⊆ l) (h : Calm k s t) : Calm l s t :=
  ⟨h.span, h.windows, fun d hd => h.st d fun hdk => hd (hk hdk)⟩

theorem Calm.of_nil (h : Calm [] s t) : Calm l s t := h.mono (List.nil_subset l)

theorem Calm.then (h : Calm l s t) (h' : Calm [] t u) : Calm l s u := h.trans h'.of_nil

theorem Calm.foldl {α : Type} {f : State → α → State} (hf : ∀ s x, Calm l s (f s x)) (h : Calm l s t)
    (m : List α) : Calm l s (m.foldl f t) :=
  List.foldlRecOn (motive := Calm l s) m f h fun t ht x _ => ht.trans (hf t x)

/-- The change touches neither the channels nor the window. -/
theorem Calm.aside (h : Calm l s t) (hspan : u.span = t.span) (hchans : u.chans = t.chans) : Calm l s u :=
  h.trans ⟨hspan, fun d => by rw [State.chan, hchans, State.chan],
    fun d _ => by rw [State.chan, hchans, State.chan]⟩

theorem Calm.modChan (h : Calm l s t) (hw : ∀ ch, (f ch).regs2.slackWindows = ch.regs2.slackWindows)
    (hst : ∀ ch, (f ch).gate.st = ch.gate.st) : Calm l s (t.modChan c f) :=
  h.trans ⟨rfl, State.modChan_keeps (·.regs2.slackWindows) hw t c,
    fun d _ => State.modChan_keeps (·.gate.st) hst t c d⟩

theorem Calm.modChan_st (h : Calm l s t) (hc : c ∈ l)
    (hw : ∀ ch, (f ch).regs2.slackWindows = ch.regs2.slackWindows) : Calm l s (t.modChan c f) :=
  h.trans ⟨rfl, State.modChan_keeps (·.regs2.slackWindows) hw t c, fun d hd => by
    rw [State.chan_modChan_other _ _ _ _ (ne_of_mem_of_not_mem hc hd).symm]⟩

end

/-! ### Ports, counters and commands -/

section
variable {l : List Chn} {s t : State}

theorem Calm.modPort {i : Nat} {f : MsgPort → MsgPort} (h : Calm l s t) : Calm l s (t.modPort i f) := h.aside rfl rfl

theorem Calm.mapCmds {f : Cmd → Cmd} (h : Calm l s t) : Calm l s (t.mapCmds f) := h.aside rfl rfl

theorem Calm.raise {id : Nat} (h : Calm l s t) : Calm l s (t.raise id) := h.aside rfl rfl

theorem Calm.ledger {c : Chn} {code n : Nat} (h : Calm l s t) : Calm l s (t.ledger c code n) :=
  h.modChan (fun ch => congrArg (·.slackWindows) (Chan.ledgerAdd_regs2 ch code n))
    fun ch => congrArg Gate.st (Chan.ledgerAdd_gate ch code n)

theorem Calm.discHeld {i n : Nat} (h : Calm l s t) : Calm l s (t.discHeld i n) := by
  unfold State.discHeld
  split
  · exact h.ledger
  · exact h.modPort

theorem Calm.countDisc {i n : Nat} (h : Calm l s t) : Calm l s (t.countDisc i n) := by
  unfold State.countDisc
  split
  · exact h.ledger.ledger
  · exact h.modPort

theorem Calm.closePort {i : Nat} (h : Calm l s t) : Calm l s (t.closePort i) := by
  unfold State.closePort
  dsimp only
  split
  · exact h.discHeld.countDisc.modPort
  · exact h.discHeld.modPort

theorem Calm.endWait {e n : Nat} (h : Calm l s t) : Calm l s (t.endWait e n) := by
  unfold State.endWait
  split
  · exact Calm.modChan h (fun _ => rfl) fun _ => rfl
  · exact h.aside rfl rfl

theorem Calm.serve {w : SyncWait} (h : Calm l s t) : Calm l s (t.serve w) := by
  have hcount : Calm l s (t.setCount w.counter (BitVec.ofInt 32 ((t.count w.counter).toInt - w.n))) := h.aside rfl rfl
  unfold State.serve
  dsimp only
  split
  · refine Calm.endWait ?_
    exact hcount.ledger.ledger.aside rfl rfl
  · refine Calm.endWait ?_
    exact hcount.ledger.aside rfl rfl

theorem Calm.serveWaits {n : Nat} (h : Calm l s t) : Calm l s (t.serveWaits n) := by
  refine h.foldl (fun t w => ?_) _
  split
  · exact (Calm.refl l t).serve
  · exact .refl _ _

theorem Calm.serveHome {c : Chn} (h : Calm l s t) : Calm l s (t.serveHome c) := by
  refine h.foldl (fun t n => ?_) _
  split
  · exact (Calm.refl l t).serveWaits
  · exact .refl _ _

theorem Calm.noteStop {c : Chn} (h : Calm l s t) : Calm l s (t.noteStop c) := by
  unfold State.noteStop
  dsimp only
  split
  · exact Calm.mapCmds (Calm.aside h rfl rfl)
  · exact h.mapCmds

theorem Calm.loadNext {c : Chn} (h : Calm l s t) : Calm l s (t.loadNext c) := by
  unfold State.loadNext
  dsimp only
  split
  · exact h
  · generalize ((t.chan c).codeReady c _ || _) = ready
    split
    · exact h
    · split
      · exact h
      · exact Calm.modChan h (fun _ => rfl) fun _ => rfl

theorem Calm.dropSaves (h : Calm l s t) : Calm l s t.dropSaves := by
  have hslots : Calm l s { t with recov := { t.recov with slots := Vector.replicate 8 none } } := h.aside rfl rfl
  refine Calm.foldl (fun t c => ?_) hslots _
  exact Calm.modChan (.refl l t) (fun _ => rfl) fun _ => rfl

end

/-! ### The state of a channel -/

section
variable {l : List Chn} {s t : State} {c : Chn}

theorem Calm.holdChan (h : Calm l s t) (hc : c ∈ l) : Calm l s (t.holdChan c) :=
  Calm.raise (Calm.mapCmds (Calm.modChan_st h hc fun _ => rfl))

theorem Calm.stopChan {cause : BitVec 3} (h : Calm l s t) (hc : c ∈ l) : Calm l s (t.stopChan c cause) :=
  Calm.raise (Calm.noteStop (Calm.modChan_st h hc fun _ => rfl))

theorem Calm.enterOpening (h : Calm l s t) (hc : c ∈ l) : Calm l s (t.enterOpening c) := 
  Calm.loadNext (Calm.modChan_st h hc fun _ => rfl)

theorem Calm.loadChan (h : Calm l s t) (hc : c ∈ l) : Calm l s (t.loadChan c) := by
  have hsync : Calm l s ((t.closePort c.val).clearSync c) := h.closePort.aside rfl rfl
  unfold State.loadChan
  dsimp only
  refine Calm.modPort (Calm.serveHome ?_)
  exact Calm.modChan_st hsync hc fun _ => rfl

end

/-- A reset loads the channel, but `STATE` shows the state it was in (R515). -/
theorem calm_resetChan (s : State) (c : Chn) : Calm [] s (s.resetChan c) := by
  have hin : c ∈ [c] := List.mem_singleton_self c
  have hgone : Calm [c] s ((s.loadChan c).dropSaves.noteGone c false) :=
    Calm.mapCmds ((Calm.refl [c] s).loadChan hin).dropSaves
  unfold State.resetChan
  dsimp only
  generalize (s.loadChan c).dropSaves.noteGone c false = t at hgone ⊢
  have hreset : Calm [c] s ((t.closePort c.val).modChan c fun ch => { ch with
      gate := { ch.gate with st := (s.chan c).gate.st, inReset := some (s.cy + resetCycles) }
      regs2 := { ch.regs2 with reproduced := false } }) := Calm.modChan_st hgone.closePort hin fun _ => rfl
  refine Calm.aside (u := { (t.closePort c.val).modChan c _ with job := _ })
    ⟨hreset.span, hreset.windows, fun d _ => ?_⟩ rfl rfl
  by_cases hd : d = c
  · rw [hd, State.chan_modChan]
  · exact hreset.st d fun h => hd (List.mem_singleton.mp h)

theorem calm_afterSlack (s : State) (c : Chn) : Calm [c] s (s.afterSlack c) := by
  have hin : c ∈ [c] := List.mem_singleton_self c
  have hs := Calm.refl [c] s
  unfold State.afterSlack
  dsimp only
  split
  · exact hs.holdChan hin
  · split
    · exact (hs.stopChan hin).then (calm_resetChan _ c)
    · split
      · exact hs.stopChan hin
      · exact hs.enterOpening hin

/-! ### Tasks start, and channels leave -/

theorem calm_beginTask (s : State) (k : SlackTask) : Calm [] s (s.beginTask k) := by
  cases k with
  | calibrate r => exact (Calm.refl [] s).aside rfl rfl
  | substitute d p => exact .refl _ _
  | retrain n => exact (Calm.refl [] s).aside rfl rfl
  | firmware =>
    have hsw : Calm [] s { s with svc := { s.svc with mgmtSwitch := true } } := (Calm.refl [] s).aside rfl rfl
    exact hsw.foldl (fun t i => (Calm.refl [] t).closePort) _

theorem calm_startTasks (s : State) : Calm [] s s.startTasks := by
  refine (Calm.refl [] s).foldl (fun t k => ?_) _
  split
  · exact (calm_beginTask t k.task).aside rfl rfl
  · exact .refl _ _

/-- A channel that leaves a window changes its state only when it stood in a gate. -/
theorem calm_leaveIfFree (s : State) (c : Chn) (l : List Chn) (hl : (s.chan c).gate.st = .gate → c ∈ l) :
    Calm l s (s.leaveIfFree c) := by
  have hs := Calm.refl l s
  unfold State.leaveIfFree
  dsimp only
  split
  · exact hs
  · split
    · have hleft : Calm l s (s.modChan c fun ch => { ch with
          regs2 := { ch.regs2 with slackEntered := false, slackWaiting := false } }) :=
        Calm.modChan hs (fun _ => rfl) fun _ => rfl
      split
      · next hgate =>
        have hc : c ∈ l := hl (by simpa using (Bool.and_eq_true_iff.mp hgate).1)
        exact hleft.trans ((calm_afterSlack _ c).mono fun d hd => List.mem_singleton.mp hd ▸ hc)
      · split
        · exact hleft.then (calm_resetChan _ c)
        · exact hleft
    · exact Calm.modChan hs (fun _ => rfl) fun _ => rfl

/-! ### A window opens -/

/-- Every channel but `c`. -/
def otherChns (c : Chn) : List Chn := (List.finRange 4).filter (· ≠ c)

theorem mem_otherChns {c d : Chn} : d ∈ otherChns c ↔ d ≠ c := by
  rw [otherChns, List.mem_filter, and_iff_right (List.mem_finRange d), decide_eq_true_iff]

section
variable {s t : State} {c : Chn}

/-- What starts and leaves does not touch the state of a channel that stands in no gate. -/
theorem calm_slackMove (h : (s.chan c).gate.st ≠ .gate) : Calm (otherChns c) s s.slackMove := by
  refine List.foldlRecOn (motive := Calm (otherChns c) s) s.startTasks.channels State.leaveIfFree
    (calm_startTasks s).of_nil fun t ht d _ => ht.trans (calm_leaveIfFree t d _ fun hgate => ?_)
  refine mem_otherChns.mpr fun hd => h ?_
  rw [← ht.st c fun hin => mem_otherChns.mp hin rfl, ← hd, hgate]

theorem slackMove_span (s : State) : s.slackMove.span = s.span := by
  have hcalm : Calm (List.finRange 4) s s.slackMove :=
    List.foldlRecOn (motive := Calm (List.finRange 4) s) s.startTasks.channels State.leaveIfFree
      (calm_startTasks s).of_nil fun t ht d _ => ht.trans (calm_leaveIfFree t d _ fun _ => List.mem_finRange d)
  exact hcalm.span

/-- The channel counts no window and stays in its state. -/
structure Waits (c : Chn) (s t : State) : Prop where
  windows : (t.chan c).regs2.slackWindows = (s.chan c).regs2.slackWindows
  st : (t.chan c).gate.st = (s.chan c).gate.st

theorem Calm.waits (h : Calm (otherChns c) s t) : Waits c s t :=
  ⟨h.windows c, h.st c fun hin => mem_otherChns.mp hin rfl⟩

theorem Waits.trans {u : State} (h : Waits c s t) (h' : Waits c t u) : Waits c s u :=
  ⟨h'.windows.trans h.windows, h'.st.trans h.st⟩

theorem enterSlack_span (s : State) (d : Chn) : (s.enterSlack d).span = s.span := slackMove_span _

theorem enterSlack_waits {d : Chn} (hd : d ≠ c) (h : (s.chan c).gate.st ≠ .gate) : Waits c s (s.enterSlack d) := by
  have hother : (s.modChan d fun ch => { ch with
      regs2 := { ch.regs2 with slackEntered := true, slackWindows := satInc ch.regs2.slackWindows }
      gate := { ch.gate with slackPassed := true } }).chan c = s.chan c := State.chan_modChan_other _ _ _ _ hd.symm
  unfold State.enterSlack
  dsimp only
  generalize s.modChan d _ = t at hother ⊢
  have ht : Waits c t t.slackMove := (calm_slackMove (hother ▸ h)).waits
  exact ⟨hother ▸ ht.windows, hother ▸ ht.st⟩

/-- A channel that stands in no gate enters a window once. -/
theorem enterSlack_counts (h : (s.chan c).gate.st ≠ .gate) :
    ((s.enterSlack c).chan c).regs2.slackWindows = satInc (s.chan c).regs2.slackWindows ∧
    ((s.enterSlack c).chan c).gate.st = (s.chan c).gate.st := by
  have hself : (s.modChan c fun ch => { ch with
      regs2 := { ch.regs2 with slackEntered := true, slackWindows := satInc ch.regs2.slackWindows }
      gate := { ch.gate with slackPassed := true } }).chan c = { s.chan c with
      regs2 := { (s.chan c).regs2 with slackEntered := true, slackWindows := satInc (s.chan c).regs2.slackWindows }
      gate := { (s.chan c).gate with slackPassed := true } } := State.chan_modChan _ _ _
  unfold State.enterSlack
  dsimp only
  generalize s.modChan c _ = t at hself ⊢
  have hst : (t.chan c).gate.st = (s.chan c).gate.st := by rw [hself]
  have ht : Waits c t t.slackMove := (calm_slackMove (by rw [hst]; exact h)).waits
  exact ⟨ht.windows.trans (by rw [hself]), ht.st.trans hst⟩

/-- The state in which a channel enters a window at once. -/
def entersAtOnce : ChState → Bool
  | .running => false
  | .gate => false
  | .retired => false
  | _ => true

/-- A channel enters the window that opens, unless it runs, stands in a gate or is retired. -/
def State.enterOpened (s : State) (c : Chn) : State :=
  if entersAtOnce (s.chan c).gate.st then s.enterSlack c else s

/-- The channel has not passed the window, unless it is retired. -/
def State.markPassed (s : State) (c : Chn) : State := s.modGate c fun g => { g with slackPassed := g.st = .retired }

/-- The window is noted, and no channel has passed it but those that are retired. -/
def State.noteWindow (s : State) (mark len : W64) : State :=
  let move := fun (t : Task) => if some t.mark = s.svc.openMark then { t with mark := mark } else t
  let s : State := { s with svc := { s.svc with
    openMark := some mark, openEnd := mark + len, spanOver := false, tasks := s.svc.tasks.map move } }
  s.channels.foldl State.markPassed s

theorem openWindow_eq (s : State) (mark len : W64) : s.openWindow mark len =
    ((s.noteWindow mark len).channels.foldl State.enterOpened (s.noteWindow mark len)).slackMove := by
  have hf : (fun (s : State) (c : Chn) => match (s.chan c).gate.st with
      | .running => s
      | .gate => s
      | .retired => s
      | _ => s.enterSlack c) = State.enterOpened := by
    funext s c
    unfold State.enterOpened
    cases (s.chan c).gate.st <;> rfl
  rw [← hf]
  rfl

theorem noteWindow_span (s : State) (mark len : W64) :
    (s.noteWindow mark len).span = (s.four, some mark, mark + len, false) :=
  foldl_keeps State.span (f := State.markPassed) (fun _ _ => rfl) _ _

theorem markPassed_waits (s : State) (c d : Chn) : Waits c s (s.markPassed d) := by
  unfold State.markPassed State.modGate
  exact ⟨State.modChan_keeps (·.regs2.slackWindows) (by intro; rfl) s d c,
    State.modChan_keeps (·.gate.st) (by intro; rfl) s d c⟩

theorem noteWindow_waits (s : State) (mark len : W64) (c : Chn) : Waits c s (s.noteWindow mark len) :=
  ⟨foldl_keeps (fun t => (t.chan c).regs2.slackWindows) (fun t d => (markPassed_waits t c d).windows) _ _,
    foldl_keeps (fun t => (t.chan c).gate.st) (fun t d => (markPassed_waits t c d).st) _ _⟩

theorem enterOpened_span (s : State) (d : Chn) : (s.enterOpened d).span = s.span := by
  unfold State.enterOpened
  split
  · exact enterSlack_span s d
  · rfl

theorem enterOpened_waits {d : Chn} (hd : d ≠ c) (h : (s.chan c).gate.st ≠ .gate) :
    Waits c s (s.enterOpened d) := by
  unfold State.enterOpened
  split
  · exact enterSlack_waits hd h
  · exact ⟨rfl, rfl⟩

theorem openWindow_span (s : State) (mark len : W64) :
    (s.openWindow mark len).span = (s.four, some mark, mark + len, false) := by
  rw [openWindow_eq, slackMove_span, foldl_keeps State.span enterOpened_span, noteWindow_span]

/-- A channel that enters at once counts the window that opens, and stays in its state (R505). -/
theorem openWindow_counts (s : State) (mark len : W64) (hc : c ∈ s.channels)
    (h : entersAtOnce (s.chan c).gate.st = true) :
    ((s.openWindow mark len).chan c).regs2.slackWindows = satInc (s.chan c).regs2.slackWindows := by
  have hgate : (s.chan c).gate.st ≠ .gate := fun heq => by simp [heq, entersAtOnce] at h
  have hnote := noteWindow_waits s mark len c
  have hfour : (s.noteWindow mark len).four = s.four := congrArg Prod.fst (noteWindow_span s mark len)
  have hchans : (s.noteWindow mark len).channels = s.channels := by rw [State.channels, hfour, State.channels]
  rw [openWindow_eq, hchans]
  generalize s.noteWindow mark len = t at hnote
  have hentered : ((s.channels.foldl State.enterOpened t).chan c).regs2.slackWindows =
        satInc (s.chan c).regs2.slackWindows ∧
      ((s.channels.foldl State.enterOpened t).chan c).gate.st = (s.chan c).gate.st := by
    refine foldl_reaches (P := Waits c s)
      (Q := fun u => (u.chan c).regs2.slackWindows = satInc (s.chan c).regs2.slackWindows ∧
        (u.chan c).gate.st = (s.chan c).gate.st)
      (nodup_channels s) hc (fun u d hd hu => ?_) (fun u hu => ?_) (fun u d hd hu => ?_) hnote
    · exact hu.trans (enterOpened_waits hd (hu.st ▸ hgate))
    · rw [State.enterOpened, if_pos (hu.st ▸ h)]
      obtain ⟨hwin, hst⟩ := enterSlack_counts (hu.st ▸ hgate)
      exact ⟨hu.windows ▸ hwin, hu.st ▸ hst⟩
    · obtain ⟨hwin, hst⟩ := hu
      have hwaits := enterOpened_waits hd (hst ▸ hgate)
      exact ⟨hwaits.windows.trans hwin, hwaits.st.trans hst⟩
  obtain ⟨hwin, hst⟩ := hentered
  exact ((calm_slackMove (hst ▸ hgate)).waits.windows).trans hwin

end

end Sys2Proof.Machine
end

section
/-! PROOFS. A frame that is accepted or discarded, and the orders that it carries (R48, R49, R51, R58
to R60). -/
namespace Sys2Proof.Machine

/-! ### One order of a frame -/

section
variable {s : State} {first : Nat} {o : Order}

theorem holdsOrder_iff (s : State) (id : W32) :
    s.holdsOrder id = true ↔ ∃ n < 4, ∃ p, s.orderAt n = some p ∧ p.id = id := by
  simp only [State.holdsOrder, List.any_eq_true, List.mem_range, Option.any_eq_true, decide_eq_true_eq]

theorem holdsOrder_eq_false {id : W32} (h : ∀ n < 4, ∀ p, s.orderAt n = some p → p.id ≠ id) :
    s.holdsOrder id = false := by
  rw [← Bool.not_eq_true, holdsOrder_iff]
  rintro ⟨n, hn, p, hp, hid⟩
  exact h n hn p hp hid

theorem takeOrder_bad (ht : o.typ ≠ 0) (hb : o.bad = true) :
    s.takeOrder first o = { s with tide := { s.tide with ordBad := satInc s.tide.ordBad } } := by
  rw [State.takeOrder, if_neg ht, if_pos hb]

/-- The order is stored in the first free slot, where there is one. -/
def State.keepOrder (s : State) (o : Order) : State :=
  match s.freeOrder with
  | some n => s.setOrder n (some o)
  | none => s

theorem keepOrder_free {n : Nat} (h : s.freeOrder = some n) (o : Order) : s.keepOrder o = s.setOrder n (some o) := by
  rw [State.keepOrder, h]

/-- What is neither empty nor bad. -/
theorem takeOrder_good (ht : o.typ ≠ 0) (hb : o.bad = false) : s.takeOrder first o =
    if o.target ≠ s.tide.addr && o.target ≠ 0xFF then s
    else if s.holdsOrder o.id then s
    else if o.mark.toNat < first + 63 + 64 then
      { s with tide := { s.tide with ordLate := satInc s.tide.ordLate, lateOrder := true } }.raise evOrderLate
    else
      s.keepOrder o :=
  (if_neg ht).trans (if_neg (Bool.eq_false_iff.mp hb))

theorem takeOrder_elsewhere (ht : o.typ ≠ 0) (hb : o.bad = false) (ha : o.target ≠ s.tide.addr)
    (hall : o.target ≠ 0xFF) : s.takeOrder first o = s := by
  rw [takeOrder_good ht hb, if_pos (Bool.and_eq_true_iff.mpr ⟨decide_eq_true ha, decide_eq_true hall⟩)]

/-- An order that the part may act on. -/
theorem takeOrder_ours (ht : o.typ ≠ 0) (hb : o.bad = false) (ha : o.target = s.tide.addr ∨ o.target = 0xFF) :
    s.takeOrder first o =
      if s.holdsOrder o.id then s
      else if o.mark.toNat < first + 63 + 64 then
        { s with tide := { s.tide with ordLate := satInc s.tide.ordLate, lateOrder := true } }.raise evOrderLate
      else
        s.keepOrder o := by
  rw [takeOrder_good ht hb, if_neg (by rcases ha with h | h <;> simp [h])]

end

/-! ### What the orders of a frame leave as it was -/

/-- At most the stored orders, the counts of bad and late ones, what a worker knows of its manager's
orders and the raised events have changed; no raised event is lost. -/
structure TakesOrders (s t : State) : Prop where
  same : { t with
    tide := { t.tide with orders := s.tide.orders, ordBad := s.tide.ordBad, ordLate := s.tide.ordLate,
                          lateOrder := s.tide.lateOrder }
    line := { t.line with sending := s.line.sending, placed := s.line.placed, nextId := s.line.nextId }
    ev := s.ev } = s
  raised : s.ev.raised ⊆ t.ev.raised

section
variable {s t u : State}

theorem TakesOrders.refl (s : State) : TakesOrders s s := ⟨rfl, List.Subset.refl _⟩

theorem TakesOrders.trans (h : TakesOrders s t) (h' : TakesOrders t u) : TakesOrders s u :=
  ⟨(congrArg (fun x : State => ({ x with
    tide := { x.tide with orders := s.tide.orders, ordBad := s.tide.ordBad, ordLate := s.tide.ordLate,
                          lateOrder := s.tide.lateOrder }
    line := { x.line with sending := s.line.sending, placed := s.line.placed, nextId := s.line.nextId }
    ev := s.ev } : State)) h'.same).trans h.same, fun _ hx => h'.raised (h.raised hx)⟩

theorem TakesOrders.four (h : TakesOrders s t) : t.four = s.four := (congrArg State.four h.same :)

theorem TakesOrders.tide (h : TakesOrders s t) : t.tide = { s.tide with
    orders := t.tide.orders, ordBad := t.tide.ordBad, ordLate := t.tide.ordLate, lateOrder := t.tide.lateOrder } :=
  (congrArg (fun x : State => ({ x.tide with
    orders := t.tide.orders, ordBad := t.tide.ordBad, ordLate := t.tide.ordLate
    lateOrder := t.tide.lateOrder } : Tide)) h.same :)

theorem TakesOrders.line (h : TakesOrders s t) : t.line = { s.line with
    sending := t.line.sending, placed := t.line.placed, nextId := t.line.nextId } :=
  (congrArg (fun x : State => ({ x.line with
    sending := t.line.sending, placed := t.line.placed, nextId := t.line.nextId } : TideLine)) h.same :)

theorem takesOrders_takeOrder (s : State) (first : Nat) (o : Order) : TakesOrders s (s.takeOrder first o) := by
  unfold State.takeOrder
  split
  · exact .refl s
  · split
    · exact ⟨rfl, List.Subset.refl _⟩
    · split
      · exact .refl s
      · split
        · exact .refl s
        · split
          · exact ⟨rfl, List.subset_append_left _ _⟩
          · split
            · exact ⟨rfl, List.Subset.refl _⟩
            · exact .refl s

theorem takesOrders_learn (s : State) (f : List Byte) : TakesOrders s (s.learn f) := by
  unfold State.learn
  split
  · exact ⟨rfl, List.Subset.refl _⟩
  · exact .refl s

theorem takesOrders_takeOrders (s : State) (f : List Byte) (first : Nat) : TakesOrders s (s.takeOrders f first) :=
  List.foldlRecOn (motive := TakesOrders s) _ _ (takesOrders_learn s f) fun t ht i _ =>
    ht.trans (takesOrders_takeOrder t first (frameOrder f i))

end

/-! ### A frame -/

section
variable {s : State}

/-- The count of a frame's first tick, and that of the tick at which it ends (R58). -/
def State.frameFirst (s : State) : Nat := frameField s.line.frame 0 8
def State.frameEnd (s : State) : W64 := w64 (s.frameFirst + s.line.sinceFirst)

/-- The part without the frame that it gathered. -/
def State.withoutFrame (s : State) : State := { s with line := s.line.dropFrame }

theorem takeFrame_none (h : s.line.frameReady = false) : s.takeFrame = s := by simp [State.takeFrame, h]

theorem takeFrame_resumes (h : s.line.frameReady = true) (hr : s.line.resume.isSome = true) :
    s.takeFrame = s.withoutFrame := by simp [State.takeFrame, State.withoutFrame, h, hr]

theorem takeFrame_bad (h : s.line.frameReady = true) (hr : s.line.resume = none) (hg : s.goodFrame = false) :
    s.takeFrame = { s.withoutFrame with tide := { s.tide with frameBad := satInc s.tide.frameBad } } := by
  simp [State.takeFrame, State.withoutFrame, h, hr, hg]

theorem takeFrame_locked (h : s.line.frameReady = true) (hr : s.line.resume = none) (hg : s.goodFrame = true)
    (hl : s.tide.locked = true) : s.takeFrame = s.withoutFrame.takeOrders s.line.frame s.frameFirst := by
  simp [State.takeFrame, State.withoutFrame, State.frameFirst, h, hr, hg, hl]

theorem takeFrame_below (h : s.line.frameReady = true) (hr : s.line.resume = none) (hg : s.goodFrame = true)
    (hl : s.tide.locked = false) (hv : s.frameEnd.toNat < s.tide.count.toNat) : s.takeFrame =
      if s.tide.ahead then s.withoutFrame
      else { s.withoutFrame with tide := { s.tide with ahead := true } }.raise evTideAhead := by
  have hv' : (w64 (frameField s.line.frame 0 8 + s.line.sinceFirst)).toNat < s.tide.count.toNat := hv
  simp [State.takeFrame, State.withoutFrame, h, hr, hg, hl, hv']

theorem takeFrame_locks (h : s.line.frameReady = true) (hr : s.line.resume = none) (hg : s.goodFrame = true)
    (hl : s.tide.locked = false) (hv : s.tide.count.toNat ≤ s.frameEnd.toNat) : s.takeFrame =
      (s.withoutFrame.lockAt_ s.frameFirst s.frameEnd).takeOrders s.line.frame s.frameFirst := by
  have hv' : ¬ (w64 (frameField s.line.frame 0 8 + s.line.sinceFirst)).toNat < s.tide.count.toNat := Nat.not_lt.mpr hv
  simp [State.takeFrame, State.withoutFrame, State.frameFirst, State.frameEnd, h, hr, hg, hl, hv']

/-- What the lock sets: the count, and the end of a hold (R58, R60). -/
theorem lockAt_tide (s : State) (first : Nat) (v : W64) : (s.lockAt_ first v).tide =
    { s.tide with count := v, locked := true, loss := false, ahead := false, lockAt := v } := by
  unfold State.lockAt_
  dsimp only
  split
  · exact tideEntry_tide _ _ _
  · rfl

theorem lockAt_line (s : State) (first : Nat) (v : W64) : (s.lockAt_ first v).line = { s.line with
    neverLocked := false, missRun := 0
    releaseAt := if s.tide.hold then some (w64 (first + 4096)) else none } := by
  unfold State.lockAt_
  dsimp only
  split
  · exact tideEntry_line _ _ _
  · rfl

theorem lockAt_four (s : State) (first : Nat) (v : W64) : (s.lockAt_ first v).four = s.four := by
  unfold State.lockAt_
  dsimp only
  split
  · exact tideEntry_four _ _ _
  · rfl

theorem mem_raised_lockAt (first : Nat) (v : W64) (hh : s.tide.hold = true) :
    0x00A ∈ (s.lockAt_ first v).ev.raised := by
  unfold State.lockAt_
  dsimp only
  rw [if_pos hh]
  exact List.mem_append_right _ (List.mem_singleton_self _)

/-- A ready frame that no jump keeps out is gone, whether it was accepted or not. -/
theorem takeFrame_ready (h : s.line.frameReady = true) (hr : s.line.resume = none) :
    s.takeFrame.line.frameReady = false := by
  cases hg : s.goodFrame with
  | false => rw [takeFrame_bad h hr hg]; rfl
  | true =>
    cases hl : s.tide.locked with
    | true => rw [takeFrame_locked h hr hg hl, (takesOrders_takeOrders _ _ _).line]; rfl
    | false =>
      by_cases hv : s.frameEnd.toNat < s.tide.count.toNat
      · rw [takeFrame_below h hr hg hl hv]
        split <;> rfl
      · rw [takeFrame_locks h hr hg hl (Nat.le_of_not_lt hv), (takesOrders_takeOrders _ _ _).line, lockAt_line]
        rfl

theorem takeFrame_below_tide (h : s.line.frameReady = true) (hr : s.line.resume = none) (hg : s.goodFrame = true)
    (hl : s.tide.locked = false) (hv : s.frameEnd.toNat < s.tide.count.toNat) :
    s.takeFrame.tide = { s.tide with ahead := true } ∧
    s.takeFrame.ev.raised = s.ev.raised ++ (if s.tide.ahead then [] else [0x009]) := by
  rw [takeFrame_below h hr hg hl hv]
  split
  · next ha => exact ⟨ha ▸ rfl, (List.append_nil _).symm⟩
  · exact ⟨rfl, rfl⟩

theorem takeFrame_locks_tide (h : s.line.frameReady = true) (hr : s.line.resume = none) (hg : s.goodFrame = true)
    (hl : s.tide.locked = false) (hv : s.tide.count.toNat ≤ s.frameEnd.toNat) :
    s.takeFrame.tide.count = s.frameEnd ∧ s.takeFrame.tide.locked = true ∧ s.takeFrame.tide.lockAt = s.frameEnd ∧
    s.takeFrame.tide.loss = false ∧ s.takeFrame.tide.ahead = false ∧ s.takeFrame.tide.hold = s.tide.hold ∧
    (s.tide.hold = true → 0x00A ∈ s.takeFrame.ev.raised ∧
      s.takeFrame.line.releaseAt = some (w64 (s.frameFirst + 4096))) := by
  rw [takeFrame_locks h hr hg hl hv]
  have htake := takesOrders_takeOrders (s.withoutFrame.lockAt_ s.frameFirst s.frameEnd) s.line.frame s.frameFirst
  have htide := lockAt_tide s.withoutFrame s.frameFirst s.frameEnd
  refine ⟨?_, ?_, ?_, ?_, ?_, ?_, fun hh => ⟨?_, ?_⟩⟩
  · rw [htake.tide, htide]
  · rw [htake.tide, htide]
  · rw [htake.tide, htide]
  · rw [htake.tide, htide]
  · rw [htake.tide, htide]
  · rw [htake.tide, htide]
    rfl
  · exact htake.raised (mem_raised_lockAt _ _ hh)
  · rw [htake.line, lockAt_line]
    exact if_pos hh

theorem takeFrame_four (s : State) : s.takeFrame.four = s.four := by
  unfold State.takeFrame
  split
  · rfl
  · split
    · rfl
    · dsimp only
      split
      · rfl
      · split
        · exact (takesOrders_takeOrders _ _ _).four
        · split
          · split <;> rfl
          · exact (takesOrders_takeOrders _ _ _).four.trans (lockAt_four _ _ _)

end

end Sys2Proof.Machine
end

section
/-! PROOFS. Orders at their marks: halts, steps, windows, and the manager role (R38 to R42, R62, R505,
R507). -/
namespace Sys2Proof.Machine

section
variable {s : State} {n : Nat} {o : Order}

theorem haltMark_none (h : s.actsNow n otHALT = none) : s.haltMark n = s := by rw [State.haltMark, h]
theorem freqMark_none (h : s.actsNow n otFREQ = none) : s.freqMark n = s := by rw [State.freqMark, h]
theorem slackMark_none (h : s.actsNow n otSLACK = none) : s.slackMark n = s := by rw [State.slackMark, h]
theorem handoverMark_none (h : s.actsNow n otHANDOVER = none) : s.handoverMark n = s := by
  rw [State.handoverMark, h]

/-- An order that acts now is due. -/
theorem mem_dueOrders_of_actsNow {typ : Byte} (hn : n < 4) (h : s.actsNow n typ = some o) :
    o ∈ s.dueOrders ∧ o.typ = typ := by
  unfold State.actsNow at h
  split at h
  · next p hp =>
    split at h
    · next hact =>
      obtain rfl : p = o := Option.some.inj h
      exact ⟨List.mem_filterMap.mpr ⟨n, List.mem_range.mpr hn, hp⟩,
        of_decide_eq_true (Bool.and_eq_true_iff.mp hact).1⟩
    · exact nomatch h
  · exact nomatch h

/-- A slot that is freed is empty, unless tasks wait for an order of their own. -/
theorem orderAt_freeSlot (hn : n < 4) (h : s.svc.listed = []) : (s.freeSlot n).orderAt n = none := by
  have hlisted : (s.setOrder n none).svc.listed = [] := h
  rw [State.freeSlot, State.releaseListed, hlisted]
  exact (orderAt_setOrder s n n none).trans (if_pos ⟨rfl, hn⟩)

/-! ### Halts (R38, R39) -/

theorem haltMark_acts (h : s.actsNow n otHALT = some o) : s.haltMark n =
    ((s.channels.filter fun c => bitAt (haltMask o.arg) c.val).foldl State.haltChan s).freeSlot n := by
  rw [State.haltMark, h]

theorem bitAt_haltMask (arg : W64) (c : Chn) :
    bitAt (haltMask arg) c.val = true ↔ fld arg 0 4 = 0#4 ∨ bitAt arg c.val = true := by
  have hc : c.val < 4 := c.isLt
  unfold haltMask
  split
  · next hzero =>
    have hall : ∀ c : Chn, bitAt (15 : BitVec 4) c.val = true := by decide
    exact iff_of_true (hall c) (Or.inl hzero)
  · next hsome =>
    have hlow : bitAt (fld arg 0 4) c.val = bitAt arg c.val := by simp [bitAt, fld, hc]
    rw [hlow, or_iff_right hsome]

theorem haltChan_st (s : State) (c d : Chn) : ((s.haltChan d).chan c).gate.st = (s.chan c).gate.st := by
  refine State.modChan_keeps (·.gate.st) (fun ch => ?_) s d c
  dsimp only
  cases hst : ch.gate.st <;> simp only [hst]
  split
  · rfl
  · exact hst

theorem haltChan_other {c d : Chn} (hd : d ≠ c) (s : State) : (s.haltChan d).chan c = s.chan c :=
  State.chan_modChan_other _ _ _ _ hd.symm

theorem haltChan_halts {c : Chn}
    (h : (s.chan c).gate.st = .running ∨ (s.chan c).gate.st = .gate ∨ (s.chan c).gate.st = .held) :
    ((s.haltChan c).chan c).gate.halted = true := by
  unfold State.haltChan State.modGate
  rw [State.chan_modChan]
  rcases h with h | h | h <;> simp only [h]

/-- What a halt does to a channel: its state stays, and a channel that it names halts when it runs, is in
a gate or is held. -/
theorem foldl_haltChan (s : State) (m : BitVec 4) {c : Chn} (hc : c ∈ s.channels) :
    let t := (s.channels.filter fun d => bitAt m d.val).foldl State.haltChan s
    (t.chan c).gate.st = (s.chan c).gate.st ∧
    (bitAt m c.val = true →
      (s.chan c).gate.st = .running ∨ (s.chan c).gate.st = .gate ∨ (s.chan c).gate.st = .held →
      (t.chan c).gate.halted = true) ∧
    (bitAt m c.val = false → t.chan c = s.chan c) := by
  refine ⟨foldl_keeps (fun t => (t.chan c).gate.st) (fun t d => haltChan_st t c d) _ _,
    fun hm hst => ?_, fun hm => ?_⟩
  · refine foldl_reaches (P := fun t => t.chan c = s.chan c) (Q := fun t => (t.chan c).gate.halted = true)
      ((nodup_channels s).filter _) (List.mem_filter.mpr ⟨hc, hm⟩) (fun t d hd ht => ?_) (fun t ht => ?_)
      (fun t d hd ht => ?_) rfl
    · exact (haltChan_other hd t).trans ht
    · exact haltChan_halts (ht ▸ hst)
    · exact (congrArg (·.gate.halted) (haltChan_other hd t)).trans ht
  · refine List.foldlRecOn (motive := fun t => t.chan c = s.chan c) _ State.haltChan rfl fun t ht d hd => ?_
    have hdc : d ≠ c := by
      rintro rfl
      simp [hm] at hd
    exact (haltChan_other hdc t).trans ht

theorem haltMark_halts (hn : n < 4) (h : s.actsNow n otHALT = some o) :
    (s.svc.listed = [] → (s.haltMark n).orderAt n = none) ∧
    ∀ c ∈ s.channels, ((s.haltMark n).chan c).gate.st = (s.chan c).gate.st ∧
      ((fld o.arg 0 4 = 0#4 ∨ bitAt o.arg c.val = true) →
        (s.chan c).gate.st = .running ∨ (s.chan c).gate.st = .gate ∨ (s.chan c).gate.st = .held →
        ((s.haltMark n).chan c).gate.halted = true) ∧
      (fld o.arg 0 4 ≠ 0#4 → bitAt o.arg c.val = false → (s.haltMark n).chan c = s.chan c) := by
  rw [haltMark_acts h]
  refine ⟨fun hlisted => orderAt_freeSlot hn ?_, fun c hc => ?_⟩
  · exact (congrArg Service.listed (foldl_keeps State.svc (f := State.haltChan) (fun _ _ => rfl) _ _)).trans hlisted
  · obtain ⟨hst, hhalt, hother⟩ := foldl_haltChan s (haltMask o.arg) hc
    have hchan (t : State) : (t.freeSlot n).chan c = t.chan c := by
      rw [State.chan, (sameButOrders_freeSlot t n).chans, State.chan]
    rw [hchan]
    refine ⟨hst, fun hmask => hhalt ((bitAt_haltMask _ c).mpr hmask), fun hsome hbit => hother ?_⟩
    rw [← Bool.not_eq_true, bitAt_haltMask]
    simp [hsome, hbit]

/-! ### Steps of the clock (R40) -/

theorem beats_iff (d o : Order) : d.beats o = true ↔
    o.mark.toNat < d.mark.toNat ∨ d.mark = o.mark ∧ o.id.toNat < d.id.toNat := by
  simp only [Order.beats, Bool.or_eq_true, Bool.and_eq_true, decide_eq_true_eq]

/-- Another step that is due goes before this one. -/
def State.beaten (s : State) (o : Order) : Bool := s.dueOrders.any fun d => d.typ = otFREQ && d.beats o

theorem beaten_iff (s : State) (o : Order) : s.beaten o = true ↔ ∃ d ∈ s.dueOrders, d.typ = otFREQ ∧
    (o.mark.toNat < d.mark.toNat ∨ d.mark = o.mark ∧ o.id.toNat < d.id.toNat) := by
  simp only [State.beaten, List.any_eq_true, Bool.and_eq_true, decide_eq_true_eq, beats_iff]

/-- The power state with the step that an order asks for. -/
def Power.planStep (p : Power) (o : Order) : Power := { p with planned := BitVec.ofNat 5 (min 16 (fldN o.arg 0 5)) }

theorem toNat_planStep (p : Power) (o : Order) : (p.planStep o).planned.toNat = min 16 (fldN o.arg 0 5) :=
  Nat.mod_eq_of_lt (Nat.lt_of_le_of_lt (Nat.min_le_left _ _) (by decide))

theorem wanted_planStep (p : Power) (o : Order) :
    (p.planStep o).wanted = min (min 16 (fldN o.arg 0 5)) (min p.tceil.toNat p.pceil.toNat) :=
  congrArg (min · (min p.tceil.toNat p.pceil.toNat)) (toNat_planStep p o)

theorem takeStep_planned (p : Power) : p.takeStep.planned = p.planned := by
  unfold Power.takeStep
  dsimp only
  split
  · rfl
  · split <;> rfl

theorem freqMark_pwr (h : s.actsNow n otFREQ = some o) :
    (s.freqMark n).pwr = if s.beaten o then s.pwr else (s.pwr.planStep o).takeStep := by
  rw [State.freqMark, h]
  dsimp only
  change (if s.beaten o then _ else _ : State).pwr = _
  split
  · exact (sameButOrders_freeSlot s n).pwr
  · exact (sameButOrders_freeSlot _ n).pwr

theorem freqMark_steps (h : s.actsNow n otFREQ = some o)
    (hfirst : ∀ d ∈ s.dueOrders, d.typ = otFREQ →
      d.mark.toNat < o.mark.toNat ∨ d.mark = o.mark ∧ d.id.toNat ≤ o.id.toNat) :
    (s.freqMark n).pwr = (s.pwr.planStep o).takeStep := by
  have hnot : ¬ s.beaten o = true := by
    rw [beaten_iff]
    rintro ⟨d, hd, htyp, hbeat⟩
    rcases hfirst d hd htyp with hlt | ⟨hmark, hid⟩
    · rcases hbeat with hgt | ⟨hmark, -⟩
      · omega
      · rw [hmark] at hlt
        exact Nat.lt_irrefl _ hlt
    · rcases hbeat with hgt | ⟨-, hgt⟩
      · rw [hmark] at hgt
        exact Nat.lt_irrefl _ hgt
      · omega
  rw [freqMark_pwr h, if_neg hnot]

/-! ### Windows (R505, R507) -/

/-- The length of the window of a mark: the largest of those that are due. -/
def State.spanOf (s : State) (o : Order) : Nat :=
  s.dueOrders.foldl (fun m d => if d.typ = otSLACK && d.mark = o.mark then max m (fldN d.arg 0 16) else m) 0

/-- The part without the orders of a window. -/
def State.withoutWindow (s : State) (o : Order) : State :=
  { s with tide := { s.tide with orders := s.tide.orders.map fun d => match d with
    | some (x : Order) => if x.typ = otSLACK && x.mark = o.mark then none else d
    | none => none } }

theorem slackMark_acts (h : s.actsNow n otSLACK = some o) :
    s.slackMark n = ((s.withoutWindow o).openWindow o.mark (w64 (s.spanOf o))).releaseListed := by
  rw [State.slackMark, h]
  rfl

theorem foldl_max_single {α : Type} (p : α → Bool) (f : α → Nat) {a : α} {l : List α}
    (hp : ∀ d ∈ l, p d = true → d = a) :
    ∀ m ≤ f a, (a ∈ l ∧ p a = true ∨ m = f a) →
      l.foldl (fun m d => if p d then max m (f d) else m) m = f a := by
  induction l with
  | nil => exact fun m _ h => h.resolve_left fun hin => nomatch hin.1
  | cons d l ih =>
    intro m hm h
    have hp' : ∀ e ∈ l, p e = true → e = a := fun e he => hp e (List.mem_cons_of_mem d he)
    rw [List.foldl_cons]
    by_cases hd : p d = true
    · obtain rfl : d = a := hp d List.mem_cons_self hd
      rw [if_pos hd, Nat.max_eq_right hm]
      exact ih hp' _ (Nat.le_refl _) (Or.inr rfl)
    · rw [if_neg hd]
      refine ih hp' m hm (h.imp_left fun ⟨hin, hpa⟩ => ⟨?_, hpa⟩)
      exact (List.mem_cons.mp hin).resolve_left fun heq => hd (heq ▸ hpa)

theorem spanOf_single (hin : o ∈ s.dueOrders) (htyp : o.typ = otSLACK)
    (honly : ∀ d ∈ s.dueOrders, d.typ = otSLACK → d.mark = o.mark → d = o) : s.spanOf o = fldN o.arg 0 16 := by
  refine foldl_max_single (fun d => d.typ = otSLACK && d.mark = o.mark) (fun d => fldN d.arg 0 16) (fun d hd hp => ?_)
    0 (Nat.zero_le _) (Or.inl ⟨hin, by simp [htyp]⟩)
  obtain ⟨ht, hm⟩ := Bool.and_eq_true_iff.mp hp
  exact honly d hd (of_decide_eq_true ht) (of_decide_eq_true hm)

/-- The window that opens, and the channels that enter it at once. -/
theorem slackMark_opens (hn : n < 4) (h : s.actsNow n otSLACK = some o) :
    (s.slackMark n).svc.openMark = some o.mark ∧ (s.slackMark n).svc.spanOver = false ∧
    ((∀ d ∈ s.dueOrders, d.typ = otSLACK → d.mark = o.mark → d = o) →
      (s.slackMark n).svc.openEnd = o.mark + w64 (fldN o.arg 0 16)) ∧
    ∀ c ∈ s.channels, entersAtOnce (s.chan c).gate.st = true →
      ((s.slackMark n).chan c).regs2.slackWindows = satInc (s.chan c).regs2.slackWindows := by
  have hspan := openWindow_span (s.withoutWindow o) o.mark (w64 (s.spanOf o))
  have hcount (c : Chn) := openWindow_counts (c := c) (s.withoutWindow o) o.mark (w64 (s.spanOf o))
  rw [slackMark_acts h]
  generalize (s.withoutWindow o).openWindow o.mark (w64 (s.spanOf o)) = t at hspan hcount
  have hkeep := sameButOrders_releaseListed t
  obtain ⟨-, hmark, hend, hover⟩ : t.four = (s.withoutWindow o).four ∧ t.svc.openMark = some o.mark ∧
      t.svc.openEnd = o.mark + w64 (s.spanOf o) ∧ t.svc.spanOver = false := by
    simpa only [State.span, Prod.mk.injEq] using hspan
  refine ⟨?_, ?_, fun honly => ?_, fun c hc henter => ?_⟩
  · rw [hkeep.svc]
    exact hmark
  · rw [hkeep.svc]
    exact hover
  · obtain ⟨hin, htyp⟩ := mem_dueOrders_of_actsNow hn h
    rw [hkeep.svc, ← spanOf_single hin htyp honly]
    exact hend
  · rw [State.chan, hkeep.chans]
    exact hcount c hc henter

/-! ### The manager role (R62, R63) -/

/-- The role passes with a handover order, whose slot is free. -/
def State.passRole (s : State) (o : Order) : State :=
  let me := decide (fldN o.arg 0 8 = s.tide.addr.toNat)
  if s.tide.role = rlMANAGER && !me then
    let s : State := { s with
      tide := { s.tide with role := rlWORKER, driving := false, hold := s.tide.hold || !s.tide.locked }
      line := { s.line with pendingFail := true, neverLocked := !s.tide.locked } }
    s.tideEntry false false
  else if s.tide.role = rlMANAGER then s.noteRole true
  else if s.tide.role = rlWORKER && me && s.tide.locked && s.tide.eligible then
    let s : State := ({ s with line := { s.line with
      firstFrame := false
      sending := s.line.sending.map fun d => if d.any fun x => x.id = o.id then none else d } } : State).driveLine
      (s.tide.count + 1)
    s.tideEntry false false
  else s

theorem handoverMark_acts (h : s.actsNow n otHANDOVER = some o) : s.handoverMark n = (s.freeSlot n).passRole o := by
  rw [State.handoverMark, h]
  rfl

theorem passRole_count (s : State) (o : Order) : (s.passRole o).tide.count = s.tide.count := by
  unfold State.passRole
  dsimp only
  split
  · rw [tideEntry_tide]
  · split
    · rfl
    · split
      · rw [tideEntry_tide]
        rfl
      · rfl

theorem passRole_gives (hrole : s.tide.role = rlMANAGER) (hme : ¬ fldN o.arg 0 8 = s.tide.addr.toNat) :
    (s.passRole o).tide = { s.tide with
      role := rlWORKER, driving := false, hold := s.tide.hold || !s.tide.locked } ∧
    (s.passRole o).line.pendingFail = true := by
  have hcond : (s.tide.role = rlMANAGER && !decide (fldN o.arg 0 8 = s.tide.addr.toNat)) = true := by
    simp [hrole, hme]
  rw [State.passRole]
  dsimp only
  rw [if_pos hcond]
  exact ⟨tideEntry_tide _ _ _, congrArg TideLine.pendingFail (tideEntry_line _ _ _)⟩

theorem passRole_takes (hrole : s.tide.role = rlWORKER) (hme : fldN o.arg 0 8 = s.tide.addr.toNat)
    (hlock : s.tide.locked = true) (helig : s.tide.eligible = true) :
    (s.passRole o).tide = { s.tide with role := rlMANAGER, driving := true } ∧
    (s.passRole o).line = { s.line with
      firstFrame := false, sendFrom := s.tide.count + 1
      sending := s.line.sending.map fun d => if d.any fun x => x.id = o.id then none else d } := by
  have hman : ¬ s.tide.role = rlMANAGER := by rw [hrole]; decide
  have hfirst : ¬ (s.tide.role = rlMANAGER && !decide (fldN o.arg 0 8 = s.tide.addr.toNat)) = true := by simp [hman]
  have hcond : (s.tide.role = rlWORKER && decide (fldN o.arg 0 8 = s.tide.addr.toNat) && s.tide.locked &&
      s.tide.eligible) = true := by simp [hrole, hme, hlock, helig]
  rw [State.passRole]
  dsimp only
  rw [if_neg hfirst, if_neg hman, if_pos hcond]
  exact ⟨tideEntry_tide _ _ _, tideEntry_line _ _ _⟩

theorem passRole_stays (hrole : s.tide.role ≠ rlMANAGER) (hme : ¬ fldN o.arg 0 8 = s.tide.addr.toNat) :
    s.passRole o = s := by
  have hfirst : ¬ (s.tide.role = rlMANAGER && !decide (fldN o.arg 0 8 = s.tide.addr.toNat)) = true := by simp [hrole]
  have hcond : ¬ (s.tide.role = rlWORKER && decide (fldN o.arg 0 8 = s.tide.addr.toNat) && s.tide.locked &&
      s.tide.eligible) = true := by simp [hme]
  rw [State.passRole]
  dsimp only
  rw [if_neg hfirst, if_neg hrole, if_neg hcond]

/-- A slot that held an order is empty afterwards when the order is the one that acted. -/
theorem getD_map_drop {v : Slots} {m : Nat} {x : Order} (id : W32) (h : v.getD m none = some x) :
    (v.map fun d => if d.any fun x => x.id = id then none else d).getD m none = if x.id = id then none else some x := by
  have hm : m < 4 := Slots.lt_of_getD h
  have hx : v[m] = some x := by simpa [Vector.getD, hm] using h
  simp [Vector.getD, hm, hx]

theorem handoverMark_passes (h : s.actsNow n otHANDOVER = some o) :
    let me := fldN o.arg 0 8 = s.tide.addr.toNat
    let t := s.handoverMark n
    t.tide.count = s.tide.count ∧
    (s.tide.role = rlMANAGER → ¬ me → t.tide.role = rlWORKER ∧ t.tide.driving = false ∧
      t.line.pendingFail = true ∧ t.tide.hold = (s.tide.hold || !s.tide.locked)) ∧
    (s.tide.role = rlWORKER → me → s.tide.locked = true → s.tide.eligible = true →
      t.tide.role = rlMANAGER ∧ t.tide.driving = true ∧ t.line.firstFrame = false ∧
      t.line.sendFrom = s.tide.count + 1 ∧
      ∀ m x, s.line.sending.getD m none = some x →
        t.line.sending.getD m none = if x.id = o.id then none else some x) ∧
    (s.tide.role ≠ rlMANAGER → ¬ me → t.tide.role = s.tide.role) := by
  have htide := (sameButOrders_freeSlot s n).tide
  have hline := (sameButOrders_freeSlot s n).line
  dsimp only
  rw [handoverMark_acts h]
  generalize s.freeSlot n = u at htide hline
  obtain ⟨hcount, hrole, haddr, hlock, helig, hhold⟩ : u.tide.count = s.tide.count ∧ u.tide.role = s.tide.role ∧
      u.tide.addr = s.tide.addr ∧ u.tide.locked = s.tide.locked ∧ u.tide.eligible = s.tide.eligible ∧
      u.tide.hold = s.tide.hold := by
    rw [htide]
    exact ⟨rfl, rfl, rfl, rfl, rfl, rfl⟩
  have hsending : u.line.sending = s.line.sending := by rw [hline]
  refine ⟨(passRole_count u o).trans hcount, ?_, ?_, ?_⟩
  · intro hman hme
    obtain ⟨ht, hl⟩ := passRole_gives (hrole ▸ hman) (haddr ▸ hme)
    rw [ht]
    exact ⟨rfl, rfl, hl, by rw [hhold, hlock]⟩
  · intro hwork hme hlocked heligible
    obtain ⟨ht, hl⟩ := passRole_takes (hrole ▸ hwork) (haddr ▸ hme) (hlock ▸ hlocked) (helig ▸ heligible)
    rw [ht, hl]
    exact ⟨rfl, rfl, rfl, by rw [hcount], fun m x hx => getD_map_drop o.id (hsending ▸ hx)⟩
  · intro hman hme
    rw [passRole_stays (hrole ▸ hman) (haddr ▸ hme), hrole]

end

end Sys2Proof.Machine
end

section
/-! PROOFS. Frames, and orders at their marks (R38 to R41, R48, R49, R51, R56 to R62). -/
namespace Sys2Proof.Machine

section
variable (s : State)

/-- A ready frame of a part that waits for no jump. -/
theorem tideFrame_judged (h : s.line.frameReady = true) (hr : s.line.resume = none) :
    let t := s.takeFrame
    t.line.frameReady = false ∧
    (s.goodFrame = false → t.tide = { s.tide with frameBad := satInc s.tide.frameBad }) ∧
    (s.goodFrame = true → s.tide.locked = false → s.tide.count.toNat ≤ s.frameEnd.toNat →
      t.tide.count = s.frameEnd ∧ t.tide.locked = true ∧ t.tide.lockAt = s.frameEnd ∧ t.tide.loss = false ∧
      t.tide.ahead = false ∧ t.tide.hold = s.tide.hold ∧
      (s.tide.hold = true → 0x00A ∈ t.ev.raised ∧ t.line.releaseAt = some (w64 (s.frameFirst + 4096)))) ∧
    (s.goodFrame = true → s.tide.locked = false → s.frameEnd.toNat < s.tide.count.toNat →
      t.tide = { s.tide with ahead := true } ∧
      t.ev.raised = s.ev.raised ++ (if s.tide.ahead then [] else [0x009])) ∧
    (s.goodFrame = true → s.tide.locked = true → t.tide.count = s.tide.count ∧ t.tide.locked = true ∧
      t = s.withoutFrame.takeOrders s.line.frame s.frameFirst) := by
  refine ⟨takeFrame_ready h hr, fun hg => by rw [takeFrame_bad h hr hg], fun hg hl hv =>
    takeFrame_locks_tide h hr hg hl hv, fun hg hl hv => takeFrame_below_tide h hr hg hl hv, fun hg hl => ?_⟩
  have htake := (takesOrders_takeOrders s.withoutFrame s.line.frame s.frameFirst).tide
  rw [takeFrame_locked h hr hg hl]
  exact ⟨(congrArg Tide.count htake :), (congrArg Tide.locked htake).trans hl, rfl⟩

/-- An order of a frame that the part has not got yet. -/
theorem takeOrder_new {first : Nat} {o : Order} (ht : o.typ ≠ 0) (hb : o.bad = false)
    (ha : o.target = s.tide.addr ∨ o.target = 0xFF) (hnew : ∀ n < 4, ∀ p, s.orderAt n = some p → p.id ≠ o.id) :
    (o.mark.toNat < first + 127 →
      (s.takeOrder first o).tide = { s.tide with ordLate := satInc s.tide.ordLate, lateOrder := true } ∧
      (s.takeOrder first o).ev.raised = s.ev.raised ++ [0x00C]) ∧
    (first + 127 ≤ o.mark.toNat → ∀ n, s.freeOrder = some n →
      (s.takeOrder first o).orderAt n = some o ∧
      ∀ m, m ≠ n → (s.takeOrder first o).orderAt m = s.orderAt m) := by
  rw [takeOrder_ours ht hb ha, if_neg (Bool.eq_false_iff.mp (holdsOrder_eq_false hnew))]
  constructor
  · intro hlate
    rw [if_pos hlate]
    exact ⟨rfl, rfl⟩
  · intro hmark n hn
    rw [if_neg (Nat.not_lt.mpr hmark), keepOrder_free hn]
    refine ⟨(orderAt_setOrder s n n _).trans (if_pos ⟨rfl, (freeOrder_some hn).1⟩), fun m hm => ?_⟩
    exact (orderAt_setOrder s n m _).trans (if_neg fun h => hm h.1.symm)

/-- An order of a frame that is not an empty slot. -/
theorem takeOrder_cases (first : Nat) (o : Order) (ht : o.typ ≠ 0) :
    let t := s.takeOrder first o
    (o.bad = true → t.tide = { s.tide with ordBad := satInc s.tide.ordBad }) ∧
    (o.bad = false → o.target ≠ s.tide.addr → o.target ≠ 0xFF → t = s) ∧
    (o.bad = false → o.target = s.tide.addr ∨ o.target = 0xFF →
      ((∃ n < 4, ∃ p, s.orderAt n = some p ∧ p.id = o.id) → t = s) ∧
      ((∀ n < 4, ∀ p, s.orderAt n = some p → p.id ≠ o.id) → o.mark.toNat < first + 127 →
        t.tide = { s.tide with ordLate := satInc s.tide.ordLate, lateOrder := true } ∧
        t.ev.raised = s.ev.raised ++ [0x00C]) ∧
      ((∀ n < 4, ∀ p, s.orderAt n = some p → p.id ≠ o.id) → first + 127 ≤ o.mark.toNat → ∀ n, s.freeOrder = some n →
        t.orderAt n = some o ∧ ∀ m, m ≠ n → t.orderAt m = s.orderAt m)) := by
  refine ⟨fun hb => by rw [takeOrder_bad ht hb], fun hb ha hall => takeOrder_elsewhere ht hb ha hall, fun hb ha =>
    ⟨fun hheld => ?_, fun hnew => (takeOrder_new s ht hb ha hnew).1, fun hnew => (takeOrder_new s ht hb ha hnew).2⟩⟩
  rw [takeOrder_ours ht hb ha, if_pos ((holdsOrder_iff s o.id).mpr hheld)]

/-- A step of the clock: one that another due step beats changes nothing, and any other asks for its
step. -/
theorem freqMark_cases {n : Nat} {o : Order} (h : s.actsNow n otFREQ = some o) :
    ((∃ d ∈ s.dueOrders, d.typ = otFREQ ∧ (o.mark.toNat < d.mark.toNat ∨ d.mark = o.mark ∧ o.id.toNat < d.id.toNat)) →
      (s.freqMark n).pwr = s.pwr) ∧
    ((∀ d ∈ s.dueOrders, d.typ = otFREQ → d.mark.toNat < o.mark.toNat ∨ d.mark = o.mark ∧ d.id.toNat ≤ o.id.toNat) →
      (s.freqMark n).pwr.planned.toNat = min 16 (fldN o.arg 0 5) ∧
      let want := min (min 16 (fldN o.arg 0 5)) (min s.pwr.tceil.toNat s.pwr.pceil.toNat)
      (want ≤ s.pwr.step.toNat ∨ railOf want ≤ s.pwr.railUv → (s.freqMark n).pwr.step.toNat = want) ∧
      (s.pwr.step.toNat < want → s.pwr.railUv < railOf want →
        (s.freqMark n).pwr.step = s.pwr.step ∧ (s.freqMark n).pwr.stepDue = true)) := by
  constructor
  · intro hbeat
    rw [freqMark_pwr h, if_pos ((beaten_iff s o).mpr hbeat)]
  · intro hfirst
    rw [freqMark_steps h hfirst, ← wanted_planStep]
    refine ⟨by rw [takeStep_planned, toNat_planStep], fun hwant => takeStep_step hwant, fun hlow hrail => ?_⟩
    rw [takeStep_waits hlow hrail]
    exact ⟨rfl, rfl⟩

end

/-- Settles O60: a frame by whether it is good and the receiver locked; an order by the checks of R49;
and the order of each type that acts now. -/
theorem tideFramesAndOrders : Obligations.TideFramesAndOrders := by
  unfold Obligations.TideFramesAndOrders
  intro s
  refine ⟨fun h => congrArg Host.Outcome.next (takeFrame_none h),
    fun h hr => congrArg Host.Outcome.next (takeFrame_resumes h hr), fun h hr => ?_, takeOrder_cases s, fun n => ?_⟩
  · exact ⟨s.takeFrame, rfl, tideFrame_judged s h hr⟩
  · refine ⟨fun h => congrArg Host.Outcome.next (haltMark_none h), fun h => congrArg Host.Outcome.next (freqMark_none h),
      fun h => congrArg Host.Outcome.next (slackMark_none h), fun h => congrArg Host.Outcome.next (handoverMark_none h),
      fun o h => ⟨s.haltMark n, rfl, haltMark_halts n.isLt h⟩, fun o h => ?_, fun o h => ?_,
      fun o h => ⟨s.handoverMark n, rfl, handoverMark_passes h⟩⟩
    · obtain ⟨hbeaten, hacts⟩ := freqMark_cases s h
      exact ⟨fun hbeat => ⟨s.freqMark n, rfl, hbeaten hbeat⟩, fun hfirst => ⟨s.freqMark n, rfl, hacts hfirst⟩⟩
    · obtain ⟨hmark, hover, hend, hcount⟩ := slackMark_opens n.isLt h
      refine ⟨s.slackMark n, rfl, hmark, hover, hend, fun c hc hst => hcount c hc ?_⟩
      rcases hst with hst | hst | hst | hst <;> rw [hst] <;> rfl

end Sys2Proof.Machine
end

section
/-! PROOFS. The reset values of the tables. -/
namespace Sys2Proof.Machine

/-- Every channel resets to the one reset value. -/
theorem chan_reset (c : Chn) : State.reset.chan c = Chan.reset := by
  match c with
  | 0 => rfl
  | 1 => rfl
  | 2 => rfl
  | 3 => rfl

/-- Settles O2: each value is read off the reset state, that of a channel once for the four. -/
theorem resetState : Obligations.ResetState := by
  unfold Obligations.ResetState
  refine ⟨?_, by decide, rfl⟩
  refine ⟨rfl, rfl, rfl, rfl, rfl, rfl, fun c => ?_, rfl, rfl, rfl, rfl, rfl, rfl, rfl, rfl, rfl, rfl, rfl, rfl, rfl,
    rfl, rfl, rfl, rfl, rfl, rfl, rfl, rfl, rfl, rfl, rfl, rfl, rfl⟩
  rw [chan_reset]
  exact ⟨rfl, rfl, rfl, rfl, rfl, rfl, rfl, rfl⟩

end Sys2Proof.Machine
end

section
/-! PROOFS. The grade is what it was when all that was owed from the boundary before has been settled. -/
namespace Sys2Proof.Machine

theorem channels_of_four {s t : State} (h : t.four = s.four) : t.channels = s.channels := by
  rw [State.channels, h, State.channels]

section
variable (s : State)

/-! ### Frames, loss and hold -/

theorem lose_four : s.lose.four = s.four := by
  unfold State.lose
  split
  · exact (sameButOrders_releaseListed _).four.trans (tideEntry_four _ _ _)
  · rfl

theorem releaseHold_four : s.releaseHold.four = s.four := by
  unfold State.releaseHold
  split
  · split <;> rfl
  · rfl

/-! ### Orders at their marks -/

theorem haltMark_four (n : Nat) : (s.haltMark n).four = s.four := by
  cases h : s.actsNow n otHALT with
  | none => rw [haltMark_none h]
  | some o =>
    rw [haltMark_acts h, (sameButOrders_freeSlot _ n).four]
    exact foldl_keeps State.four (f := State.haltChan) (fun _ _ => rfl) _ _

theorem freqMark_four (n : Nat) : (s.freqMark n).four = s.four := by
  unfold State.freqMark
  split
  · split
    · exact (sameButOrders_freeSlot _ n).four
    · exact (sameButOrders_freeSlot _ n).four
  · rfl

theorem slackMark_four (n : Nat) : (s.slackMark n).four = s.four := by
  cases h : s.actsNow n otSLACK with
  | none => rw [slackMark_none h]
  | some o =>
    rw [slackMark_acts h, (sameButOrders_releaseListed _).four]
    exact congrArg Prod.fst (openWindow_span (s.withoutWindow o) o.mark (w64 (s.spanOf o)))

theorem passRole_four (o : Order) : (s.passRole o).four = s.four := by
  unfold State.passRole
  dsimp only
  split
  · rw [tideEntry_four]
  · split
    · rfl
    · split
      · rw [tideEntry_four]
        rfl
      · rfl

theorem handoverMark_four (n : Nat) : (s.handoverMark n).four = s.four := by
  cases h : s.actsNow n otHANDOVER with
  | none => rw [handoverMark_none h]
  | some o => rw [handoverMark_acts h, passRole_four, (sameButOrders_freeSlot s n).four]

theorem applyDue_four : s.applyDue.four = s.four := by
  unfold State.applyDue State.applyMarks
  rw [foldl_keeps State.four handoverMark_four, foldl_keeps State.four slackMark_four,
    foldl_keeps State.four freqMark_four, foldl_keeps State.four haltMark_four]

/-! ### The rail and the window -/

theorem arriveRail_four : s.arriveRail.four = s.four := by
  unfold State.arriveRail
  split <;> rfl

theorem slackMove_four : s.slackMove.four = s.four := congrArg Prod.fst (slackMove_span s)

theorem deferTasks_four : s.deferTasks.four = s.four :=
  foldl_keeps State.four (fun t k => (sameButOrders_attachTask t k).four) _ _

theorem closeWindow_four : s.closeWindow.four = s.four := by
  unfold State.closeWindow
  split <;> rfl

theorem endSpan_four : s.endSpan.four = s.four := by
  unfold State.endSpan
  split
  · rw [closeWindow_four, slackMove_four, deferTasks_four]
  · rfl

/-! ### Channels switched off, faults, and the end of service -/

theorem chanOff_four (c : Chn) : (s.chanOff c).four = s.four := by
  rcases chanOff_cases s c with h | ⟨-, -, seam, h⟩ <;> rw [h]
  rfl

theorem dueChOff_four : s.dueChOff.four = s.four := by
  refine foldl_keeps State.four (fun t c => ?_) _ s
  split
  · exact chanOff_four _ c
  · rfl

theorem logRecord_four (x : BitVec 512) : (s.logRecord x).1.four = s.four := by
  unfold State.logRecord
  dsimp only
  split <;> rfl

theorem recordFault_four (r : FaultRec) : (s.recordFault r).four = s.four := by
  unfold State.recordFault
  split
  · exact logRecord_four s _
  · dsimp only
    split
    · split <;> rfl
    · exact logRecord_four _ _

theorem flushFaults_four : s.flushFaults.four = s.four := by
  unfold State.flushFaults
  split
  · rfl
  · exact foldl_keeps State.four recordFault_four _ _

theorem stopAll_four : s.stopAll.four = s.four := by
  refine foldl_keeps State.four (fun t c => ?_) _ s
  rfl

theorem dropHeld_four : s.dropHeld.four = s.four := by
  refine foldl_keeps State.four (fun t c => foldl_keeps State.four (fun u q => ?_) _ t) _ s
  split <;> rfl

theorem quiesceMove_four : s.quiesceMove.four = s.four := by
  unfold State.quiesceMove
  split
  · rfl
  · have hidle : (if s.serviceIdle then s.stopAll else s).four = s.four := by
      split
      · exact stopAll_four s
      · rfl
    dsimp only
    generalize (if s.serviceIdle then s.stopAll else s) = t at hidle
    have hdown : (if t.downLimitPassed then t.dropHeld else t).four = s.four := by
      split
      · exact (dropHeld_four t).trans hidle
      · exact hidle
    generalize (if t.downLimitPassed then t.dropHeld else t) = u at hdown
    split
    · exact hdown
    · split
      · exact (foldl_keeps State.four (fun v l => (sameButJournal_issueSnoop v l).four) _ _).trans hdown
      · exact hdown

theorem settle_four : s.settle.four = s.four := by
  unfold State.settle
  dsimp only
  rw [quiesceMove_four, flushFaults_four, dueChOff_four, endSpan_four, slackMove_four, arriveRail_four,
    applyDue_four, releaseHold_four, lose_four, takeFrame_four]

end

end Sys2Proof.Machine
end

section
/-! PROOFS. What a tick counts (R36, R37), and how loss and hold begin and end (R57, R59, R60). -/
namespace Sys2Proof.Machine

/-- What neither the tide's line nor its journal touches. -/
def State.base (s : State) : Bool × Quad Chan × Recov := (s.four, s.chans, s.recov)

/-- What of the line outlives the frames that it gathers and sends. -/
def TideLine.jump (l : TideLine) : Option W64 × Bool × Bool := (l.resume, l.firstFrame, l.pendingFail)

theorem tideEntry_base (s : State) (loss relock : Bool) : (s.tideEntry loss relock).base = s.base := by
  simp only [State.base, tideEntry_four, tideEntry_chans, tideEntry_recov]

/-! ### The count advances, or jumps -/

/-- At most the line has changed, and the part still looks for its handover's tick when it did. -/
structure OnLine (s t : State) : Prop where
  same : { t with line := s.line } = s
  pending : t.line.pendingFail = s.line.pendingFail

section
variable {s t u : State}

theorem OnLine.refl (s : State) : OnLine s s := ⟨rfl, rfl⟩

theorem OnLine.trans (h : OnLine s t) (h' : OnLine t u) : OnLine s u :=
  ⟨(congrArg (fun x : State => ({ x with line := s.line } : State)) h'.same).trans h.same,
    h'.pending.trans h.pending⟩

theorem OnLine.base (h : OnLine s t) : t.base = s.base := (congrArg State.base h.same :)
theorem OnLine.tide (h : OnLine s t) : t.tide = s.tide := (congrArg State.tide h.same :)

theorem onLine_placeOrder {typ target : Byte} {mark arg : W64} {moved : Bool}
    (h : s.placeOrder typ target mark arg = some (t, moved)) : OnLine s t := by
  obtain ⟨n, -, hn⟩ := Option.map_eq_some_iff.mp h
  obtain rfl := congrArg Prod.fst hn
  exact ⟨rfl, rfl⟩

theorem onLine_placeHalts (s : State) : OnLine s s.placeHalts := by
  unfold State.placeHalts
  split
  · exact .refl s
  · refine List.foldlRecOn (motive := OnLine s) _ _ (.refl s) fun t ht a _ => ht.trans ?_
    split
    · next h => exact (onLine_placeOrder h).trans ⟨rfl, rfl⟩
    · exact .refl t

theorem onLine_ageSending (s : State) : OnLine s s.ageSending := by
  unfold State.ageSending
  refine OnLine.trans ?_ (onLine_placeHalts _)
  exact ⟨rfl, rfl⟩

end

section
variable {s : State}

theorem driveAgain_base (s : State) : s.driveAgain.base = s.base := by
  unfold State.driveAgain
  split <;> rfl

theorem driveAgain_count (s : State) : s.driveAgain.tide.count = s.tide.count := by
  unfold State.driveAgain
  split <;> rfl

theorem driveAgain_pending (s : State) : s.driveAgain.line.pendingFail = s.line.pendingFail := by
  unfold State.driveAgain
  split <;> rfl

theorem advance_counts (h : s.line.resume = none) : s.advance.base = s.base ∧
    s.advance.tide.count = s.tide.count + 1 ∧ s.advance.line.pendingFail = s.line.pendingFail := by
  have hage := onLine_ageSending
    ({ s with tide := { s.tide with count := s.tide.count + 1 } } : State).driveAgain
  rw [State.advance, h]
  refine ⟨hage.base.trans (driveAgain_base _), ?_, hage.pending.trans (driveAgain_pending _)⟩
  rw [hage.tide]
  exact driveAgain_count _

/-- A promotion jumps to its resume count and drives the line (R61). -/
theorem advance_jumps {r : W64} (h : s.line.resume = some r) : s.advance.base = s.base ∧
    s.advance.tide = { s.tide with count := r, locked := false, role := rlMANAGER, driving := true } ∧
    s.advance.line.jump = (none, true, s.line.pendingFail) := by
  rw [State.advance, h]
  unfold State.promoted
  dsimp only
  refine ⟨tideEntry_base _ _ _, tideEntry_tide _ _ _, ?_⟩
  exact congrArg TideLine.jump (tideEntry_line _ _ _)

theorem advance_base (s : State) : s.advance.base = s.base := by
  cases h : s.line.resume with
  | none => exact (advance_counts h).1
  | some r => exact (advance_jumps h).1

end

/-! ### The tick slot -/

theorem saw_jump (l : TideLine) (good : Option W32) : (l.saw good).jump = l.jump := by
  cases good <;> rfl

theorem gather_jump (l : TideLine) (good : Option W32) (locked : Bool) (count : W64) :
    (l.gather good locked count).1.jump = l.jump := by
  unfold TideLine.gather
  dsimp only
  split
  · rfl
  · split
    · rfl
    · split
      · rfl
      · split <;> rfl

/-- What the receiver keeps of a slot, and what it counts. -/
def State.noteSlot (s : State) (slot : Option TickSlot) : State :=
  let good := s.judge slot s.tide.count
  let missing := good.isNone && s.tide.locked
  let line := s.line.saw good
  let g := if s.tide.role = rlSELF then (line, false) else line.gather good s.tide.locked s.tide.count
  { s with
    line := g.1
    tide := { s.tide with
      missing := if missing then satInc s.tide.missing else s.tide.missing
      frameBad := if g.2 then satInc s.tide.frameBad else s.tide.frameBad } }

section
variable {s : State} {slot : Option TickSlot}

theorem tickSlot_eq (s : State) (slot : Option TickSlot) :
    s.tickSlot slot = (s.noteSlot slot).checkHandover (s.judge slot s.tide.count).isSome := rfl

theorem noteSlot_jump (s : State) (slot : Option TickSlot) : (s.noteSlot slot).line.jump = s.line.jump := by
  unfold State.noteSlot
  dsimp only
  split
  · exact saw_jump _ _
  · exact (gather_jump _ _ _ _).trans (saw_jump _ _)

/-- An old manager that takes its role back, before the part says so. -/
def State.takeBack (s : State) : State := { s with
  tide := { s.tide with handoverFail := true, role := rlMANAGER }
  line := { s.line with pendingFail := false, driveDue := true, sendFrom := s.tide.count + 1 } }

theorem checkHandover_none {good : Bool} (h : s.line.pendingFail = false) : s.checkHandover good = s := by
  simp [State.checkHandover, h]

theorem checkHandover_good (h : s.line.pendingFail = true) :
    s.checkHandover true = ({ s with line := { s.line with pendingFail := false } } : State).noteRole true := by
  rw [State.checkHandover, h]
  rfl

theorem checkHandover_bad (h : s.line.pendingFail = true) :
    s.checkHandover false = ((s.takeBack.tideEntry false false).raise evHandoverFail).noteRole false := by
  rw [State.checkHandover, h]
  rfl

/-- No tick after the handover's mark: the old manager takes the role back (R63). -/
theorem checkHandover_fails (h : s.line.pendingFail = true) : (s.checkHandover false).base = s.base ∧
    (s.checkHandover false).tide = s.takeBack.tide ∧ (s.checkHandover false).line = s.takeBack.line := by
  have hentry := sameButJournal_tideEntry s.takeBack false false
  have hbase := tideEntry_base s.takeBack false false
  rw [checkHandover_bad h]
  generalize s.takeBack.tideEntry false false = t at hentry hbase
  exact ⟨hbase, hentry.tide, hentry.line⟩

/-- What the check of a handover leaves as it was. -/
theorem checkHandover_keeps (s : State) (good : Bool) : (s.checkHandover good).base = s.base ∧
    (s.checkHandover good).tide.count = s.tide.count ∧ (s.checkHandover good).line.resume = s.line.resume ∧
    (s.checkHandover good).line.firstFrame = s.line.firstFrame := by
  cases h : s.line.pendingFail with
  | false => rw [checkHandover_none h]; exact ⟨rfl, rfl, rfl, rfl⟩
  | true =>
    cases good with
    | true => rw [checkHandover_good h]; exact ⟨rfl, rfl, rfl, rfl⟩
    | false =>
      obtain ⟨hbase, htide, hline⟩ := checkHandover_fails h
      rw [htide, hline]
      exact ⟨hbase, rfl, rfl, rfl⟩

theorem tickSlot_keeps (s : State) (slot : Option TickSlot) : (s.tickSlot slot).base = s.base ∧
    (s.tickSlot slot).tide.count = s.tide.count ∧ (s.tickSlot slot).line.resume = s.line.resume ∧
    (s.tickSlot slot).line.firstFrame = s.line.firstFrame := by
  have hjump := noteSlot_jump s slot
  obtain ⟨hbase, hcount, hresume, hfirst⟩ :=
    checkHandover_keeps (s.noteSlot slot) (s.judge slot s.tide.count).isSome
  exact ⟨hbase, hcount, hresume.trans (congrArg (·.1) hjump), hfirst.trans (congrArg (·.2.1) hjump)⟩

theorem noteSlot_pending (s : State) (slot : Option TickSlot) :
    (s.noteSlot slot).line.pendingFail = s.line.pendingFail := congrArg (·.2.2) (noteSlot_jump s slot)

theorem tickSlot_quiet (slot : Option TickSlot) (h : s.line.pendingFail = false) :
    (s.tickSlot slot).tide.role = s.tide.role ∧ (s.tickSlot slot).tide.driving = s.tide.driving ∧
    (s.tickSlot slot).tide.locked = s.tide.locked := by
  rw [tickSlot_eq, checkHandover_none ((noteSlot_pending s slot).trans h)]
  exact ⟨rfl, rfl, rfl⟩

theorem tickSlot_fails (h : s.line.pendingFail = true) :
    (s.tickSlot none).tide.role = rlMANAGER ∧ (s.tickSlot none).tide.handoverFail = true ∧
    (s.tickSlot none).line.driveDue = true ∧ (s.tickSlot none).line.sendFrom = s.tide.count + 1 := by
  obtain ⟨-, htide, hline⟩ := checkHandover_fails ((noteSlot_pending s none).trans h)
  have hslot : s.tickSlot none = (s.noteSlot none).checkHandover false := rfl
  rw [hslot, htide, hline]
  exact ⟨rfl, rfl, rfl, rfl⟩

end

/-! ### Timers and firmware -/

/-- At most the stored orders and the next identifier have changed, of what a tick counts. -/
structure Asks (s t : State) : Prop where
  base : t.base = s.base
  tide : t.tide = { s.tide with orders := t.tide.orders }
  line : t.line = { s.line with nextId := t.line.nextId }

theorem Asks.refl (s : State) : Asks s s := ⟨rfl, rfl, rfl⟩

theorem Asks.trans {s t u : State} (h : Asks s t) (h' : Asks t u) : Asks s u :=
  ⟨h'.base.trans h.base,
    h'.tide.trans (congrArg (fun x : Tide => ({ x with orders := u.tide.orders } : Tide)) h.tide :),
    h'.line.trans (congrArg (fun x : TideLine => ({ x with nextId := u.line.nextId } : TideLine)) h.line :)⟩

theorem asks_ownTask (s : State) (k : SlackTask) (at_ : Option W64) : Asks s (s.ownTask k at_) := by
  obtain ⟨t, hst, htu⟩ := ownTask_sameBut s k at_
  refine ⟨?_, hst.tide ▸ htu.tide, hst.line ▸ htu.line⟩
  rw [State.base, htu.four, htu.chans, htu.recov, hst.four, hst.chans, hst.recov, State.base]

theorem asks_foldl {α : Type} {f : State → α → State} (hf : ∀ s x, Asks s (f s x)) (l : List α) (s : State) :
    Asks s (l.foldl f s) :=
  List.foldlRecOn (motive := Asks s) l f (.refl s) fun t ht x _ => ht.trans (hf t x)

theorem asks_firmwareTasks (s : State) : Asks s s.firmwareTasks := by
  have hcolumns : Asks s (if s.flt.autoSubst then s.columnsDue.foldl (fun s e =>
      if s.hasTask (.substitute e.1 e.2) then s else s.ownTask (.substitute e.1 e.2) none) s else s) := by
    split
    · refine asks_foldl (fun t e => ?_) _ s
      split
      · exact .refl t
      · exact asks_ownTask t _ _
    · exact .refl s
  unfold State.firmwareTasks
  refine hcolumns.trans (asks_foldl (fun t n => ?_) _ _)
  split
  · exact asks_ownTask t _ _
  · exact .refl t

end Sys2Proof.Machine
end

section
/-! PROOFS. A tick as a whole, and how loss and hold begin and end (R36, R37, R57 to R60, R63, R501). -/
namespace Sys2Proof.Machine

/-! ### Gate waits -/

section
variable {s t : State}

theorem openTicks_tickChan (s : State) (c : Chn) : ((s.tickChan c).chan c).gate.openTicks =
    (s.chan c).gate.openTicks +
      (if (s.chan c).gate.st = .gate ∧ ((s.chan c).gate.phase = .opening ∨ (s.chan c).gate.phase = .waitGate)
        then 1 else 0) := by
  unfold State.tickChan
  dsimp only
  rw [State.chan_modChan]
  dsimp only
  by_cases hst : (s.chan c).gate.st = .gate
  · cases hphase : (s.chan c).gate.phase <;> simp [hst]
  · simp [hst]

/-- The rail and the step are the power unit's. -/
theorem clocked_keeps (s : State) : ∃ p, s.slewRail.takeStep = { s with pwr := p } := by
  unfold State.takeStep State.slewRail
  exact ⟨_, rfl⟩

/-- The rail, and the timers of the part. -/
def State.tickPart (s : State) : State := s.slewRail.takeStep.tickTimers.pairWatch

theorem tickPart_base (s : State) : s.tickPart.four = s.four ∧ s.tickPart.chans = s.chans ∧
    s.tickPart.recov = { s.recov with
      saveTicks := s.recov.saveTicks + 1, ceTicks := s.recov.ceTicks + 1
      rollTicks := s.recov.rollTicks.map fun e => (e.1, e.2 + 1) } := by
  obtain ⟨p, hp⟩ := clocked_keeps s
  rw [State.tickPart, hp]
  exact ⟨rfl, rfl, rfl⟩

theorem tickPart_tide (s : State) : s.tickPart.tide = s.tide ∧ s.tickPart.line = s.line := by
  obtain ⟨p, hp⟩ := clocked_keeps s
  rw [State.tickPart, hp]
  exact ⟨rfl, rfl⟩

/-- The rail, and the timers of the part and of its channels. -/
def State.tickAll (s : State) : State := s.tickPart.channels.foldl State.tickChan s.tickPart

theorem afterBoundary_eq (s : State) (slot : Option TickSlot) :
    s.afterBoundary slot = (s.tickSlot slot).tickAll.firmwareTasks := by
  rw [State.afterBoundary, State.tickAll, State.tickPart]

theorem tickAll_tide (s : State) : s.tickAll.tide = s.tide :=
  (foldl_keeps State.tide (f := State.tickChan) (fun _ _ => rfl) s.tickPart.channels s.tickPart).trans
    (tickPart_tide s).1

theorem tickAll_line (s : State) : s.tickAll.line = s.line :=
  (foldl_keeps State.line (f := State.tickChan) (fun _ _ => rfl) s.tickPart.channels s.tickPart).trans
    (tickPart_tide s).2

theorem tickAll_recov (s : State) : s.tickAll.recov.ceTicks = s.recov.ceTicks + 1 ∧
    s.tickAll.recov.saveTicks = s.recov.saveTicks + 1 := by
  have hfold : s.tickAll.recov = s.tickPart.recov :=
    foldl_keeps State.recov (f := State.tickChan) (fun _ _ => rfl) s.tickPart.channels s.tickPart
  obtain ⟨-, -, hrecov⟩ := tickPart_base s
  rw [hfold, hrecov]
  exact ⟨rfl, rfl⟩

/-- Each channel of the part is ticked once. -/
theorem tickAll_openTicks {c : Chn} (hc : c ∈ s.channels) : (s.tickAll.chan c).gate.openTicks =
    (s.chan c).gate.openTicks +
      (if (s.chan c).gate.st = .gate ∧ ((s.chan c).gate.phase = .opening ∨ (s.chan c).gate.phase = .waitGate)
        then 1 else 0) := by
  obtain ⟨hfour, hchans, -⟩ := tickPart_base s
  have hchan : s.tickPart.chan c = s.chan c := by rw [State.chan, hchans, State.chan]
  unfold State.tickAll
  rw [channels_of_four hfour]
  generalize s.tickPart = u at hchan
  refine foldl_reaches (P := fun t => t.chan c = s.chan c) (Q := fun t => (t.chan c).gate.openTicks = _)
    (nodup_channels s) hc (fun t d hd ht => ?_) (fun t ht => ?_) (fun t d hd ht => ?_) hchan
  · exact (State.chan_modChan_other _ _ _ _ hd.symm).trans ht
  · rw [openTicks_tickChan, ht]
  · exact (congrArg (·.gate.openTicks) (State.chan_modChan_other _ _ _ _ hd.symm)).trans ht

/-! ### What follows the boundary -/

theorem afterBoundary_keeps (s : State) (slot : Option TickSlot) :
    let t := s.afterBoundary slot
    t.tide.count = s.tide.count ∧ t.line.resume = s.line.resume ∧ t.line.firstFrame = s.line.firstFrame := by
  have hasks := asks_firmwareTasks (s.tickSlot slot).tickAll
  obtain ⟨-, hcount, hresume, hfirst⟩ := tickSlot_keeps s slot
  dsimp only
  rw [afterBoundary_eq, hasks.tide, hasks.line, tickAll_tide, tickAll_line]
  exact ⟨hcount, hresume, hfirst⟩

theorem afterBoundary_timers (s : State) (slot : Option TickSlot) :
    let t := s.afterBoundary slot
    t.recov.ceTicks = s.recov.ceTicks + 1 ∧ t.recov.saveTicks = s.recov.saveTicks + 1 ∧
    ∀ c ∈ s.channels, (t.chan c).gate.openTicks = (s.chan c).gate.openTicks +
      (if (s.chan c).gate.st = .gate ∧ ((s.chan c).gate.phase = .opening ∨ (s.chan c).gate.phase = .waitGate)
        then 1 else 0) := by
  have hasks := (asks_firmwareTasks (s.tickSlot slot).tickAll).base
  obtain ⟨hbase, -, -, -⟩ := tickSlot_keeps s slot
  dsimp only
  rw [afterBoundary_eq]
  generalize s.tickSlot slot = u at hasks hbase
  obtain ⟨hfour, hchans, hrecov⟩ : u.four = s.four ∧ u.chans = s.chans ∧ u.recov = s.recov := by
    simpa only [State.base, Prod.mk.injEq] using hbase
  obtain ⟨-, hchans', hrecov'⟩ : u.tickAll.firmwareTasks.four = u.tickAll.four ∧
      u.tickAll.firmwareTasks.chans = u.tickAll.chans ∧ u.tickAll.firmwareTasks.recov = u.tickAll.recov := by
    simpa only [State.base, Prod.mk.injEq] using hasks
  obtain ⟨hce, hsave⟩ := tickAll_recov u
  rw [hrecov', hce, hsave, hrecov]
  refine ⟨rfl, rfl, fun c hc => ?_⟩
  have hchan : s.chan c = u.chan c := by rw [State.chan, State.chan, hchans]
  rw [State.chan, hchans', hchan]
  exact tickAll_openTicks (channels_of_four hfour ▸ hc)

theorem afterBoundary_quiet (slot : Option TickSlot) (h : s.line.pendingFail = false) :
    let t := s.afterBoundary slot
    t.tide.role = s.tide.role ∧ t.tide.driving = s.tide.driving ∧ t.tide.locked = s.tide.locked := by
  dsimp only
  rw [afterBoundary_eq, (asks_firmwareTasks _).tide, tickAll_tide]
  dsimp only
  exact tickSlot_quiet slot h

theorem afterBoundary_fails (h : s.line.pendingFail = true) :
    let t := s.afterBoundary none
    t.tide.role = rlMANAGER ∧ t.tide.handoverFail = true ∧ t.line.driveDue = true ∧
    t.line.sendFrom = s.tide.count + 1 := by
  have hasks := asks_firmwareTasks (s.tickSlot none).tickAll
  dsimp only
  rw [afterBoundary_eq, hasks.tide, hasks.line, tickAll_tide, tickAll_line]
  dsimp only
  exact tickSlot_fails h

/-! ### The tick -/

/-- The boundary and what follows it, from a part that owes nothing. -/
theorem advance_ticks (s : State) (slot : Option TickSlot) :
    let t := s.advance.afterBoundary slot
    (s.line.resume = none → t.tide.count = s.tide.count + 1) ∧
    (∀ r, s.line.resume = some r → t.tide.count = r ∧ t.line.resume = none ∧ t.line.firstFrame = true ∧
      (s.line.pendingFail = false → t.tide.role = rlMANAGER ∧ t.tide.driving = true ∧ t.tide.locked = false)) ∧
    (s.line.resume = none → s.line.pendingFail = true → slot = none → t.tide.role = rlMANAGER ∧
      t.tide.handoverFail = true ∧ t.line.driveDue = true ∧ t.line.sendFrom = t.tide.count + 1) ∧
    t.recov.ceTicks = s.recov.ceTicks + 1 ∧ t.recov.saveTicks = s.recov.saveTicks + 1 ∧
    ∀ c ∈ s.channels, (t.chan c).gate.openTicks = (s.chan c).gate.openTicks +
      (if (s.chan c).gate.st = .gate ∧ ((s.chan c).gate.phase = .opening ∨ (s.chan c).gate.phase = .waitGate)
        then 1 else 0) := by
  obtain ⟨hcount, hresume, hfirst⟩ := afterBoundary_keeps s.advance slot
  obtain ⟨hce, hsave, hopen⟩ := afterBoundary_timers s.advance slot
  obtain ⟨hfour, hchans, hrecov⟩ : s.advance.four = s.four ∧ s.advance.chans = s.chans ∧
      s.advance.recov = s.recov := by
    simpa only [State.base, Prod.mk.injEq] using advance_base s
  have hchan (c : Chn) : s.advance.chan c = s.chan c := by rw [State.chan, hchans, State.chan]
  refine ⟨fun hnone => ?_, fun r hr => ?_, fun hnone hpend hslot => ?_, by rw [hce, hrecov], by rw [hsave, hrecov],
    fun c hc => ?_⟩
  · rw [hcount]
    exact (advance_counts hnone).2.1
  · obtain ⟨-, htide, hjump⟩ := advance_jumps hr
    obtain ⟨hnext, hflag, hpend⟩ : s.advance.line.resume = none ∧ s.advance.line.firstFrame = true ∧
        s.advance.line.pendingFail = s.line.pendingFail := by
      simpa only [TideLine.jump, Prod.mk.injEq] using hjump
    refine ⟨by rw [hcount, htide], hresume.trans hnext, hfirst.trans hflag, fun hquiet => ?_⟩
    obtain ⟨hrole, hdrive, hlock⟩ := afterBoundary_quiet slot (hpend.trans hquiet)
    rw [hrole, hdrive, hlock, htide]
    exact ⟨rfl, rfl, rfl⟩
  · obtain ⟨-, -, hpend'⟩ := advance_counts hnone
    subst hslot
    obtain ⟨hrole, hfail, hdrive, hsend⟩ := afterBoundary_fails (hpend'.trans hpend)
    exact ⟨hrole, hfail, hdrive, by rw [hsend, hcount]⟩
  · rw [← hchan c]
    exact hopen c (channels_of_four hfour ▸ hc)

theorem promoteJump_jumps {r : W64} (h : s.settle.line.resume = some r) :
    s.promoteJump.tide.count = r ∧ s.promoteJump.line.firstFrame = true := by
  unfold State.promoteJump
  dsimp only
  generalize s.settle = u at h ⊢
  obtain ⟨-, hjumps, -⟩ := advance_ticks u (u.advance.tideOut.map fun w => ⟨0, w⟩)
  obtain ⟨hcount, -, hfirst, -⟩ := hjumps r h
  exact ⟨hcount, hfirst⟩

/-! ### Loss, and the end of a hold -/

theorem releaseListed_orderAt {n : Nat} {o : Order} (h : s.releaseListed.orderAt n = some o) :
    s.orderAt n = some o ∨ o.typ = otSLACK := by
  unfold State.releaseListed at h
  split at h
  · exact Or.inl h
  · split at h
    · next t hstore =>
      obtain ⟨k, p, -, htyp, -, -, -, rfl⟩ := storeOrder_stores hstore
      have hset : (s.setOrder k (some p)).orderAt n = some o := h
      rw [orderAt_setOrder] at hset
      split at hset
      · obtain rfl := Option.some.inj hset
        exact Or.inr htyp
      · exact Or.inl hset
    · exact Or.inl h

/-- The orders that a worker keeps when it declares loss: the handovers are gone (R57). -/
theorem getD_map_keep {v : Slots} {n : Nat} {o : Order}
    (h : (v.map fun o => if isHandover o then none else o).getD n none = some o) : o.typ ≠ otHANDOVER := by
  have hn : n < 4 := Slots.lt_of_getD h
  have hkeep : (if isHandover v[n] then none else v[n]) = some o := by simpa [Vector.getD, hn] using h
  split at hkeep
  · exact nomatch hkeep
  · next hnot =>
    intro htyp
    rw [hkeep] at hnot
    exact hnot (decide_eq_true htyp)

/-- A locked worker has seen 16 missing ticks in a row. -/
def State.isLost (s : State) : Prop := s.tide.role = rlWORKER ∧ s.tide.locked = true ∧ 16 ≤ s.line.missRun

/-- The part as loss leaves it, before it says so. -/
def State.loses (s : State) : State := { s with
  tide := { s.tide with
    locked := false, loss := true, hold := true, lossAt := s.tide.count
    orders := s.tide.orders.map fun o => if isHandover o then none else o }
  line := { s.line.dropFrame with releaseAt := none } }

theorem lose_none (h : ¬ s.isLost) : s.lose = s := by
  refine if_neg fun hcond => h ?_
  simpa [State.isLost, and_assoc] using hcond

theorem lose_acts (h : s.isLost) : s.lose = ((s.loses.tideEntry true false).raise evTideLoss).releaseListed :=
  if_pos (by simpa [State.isLost, and_assoc] using h)

theorem lose_holds (h : s.isLost) :
    s.lose.tide.locked = false ∧ s.lose.tide.loss = true ∧ s.lose.tide.hold = true ∧
    s.lose.tide.lossAt = s.tide.count ∧ s.lose.tide.count = s.tide.count ∧ 0x008 ∈ s.lose.ev.raised ∧
    ∀ n o, s.lose.orderAt n = some o → o.typ ≠ otHANDOVER := by
  have hentry := (sameButJournal_tideEntry s.loses true false).tide
  rw [lose_acts h]
  generalize s.loses.tideEntry true false = t at hentry
  have hraised : 0x008 ∈ (t.raise evTideLoss).ev.raised := List.mem_append_right _ (List.mem_singleton_self _)
  have htide : (t.raise evTideLoss).tide = s.loses.tide := hentry
  generalize t.raise evTideLoss = u at hraised htide
  have hkeep := sameButOrders_releaseListed u
  refine ⟨?_, ?_, ?_, ?_, ?_, hkeep.ev ▸ hraised, fun n o ho => ?_⟩
  · rw [hkeep.tide, htide]
    rfl
  · rw [hkeep.tide, htide]
    rfl
  · rw [hkeep.tide, htide]
    rfl
  · rw [hkeep.tide, htide]
    rfl
  · rw [hkeep.tide, htide]
    rfl
  · rcases releaseListed_orderAt ho with hold | hslack
    · rw [State.orderAt, htide] at hold
      exact getD_map_keep hold
    · rw [hslack]
      decide

theorem releaseHold_acts {r : W64} (h : s.line.releaseAt = some r) (hr : r.toNat ≤ s.tide.count.toNat) :
    s.releaseHold = { s with tide := { s.tide with hold := false }, line := { s.line with releaseAt := none } } := by
  rw [State.releaseHold, h]
  exact if_pos hr

theorem releaseHold_waits (h : ∀ r, s.line.releaseAt = some r → s.tide.count.toNat < r.toNat) :
    s.releaseHold = s := by
  unfold State.releaseHold
  split
  · next r hr => exact if_neg (Nat.not_le.mpr (h r hr))
  · rfl

end

/-- Settles O59: the tick by what the boundary does to a part that owes nothing, its channels being those
of the part before; loss and the end of a hold by their conditions. -/
theorem tideTicks : Obligations.TideTicks := by
  unfold Obligations.TideTicks
  intro s
  have hstays (slot : Option TickSlot) (h : s.tideRuns = false) : exec (.tideTick slot) s = .next s :=
    congrArg Host.Outcome.next (if_neg (Bool.eq_false_iff.mp h))
  have hticks (slot : Option TickSlot) (h : s.tideRuns = true) :
      exec (.tideTick slot) s = .next (s.settle.advance.afterBoundary slot) :=
    (congrArg Host.Outcome.next (if_pos h)).trans (by rw [State.tick])
  have hexec : exec .tidePromoteJump s = execTidePromoteJump s := rfl
  refine ⟨hstays, fun slot h => ?_, fun h => ?_, fun r h hline hr => ?_, ⟨fun h => ?_, fun h => ?_⟩,
    fun r h hr => ?_, fun h => ?_⟩
  · obtain ⟨hcount, hjump, hfail, hce, hsave, hopen⟩ := advance_ticks s.settle slot
    have hchannels : s.settle.channels = s.channels := channels_of_four (settle_four s)
    rw [hchannels] at hopen
    exact ⟨s.settle.advance.afterBoundary slot, hticks slot h, hcount, hjump, hfail, hce, hsave, hopen⟩
  · have hnot : ¬ (s.tideRuns && s.line.resume.isSome) = true := by rcases h with h | h <;> simp [h]
    rw [hexec, execTidePromoteJump, if_neg hnot]
  · have hjump : (s.tideRuns && s.line.resume.isSome) = true := by simp [h, Option.isSome_iff_ne_none, hline]
    exact ⟨s.promoteJump, by rw [hexec, execTidePromoteJump, if_pos hjump], promoteJump_jumps hr⟩
  · exact congrArg Host.Outcome.next (lose_none h)
  · exact ⟨s.lose, rfl, lose_holds h⟩
  · exact ⟨s.releaseHold, rfl, by rw [releaseHold_acts h hr], by rw [releaseHold_acts h hr],
      by rw [releaseHold_acts h hr]⟩
  · exact congrArg Host.Outcome.next (releaseHold_waits h)

end Sys2Proof.Machine
end

section
/-! PROOFS. What applying the outcome of a cell operation leaves in the state: the cell and the changes
due are the outcome's, its faults are recorded, and its beats are on the links (R81, R97). -/
namespace Sys2Proof.Machine

/-! ### What counting, sending and driving leave in a channel -/

/-- The cells of a channel and the changes due in them. -/
def Chan.cellPart (ch : Chan) : Smap Cell × List Due := (ch.cells, ch.dues)

section
variable (s : State) (k : CellId) (c : Chn) (cy off ce ue link : Nat) (l : Latched)

/-! A part `p` of a channel that no count of drops or codewords, no sum and no beat belongs to. -/

section
variable {α : Type} (p : Chan → α) (hregs : ∀ ch r, p { ch with regs := r } = p ch)
  (hcodes : ∀ ch r, p { ch with regs2 := r } = p ch) (hsums : ∀ ch r, p { ch with sums := r } = p ch)
  (hlinks : ∀ ch r, p { ch with links := r } = p ch) (hdrain : ∀ ch r, p { ch with drainOut := r } = p ch)

include hcodes in
theorem countCell_keeps : p ((s.countCell k ce ue).chan c) = p (s.chan c) := by
  have hcount (i : Option Nat) : p ((s.modChan k.ch fun ch => ch.countCodes i ce ue).chan c) = p (s.chan c) :=
    State.modChan_keeps p (f := fun ch => ch.countCodes i ce ue) (fun ch => hcodes ch _) s k.ch c
  unfold State.countCell
  split
  · rfl
  · simp only
    split <;> exact hcount _

include hregs in
theorem seamDrop_keeps (d : Chn) (u : Nat) (seam : Bool) :
    p ((s.seamDrop k d off l link u seam).chan c) = p (s.chan c) :=
  State.modChan_keeps p (f := fun ch => { ch with regs := if seam then _ else _ }) (fun ch => hregs ch _) s k.ch c

include hregs hlinks hdrain in
theorem send_keeps (e : QEntry) : p ((s.send k cy off l link e).chan c) = p (s.chan c) := by
  unfold State.send
  split
  · rfl
  · split
    · exact State.modChan_keeps p (f := fun ch => { ch with drainOut := _ }) (fun ch => hdrain ch _) s _ c
    · split
      · exact State.modChan_keeps p (f := fun ch => { ch with links := _ }) (fun ch => hlinks ch _) s _ c
      · exact seamDrop_keeps s k c off link l p hregs ..

include hregs hsums in
theorem driveSum_keeps (b : SumBeat) : p ((s.driveSum k cy off l b).chan c) = p (s.chan c) := by
  have hsum (d : Chn) (x : SumOnLane) :
      p ((s.modChan d fun ch => { ch with sums := ch.sums ++ [x] }).chan c) = p (s.chan c) :=
    State.modChan_keeps p (f := fun ch => { ch with sums := ch.sums ++ [x] }) (fun ch => hsums ch _) s d c
  unfold State.driveSum
  split
  · exact hsum _ _
  · split
    · split
      · exact hsum _ _
      · exact seamDrop_keeps s k c off 5 l p hregs ..
    · rfl

end

theorem countCell_newFaults : (s.countCell k ce ue).newFaults = s.newFaults := by
  unfold State.countCell
  split
  · rfl
  · simp only
    split <;> rfl

/-! ### Beats sent -/

variable {s k c cy off l link}

/-- A beat that is on a link stays there while another is sent. -/
theorem mem_links_send {b : LinkBeat} (e : QEntry) (h : b ∈ (s.chan c).links) :
    b ∈ ((s.send k cy off l link e).chan c).links := by
  have happend (d : Chn) (x : LinkBeat) :
      b ∈ ((s.modChan d fun ch => { ch with links := ch.links ++ [x] }).chan c).links := by
    by_cases hd : c = d
    · subst hd
      simp [h]
    · simpa [State.chan_modChan_other _ _ _ _ hd] using h
  unfold State.send
  split
  · exact h
  · split
    · rwa [State.modChan_keeps Chan.links (fun _ => by rfl)]
    · split
      · exact happend _ _
      · rwa [seamDrop_keeps _ _ _ _ _ _ Chan.links fun _ _ => rfl]

/-- A beat sent on a link inside the channel reaches the neighbour after the link's latency (R81). -/
theorem send_inside {n lat : Nat} {p : Port} (e : QEntry) (ht : linkTarget k link = some (k.ch, n, p, lat))
    (hp : p ≠ .drain) : (⟨cy + lat, n, p, e⟩ : LinkBeat) ∈ ((s.send k cy off l link e).chan k.ch).links := by
  simp [State.send, ht, hp]

/-! ### Faults recorded: a count that only grows -/

theorem newFaults_send (e : QEntry) : s.newFaults.length ≤ (s.send k cy off l link e).newFaults.length := by
  unfold State.send
  split
  · exact le_rfl
  · split
    · exact le_rfl
    · split
      · exact le_rfl
      · simp [State.seamDrop]

theorem newFaults_driveSum (b : SumBeat) : s.newFaults.length ≤ (s.driveSum k cy off l b).newFaults.length := by
  unfold State.driveSum
  split
  · exact le_rfl
  · split
    · split
      · exact le_rfl
      · simp [State.seamDrop]
    · exact le_rfl

end

/-! ### The steps of applying an outcome -/

/-- What an outcome changes in the channel of its cell. -/
def Chan.takeOut (ch : Chan) (k : CellId) (cy : Nat) (l : Latched) (u : Nat) (o : Out) : Chan :=
  Chan.ledgerAdd { ch.setCell k.num o.cell with
    dues := ch.dues ++ o.dues.map fun d => ⟨cy + d.1, k.num, u, l.srctag, l.addr, boolBit l.page, l.idx, d.2⟩
    sums := if o.sumTaken then takeSums ch.sums cy k.num else ch.sums
    gate := { ch.gate with
      checkedLanes := ch.gate.checkedLanes + w64 o.checked
      uncheckedLanes := ch.gate.uncheckedLanes + w64 o.unchecked }
    regs2 := { ch.regs2 with
      tallyChk := ch.regs2.tallyChk + w64 o.checked
      tallyUnchk := ch.regs2.tallyUnchk + w64 o.unchecked } } ldPopped o.popped

/-- The outcome entered in its channel and counted, before its faults, beats and sums. -/
def State.takeOut (s : State) (k : CellId) (l : Latched) (u : Nat) (o : Out) : State :=
  (s.modChan k.ch fun ch => ch.takeOut k s.cy l u o).countCell k o.ce o.ue

/-- The faults of an outcome, recorded. -/
def State.takeFaults (s : State) (k : CellId) (l : Latched) (off : Nat) (fs : List Flt) : State :=
  fs.foldl (fun s f => s.fault (s.cellRec k off l f)) s

/-- The beats of an outcome, sent in a cycle. -/
def State.sendAll (s : State) (k : CellId) (cy : Nat) (l : Latched) (off : Nat) (es : List (Nat × QEntry)) : State :=
  es.foldl (fun s e => s.send k cy off l e.1 e.2) s

/-- The sums of an outcome, driven east. -/
def State.driveOut (s : State) (k : CellId) (cy : Nat) (l : Latched) (off : Nat) (b : Option SumBeat) : State :=
  b.elim s (s.driveSum k cy off l)

section
variable (s : State) (k : CellId) (l : Latched) (off u : Nat) (o : Out)

theorem applyOut_eq : s.applyOut k l off u o =
    (((s.takeOut k l u o).takeFaults k l off o.faults).sendAll k s.cy l off o.sends).driveOut k s.cy l off
      o.sumOut := by
  obtain ⟨_, _, _, _, _, _, _, _, _, sumOut, _⟩ := o
  cases sumOut <;> rfl

theorem takeFaults_chans (fs : List Flt) : (s.takeFaults k l off fs).chans = s.chans :=
  foldl_keeps State.chans (f := fun s f => s.fault (s.cellRec k off l f)) (fun _ _ => rfl) fs s

theorem takeFaults_chan (fs : List Flt) (c : Chn) : (s.takeFaults k l off fs).chan c = s.chan c :=
  congrArg (Quad.get · c) (takeFaults_chans s k l off fs)

theorem takeFaults_newFaults (fs : List Flt) :
    (s.takeFaults k l off fs).newFaults.length = s.newFaults.length + fs.length := by
  induction fs generalizing s with
  | nil => rfl
  | cons f fs ih =>
    have h := ih (s.fault (s.cellRec k off l f))
    simp only [State.fault_newFaults, List.length_append, List.length_singleton] at h
    simp only [List.length_cons]
    exact h.trans (by omega)

theorem driveOut_cellPart (cy : Nat) (b : Option SumBeat) (c : Chn) :
    ((s.driveOut k cy l off b).chan c).cellPart = (s.chan c).cellPart := by
  cases b
  · rfl
  · exact driveSum_keeps _ _ _ _ _ _ Chan.cellPart (fun _ _ => rfl) (fun _ _ => rfl) _

theorem driveOut_links (cy : Nat) (b : Option SumBeat) (c : Chn) :
    ((s.driveOut k cy l off b).chan c).links = (s.chan c).links := by
  cases b
  · rfl
  · exact driveSum_keeps _ _ _ _ _ _ Chan.links (fun _ _ => rfl) (fun _ _ => rfl) _

theorem driveOut_newFaults (cy : Nat) (b : Option SumBeat) :
    s.newFaults.length ≤ (s.driveOut k cy l off b).newFaults.length := by
  cases b
  · exact le_rfl
  · exact newFaults_driveSum ..

theorem sendAll_cellPart (cy : Nat) (es : List (Nat × QEntry)) (c : Chn) :
    ((s.sendAll k cy l off es).chan c).cellPart = (s.chan c).cellPart :=
  foldl_keeps (fun s => (s.chan c).cellPart) (f := fun s (e : Nat × QEntry) => s.send k cy off l e.1 e.2) (fun s e =>
    send_keeps s k c cy off e.1 l Chan.cellPart (fun _ _ => rfl) (fun _ _ => rfl) (fun _ _ => rfl) e.2) es s

theorem sendAll_newFaults (cy : Nat) (es : List (Nat × QEntry)) :
    s.newFaults.length ≤ (s.sendAll k cy l off es).newFaults.length :=
  List.foldlRecOn (motive := fun t : State => s.newFaults.length ≤ t.newFaults.length) es _ le_rfl
    fun _ ht _ _ => ht.trans (newFaults_send _)

/-- Of the beats sent, each one for a link inside the channel is on that link (R81). -/
theorem mem_links_sendAll {cy : Nat} {es : List (Nat × QEntry)} {i n lat : Nat} {p : Port} {x : QEntry}
    (hi : (i, x) ∈ es) (ht : linkTarget k i = some (k.ch, n, p, lat)) (hp : p ≠ .drain) :
    (⟨cy + lat, n, p, x⟩ : LinkBeat) ∈ ((s.sendAll k cy l off es).chan k.ch).links := by
  obtain ⟨before, after, rfl⟩ := List.append_of_mem hi
  rw [State.sendAll, List.foldl_append, List.foldl_cons]
  exact List.foldlRecOn (motive := fun t : State => _ ∈ (t.chan k.ch).links) after _ (send_inside x ht hp)
    fun _ ht _ _ => mem_links_send _ ht

/-! ### What stands in the state when an outcome has been applied -/

theorem applyOut_cellPart (c : Chn) : ((s.applyOut k l off u o).chan c).cellPart =
    ((s.modChan k.ch fun ch => ch.takeOut k s.cy l u o).chan c).cellPart := by
  rw [applyOut_eq, driveOut_cellPart, sendAll_cellPart, takeFaults_chan, State.takeOut,
    countCell_keeps _ _ _ _ _ Chan.cellPart fun _ _ => rfl]

/-- The cell is as the outcome has it. -/
theorem applyOut_cell : (s.applyOut k l off u o).cell k = o.cell := by
  have h := congrArg Prod.fst (applyOut_cellPart s k l off u o k.ch)
  rw [State.chan_modChan] at h
  exact (congrArg (Smap.get Cell.reset · k.num) h).trans (Smap.get_upsert_same ..)

/-- The changes that the outcome makes due join those of the channel. -/
theorem applyOut_dues : ((s.applyOut k l off u o).chan k.ch).dues = (s.chan k.ch).dues ++
    o.dues.map fun d => ⟨s.cy + d.1, k.num, u, l.srctag, l.addr, boolBit l.page, l.idx, d.2⟩ := by
  have h := congrArg Prod.snd (applyOut_cellPart s k l off u o k.ch)
  rw [State.chan_modChan] at h
  exact h

/-- A change that the outcome makes due falls due. -/
theorem dueAt_applyOut {n : Nat} {e : CellEffect} (h : (n, e) ∈ o.dues) :
    (s.applyOut k l off u o).dueAt k (s.cy + n) e := by
  refine ⟨⟨s.cy + n, k.num, u, l.srctag, l.addr, boolBit l.page, l.idx, e⟩, ?_, rfl, rfl, rfl⟩
  rw [applyOut_dues]
  exact List.mem_append_right _ (List.mem_map.mpr ⟨_, h, rfl⟩)

/-- Each fault of the outcome is recorded. -/
theorem applyOut_newFaults :
    s.newFaults.length + o.faults.length ≤ (s.applyOut k l off u o).newFaults.length := by
  rw [applyOut_eq]
  refine le_trans (le_of_eq ?_) ((sendAll_newFaults ..).trans (driveOut_newFaults ..))
  rw [takeFaults_newFaults, State.takeOut, countCell_newFaults, State.modChan_newFaults]

theorem applyOut_newFaults_ne (h : o.faults ≠ []) : (s.applyOut k l off u o).newFaults ≠ s.newFaults := by
  intro heq
  have hgrow := applyOut_newFaults s k l off u o
  rw [heq] at hgrow
  exact h (by simpa using hgrow)

/-- A beat that the outcome sends inside the channel is on its link (R81). -/
theorem mem_links_applyOut {i n lat : Nat} {p : Port} {x : QEntry} (hi : (i, x) ∈ o.sends)
    (ht : linkTarget k i = some (k.ch, n, p, lat)) (hp : p ≠ .drain) :
    (⟨s.cy + lat, n, p, x⟩ : LinkBeat) ∈ ((s.applyOut k l off u o).chan k.ch).links := by
  rw [applyOut_eq, driveOut_links]
  exact mem_links_sendAll _ _ _ _ hi ht hp

end

/-! ### A slot applies its outcome to the cell with the slot marked -/

/-- The state in which an operation of a slot acts: the slot is marked. -/
def State.marked (s : State) (k : CellId) (slot : Nat) : State := s.setCell k ((s.cell k).markDone slot)

section
variable {s : State} {k : CellId} {slot u : Nat} {l : Latched}

@[simp] theorem chan_marked : (s.marked k slot).chan k.ch = (s.chan k.ch).setCell k.num ((s.cell k).markDone slot) := by
  simp [State.marked, State.setCell]

/-- What arrives at a cell does not depend on what the cell holds. -/
@[simp] theorem envOf_marked : (s.marked k slot).envOf k = s.envOf k := by
  unfold State.envOf
  rw [chan_marked]
  rfl

/-- A slot that holds the operation asked for applies what it does to the cell with the slot marked. -/
theorem runOut_flies (is : Latched → Bool) (f : Env → Latched → Out → Out) (h : s.flies k slot l)
    (hi : is l = true) :
    s.runOut k slot u is f =
      (s.marked k slot).applyOut k l (s.envOf k).off u (f (s.envOf k) l (s.begun k slot)) := by
  rw [State.runOut, runSlot_flies is _ h hi]
  simp only [State.cell_setCell]
  rw [← State.marked, envOf_marked]
  rfl

end

end Sys2Proof.Machine
end

section
/-! PROOFS. O7: a read that fails leaves no change due, and an operation whose read failed is that read. -/
namespace Sys2Proof.Machine

/-! ### Reading makes nothing due -/

section
variable (o : Out) (l : Latched) (v : VxWord) (f : Form)

theorem consume_dues (u base : Nat) (b : Bad) : (o.consume u base b).1.dues = o.dues := by
  unfold Out.consume
  split <;> rfl

theorem popIn_dues (q etag u : Nat) : (o.popIn l q etag u).1.dues = o.dues := by
  unfold Out.popIn
  split
  · rfl
  · dsimp only
    split <;> split <;> rfl

theorem readSrc_dues (x : Operand) : (o.readSrc l v f x).1.dues = o.dues := by
  unfold Out.readSrc
  split
  case h_1 => split <;> rfl
  case h_2 =>
    simp only
    split <;> exact consume_dues ..
  case h_3 n etag =>
    have hpop := popIn_dues o l n etag unVX
    split
    · rename_i h
      rwa [h] at hpop
    · rename_i h
      rw [h] at hpop
      exact (consume_dues ..).trans hpop
  all_goals rfl

/-- A source that the operation has (`b`) is read; another counts as zeros. -/
def Out.readIf (o : Out) (l : Latched) (v : VxWord) (f : Form) (b : Prop) [Decidable b] (x : Operand) :
    Out × Option Src := if b then o.readSrc l v f x else (o, some zeroSrc)

theorem readIf_dues (b : Prop) [Decidable b] (x : Operand) : (o.readIf l v f b x).1.dues = o.dues := by
  unfold Out.readIf
  split
  · exact readSrc_dues ..
  · rfl

/-- What the reads of an operation's sources leave: one after the other, whether or not one fails. -/
theorem readSrcs_fst (n : Nat) : (o.readSrcs l v f n).1 =
    (((o.readIf l v f (1 ≤ n) v.sa).1.readIf l v f (2 ≤ n) v.sb).1.readIf l v f (3 ≤ n) v.sc).1 := by
  unfold Out.readSrcs Out.readIf
  simp only
  split <;> rfl

theorem readSrcs_dues (n : Nat) : (o.readSrcs l v f n).1.dues = o.dues := by
  rw [readSrcs_fst, readIf_dues, readIf_dues, readIf_dues]

variable {o l v f} {o' : Out}

/-- With one source, that source's read has failed. -/
theorem readSrc_of_readSrcs_one (h : o.readSrcs l v f 1 = (o', none)) : o.readSrc l v f v.sa = (o', none) := by
  unfold Out.readSrcs at h
  rcases hr : o.readSrc l v f v.sa with ⟨o1, - | a⟩
  · simpa [hr] using h
  · simp [hr] at h

/-! ### Operations whose read failed -/

theorem elem_failed {n lat : Nat} {fout : Form} {fn : LaneFn} (h : o.readSrcs l v f n = (o', none)) :
    o.elem l v n f fout lat fn = o' := by
  simp [Out.elem, h]

theorem compare_failed (h : o.readSrcs l v (if v.ty = 1 then .i32 else .f32) 2 = (o', none)) :
    o.compare l v = o' := by
  simp [Out.compare, h]

theorem laneRed_failed {lat : Nat} (h : o.readSrcs l v (if v.ty = 1 then .i32 else .f32) 1 = (o', none)) :
    o.laneRed l v lat = o' := by
  simp [Out.laneRed, readSrc_of_readSrcs_one h]

end

/-! ### The rows of R191 that read sources -/

/-- The elementwise operations: opcode, sources, and the form in which they are read. -/
def elemRows (k : CellId) (form : Form) : List (Instr × Nat × Nat × Form) :=
  [(.vmov k, 0x01, 1, form), (.vsel k, 0x02, 3, form), (.vand k, 0x04, 2, .i32), (.vor k, 0x05, 2, .i32),
   (.vxor k, 0x06, 2, .i32), (.vandn k, 0x07, 2, .i32), (.vshl k, 0x08, 2, .i32), (.vshr k, 0x09, 2, .i32),
   (.vsar k, 0x0A, 2, .i32), (.viadd k, 0x0B, 2, .i32), (.visub k, 0x0C, 2, .i32), (.vimul k, 0x0D, 2, .i32),
   (.vmax k, 0x0E, 2, form), (.vmin k, 0x0F, 2, form), (.vadd k, 0x10, 2, .f32), (.vsub k, 0x11, 2, .f32),
   (.vmul k, 0x12, 2, .f32), (.vfma k, 0x13, 3, .f32), (.vabs k, 0x14, 1, .f32), (.vneg k, 0x15, 1, .f32),
   (.vdiv k, 0x16, 2, .f32), (.vsqrt k, 0x17, 1, .f32), (.vrcp k, 0x18, 1, .f32), (.vrsq k, 0x19, 1, .f32),
   (.vexp2 k, 0x1A, 1, .f32), (.vlog2 k, 0x1B, 1, .f32)]

/-- The lane reductions. -/
def laneRows (k : CellId) (form : Form) : List (Instr × Nat × Nat × Form) :=
  [(.vlsum k, 0x20, 1, form), (.vlprod k, 0x21, 1, form), (.vlmax k, 0x22, 1, form), (.vlmin k, 0x23, 1, form),
   (.vland k, 0x24, 1, form), (.vlor k, 0x25, 1, form), (.vlargmax k, 0x26, 1, form), (.vlargmin k, 0x27, 1, form)]

/-- The row runs an operation in the VX slot that, when the reads of its sources fail, is those reads. -/
def StopsOnBadSource (k : CellId) (v : VxWord) (e : Instr × Nat × Nat × Form) : Prop :=
  ∃ run : Latched → VxWord → Out → Out, (∀ s, exec e.1 s = s.onChan k.ch fun s => s.vxSlot k e.2.1 run) ∧
    ∀ l o o', o.readSrcs l v e.2.2.2 e.2.2.1 = (o', none) → run l v o = o'

section
variable {k : CellId} {v : VxWord} {e : Instr × Nat × Nat × Form}

theorem elemRow_stops (he : e ∈ elemRows k (formOf v.ty)) : StopsOnBadSource k v e := by
  simp only [elemRows, List.mem_cons, List.not_mem_nil, or_false] at he
  rcases he with rfl | rfl | rfl | rfl | rfl | rfl | rfl | rfl | rfl | rfl | rfl | rfl | rfl | rfl | rfl | rfl |
    rfl | rfl | rfl | rfl | rfl | rfl | rfl | rfl | rfl | rfl <;>
  exact ⟨_, fun _ => rfl, fun _ _ _ => elem_failed⟩

theorem vcmp_stops : StopsOnBadSource k v (.vcmp k, 0x1C, 2, if v.ty = 1 then .i32 else .f32) :=
  ⟨_, fun _ => rfl, fun _ _ _ => compare_failed⟩

theorem laneRow_stops (he : e ∈ laneRows k (if v.ty = 1 then .i32 else .f32)) : StopsOnBadSource k v e := by
  simp only [laneRows, List.mem_cons, List.not_mem_nil, or_false] at he
  rcases he with rfl | rfl | rfl | rfl | rfl | rfl | rfl | rfl <;>
  exact ⟨_, fun _ => rfl, fun _ _ _ => laneRed_failed⟩
end

/-- Settles O7: the reads of a failed operation are its whole outcome, and they make nothing due. -/
theorem failedSourceWritesNothing : Obligations.FailedSourceWritesNothing := by
  intro k s l o e v form form2 he hflies hop hread
  have hrow : StopsOnBadSource k v e := by
    have hsplit : e ∈ elemRows k (formOf v.ty) ++ (.vcmp k, 0x1C, 2, form2) :: laneRows k form2 := he
    rcases List.mem_append.mp hsplit with h | h
    · exact elemRow_stops h
    · rcases List.mem_cons.mp h with rfl | h
      · exact vcmp_stops
      · exact laneRow_stops h
  obtain ⟨run, hexec, hstop⟩ := hrow
  have hdues : o.dues = [] := by
    have h := readSrcs_dues (s.begun k slVX) l v e.2.2.2 e.2.2.1
    rwa [hread] at h
  refine ⟨_, (hexec s).trans ((onChan_present hflies.1).trans
    (congrArg _ (runOut_flies _ _ hflies (decide_eq_true hop)))), ?_⟩
  rw [hstop l _ _ hread]
  refine ⟨applyOut_cell .., ?_, fun hf heq => ?_⟩
  · rw [applyOut_dues, hdues]
    simp
  · exact applyOut_newFaults_ne _ _ _ _ _ _ hf heq

end Sys2Proof.Machine
end

section
/-! PROOFS. O14: which beats a route word pops, brings into the input queues and sends (R84, R85, R197). -/
namespace Sys2Proof.Machine

/-- The route word names an output queue as the source of a link. -/
def namesQueue (l : Latched) (q : Nat) : Prop := ∃ i ∈ [1, 2, 3, 4], rtSrc l.rt i = 8 + q

/-- The oldest beat of an output queue, as a link carries it: checked, with its tag. -/
def Cell.headBeat (c : Cell) (q : Nat) : Option QEntry :=
  (c.qout.getD q []).head?.map fun x => ⟨(Coded.check x.beat).1, x.tag⟩

section
variable {o : Out} {l : Latched} {q : Nat}

theorem any_namesQueue : ([1, 2, 3, 4].any fun i => decide (rtSrc l.rt i = 8 + q)) = true ↔ namesQueue l q := by
  simp only [List.any_eq_true, decide_eq_true_eq, namesQueue]

/-! ### Popping one output queue -/

theorem popOut_qout : (o.popOut l q).1.cell.qout = o.cell.qout := by
  unfold Out.popOut
  split <;> rfl

theorem popOut_snd : (o.popOut l q).2 = o.cell.headBeat q := by
  unfold Out.popOut Cell.headBeat
  split
  · rename_i h
    simp [h]
  · rename_i h
    simp [h]

theorem popOut_marks (hq : q < 8) (h : o.cell.qout.getD q [] ≠ []) :
    bitAt (o.popOut l q).1.cell.qoutPop q = true := by
  unfold Out.popOut
  split
  · exact absurd ‹_› h
  · exact (bitAt_setBit ..).trans (if_pos ⟨rfl, hq⟩)

theorem popOut_keeps_mark {p : Nat} (h : bitAt o.cell.qoutPop p = true) :
    bitAt (o.popOut l q).1.cell.qoutPop p = true := by
  unfold Out.popOut
  split
  · exact h
  · refine (bitAt_setBit ..).trans ?_
    split
    · rfl
    · exact h

end

/-! ### Popping the output queues in turn -/

section
variable {o : Out} {l : Latched} {q : Nat} {qs : List Nat}

theorem popOuts_names (h : namesQueue l q) : (o.popOuts l (q :: qs)).1 = ((o.popOut l q).1.popOuts l qs).1 ∧
    (o.popOuts l (q :: qs)).2 = ((o.popOut l q).2.map (q, ·)).toList ++ ((o.popOut l q).1.popOuts l qs).2 := by
  rw [Out.popOuts, if_pos (any_namesQueue.mpr h)]
  cases h : (o.popOut l q).2 <;> simp [h]

theorem popOuts_skips (h : ¬ namesQueue l q) : o.popOuts l (q :: qs) = o.popOuts l qs := by
  rw [Out.popOuts, if_neg (any_namesQueue.not.mpr h)]

theorem popOuts_keeps_mark {p : Nat} (h : bitAt o.cell.qoutPop p = true) :
    bitAt (o.popOuts l qs).1.cell.qoutPop p = true := by
  induction qs generalizing o with
  | nil => exact h
  | cons q qs ih =>
    by_cases hq : namesQueue l q
    · rw [(popOuts_names hq).1]
      exact ih (popOut_keeps_mark h)
    · rw [popOuts_skips hq]
      exact ih h

/-- Every queue named that holds a beat is marked as popped. -/
theorem popOuts_marks (hin : q ∈ qs) (hq : q < 8) (hn : namesQueue l q) (h : o.cell.qout.getD q [] ≠ []) :
    bitAt (o.popOuts l qs).1.cell.qoutPop q = true := by
  induction qs generalizing o with
  | nil => exact nomatch hin
  | cons p qs ih =>
    by_cases hp : namesQueue l p
    · rw [(popOuts_names hp).1]
      rcases List.mem_cons.mp hin with rfl | hin
      · exact popOuts_keeps_mark (popOut_marks hq h)
      · exact ih hin (by rwa [popOut_qout])
    · rw [popOuts_skips hp]
      rcases List.mem_cons.mp hin with rfl | hin
      · exact absurd hn hp
      · exact ih hin h

/-- The beat popped from a queue that is named is the queue's oldest. -/
theorem find_popOuts {x : QEntry} (hin : q ∈ qs) (hn : namesQueue l q) (h : o.cell.headBeat q = some x) :
    ((o.popOuts l qs).2.find? fun p => 8 + p.1 = q + 8).map (·.2) = some x := by
  induction qs generalizing o with
  | nil => exact nomatch hin
  | cons p qs ih =>
    have hnext : (o.popOut l p).1.cell.headBeat q = some x := by
      rwa [Cell.headBeat, popOut_qout]
    by_cases hp : namesQueue l p
    · rw [(popOuts_names hp).2, popOut_snd]
      by_cases hqp : p = q
      · subst hqp
        simp [h, Nat.add_comm]
      · have hne : 8 + p ≠ q + 8 := by omega
        have hin := (List.mem_cons.mp hin).resolve_left (Ne.symm hqp)
        cases o.cell.headBeat p <;> simpa [hne] using ih hin hnext
    · rw [popOuts_skips hp]
      rcases List.mem_cons.mp hin with rfl | hin
      · exact absurd hn hp
      · exact ih hin h

end

/-! ### Beats into the input queues -/

/-- The changes that bring beats into input queues at the end of the cycle. -/
def Out.arriveAll (o : Out) (e : Env) (w : BitVec 64) (qs : List Nat) : Out :=
  qs.foldl (fun (o : Out) q =>
    match e.into w q with
    | some x => o.due 0 (.arrive q x)
    | none => o) o

section
variable {o : Out} {e : Env} {w : BitVec 64} {q : Nat} {qs : List Nat} {x : QEntry}

theorem arriveAll_cell : (o.arriveAll e w qs).cell = o.cell :=
  List.foldlRecOn (motive := fun t : Out => t.cell = o.cell) qs _ rfl fun t ht q _ => by
    split <;> exact ht

theorem mem_arriveAll_of_mem {d : Nat × CellEffect} (h : d ∈ o.dues) : d ∈ (o.arriveAll e w qs).dues :=
  List.foldlRecOn (motive := fun t : Out => d ∈ t.dues) qs _ h fun t ht q _ => by
    split
    · exact List.mem_append_left _ ht
    · exact ht

/-- Each queue named takes its beat at the end of the cycle (R85). -/
theorem mem_arriveAll (hq : q ∈ qs) (hx : e.into w q = some x) : (0, .arrive q x) ∈ (o.arriveAll e w qs).dues := by
  obtain ⟨before, after, rfl⟩ := List.append_of_mem hq
  rw [Out.arriveAll, List.foldl_append, List.foldl_cons, hx]
  exact mem_arriveAll_of_mem (List.mem_append_right _ (List.mem_singleton_self _))

/-- The first of the inputs that names the queue and carries a beat (R85). -/
theorem into_eq_head (e : Env) (w : BitVec 64) (q : Nat) : e.into w q =
    ((if bitAt w (16 + q) then e.north else none).toList ++ (if bitAt w (24 + q) then e.east else none).toList ++
      (if bitAt w (32 + q) then e.south else none).toList ++ (if bitAt w (40 + q) then e.west else none).toList ++
      (if bitAt w (48 + q) then e.lend w else none).toList).head? := by
  simp only [Env.into, List.head?_append, Option.head?_toList, Option.or_assoc]

end

/-! ### Beats onto the links -/

/-- The beat that a source field names, before anything is popped (R197). -/
def Env.named (e : Env) (c : Cell) (w : BitVec 64) (v : Nat) : Option QEntry :=
  if v = 1 then e.north else if v = 2 then e.east else if v = 3 then e.south else if v = 4 then e.west
  else if v = 5 then e.lend w
  else if 8 ≤ v then c.headBeat (v - 8)
  else none

/-- The beats that a route word sends. -/
def routeSends (e : Env) (w : BitVec 64) (popped : List (Nat × QEntry)) : List (Nat × QEntry) :=
  [1, 2, 3, 4].filterMap fun i => (e.source w popped (rtSrc w i)).map fun x => (i, x)

section
variable {e : Env} {o : Out} {l : Latched}

theorem routeRun_eq (e : Env) (l : Latched) (o : Out) : routeRun e l o =
    { (o.popOuts l (List.range 8)).1.arriveAll e l.rt (List.range 8) with
      sends := routeSends e l.rt (o.popOuts l (List.range 8)).2 } := rfl

theorem rtSrc_lt (w : BitVec 64) (i : Nat) : rtSrc w i < 16 := Nat.mod_lt _ (by decide)

/-- A field below 8 names what arrives, whatever is popped. -/
theorem source_of_named_arriving {c : Cell} {w : BitVec 64} {popped : List (Nat × QEntry)} {x : QEntry} :
    ∀ {v : Nat}, v < 8 → e.named c w v = some x → e.source w popped v = some x
  | 0, _, h | 6, _, h | 7, _, h => nomatch h
  | 1, _, h | 2, _, h | 3, _, h | 4, _, h | 5, _, h => h

/-- The beat that a source field of the word names is the one that the link is sent (R197). -/
theorem source_of_named {i : Nat} {x : QEntry} (hi : i ∈ [1, 2, 3, 4])
    (h : e.named o.cell l.rt (rtSrc l.rt i) = some x) :
    e.source l.rt (o.popOuts l (List.range 8)).2 (rtSrc l.rt i) = some x := by
  rcases Nat.lt_or_ge (rtSrc l.rt i) 8 with hlt | hge
  · exact source_of_named_arriving hlt h
  · obtain ⟨q, hq⟩ := Nat.exists_eq_add_of_le hge
    have hq8 : q ∈ List.range 8 := List.mem_range.mpr (by have := rtSrc_lt l.rt i; omega)
    have hhead : o.cell.headBeat q = some x := by
      rw [hq, Nat.add_comm] at h
      simpa [Env.named] using h
    rw [hq, Nat.add_comm]
    exact find_popOuts hq8 ⟨i, hi, hq⟩ hhead

theorem mem_routeSends {popped : List (Nat × QEntry)} {i : Nat} {x : QEntry} (hi : i ∈ [1, 2, 3, 4])
    (h : e.source l.rt popped (rtSrc l.rt i) = some x) : (i, x) ∈ routeSends e l.rt popped :=
  List.mem_filterMap.mpr ⟨i, hi, by rw [h]; rfl⟩

end

/-- Settles O14: the pops, arrivals and sends of the route word, in the state that its outcome leaves. -/
theorem routeMovesBeats : Obligations.RouteMovesBeats := by
  intro k s l hflies c hfull e src into
  let o := routeRun e l (s.begun k slRT)
  have hexec : exec (.route k) s = .next ((s.marked k slRT).applyOut k l e.off unRT o) :=
    (onChan_present (f := fun s => s.runOut k slRT unRT (fun _ => true) routeRun) hflies.1).trans
      (congrArg _ (runOut_flies _ _ hflies rfl))
  have ho : o = _ := routeRun_eq e l (s.begun k slRT)
  refine ⟨_, hexec, fun q x hx => ?_, fun i hi n p lat x ht hp hx => ?_, fun q hq => ?_⟩
  · have hdue : (0, CellEffect.arrive q.val x) ∈ o.dues := by
      rw [ho]
      exact mem_arriveAll (List.mem_range.mpr q.isLt) ((into_eq_head e l.rt q.val).trans hx)
    exact dueAt_applyOut (n := 0) _ _ _ _ _ _ hdue
  · have hsend : (i, x) ∈ o.sends := by
      rw [ho]
      exact mem_routeSends hi (source_of_named hi hx)
    exact mem_links_applyOut _ _ _ _ _ _ hsend ht hp
  · rw [applyOut_cell, ho]
    refine (congrArg (fun c : Cell => bitAt c.qoutPop q.val) arriveAll_cell).trans ?_
    exact popOuts_marks (List.mem_range.mpr q.isLt) q.isLt hq (hfull q hq)

end Sys2Proof.Machine
end

section
/-! PROOFS. O18: barrier groups and flag trees (R90 to R94, R183, R200). -/
namespace Sys2Proof

theorem mem_insertNat {l : List Nat} {a n : Nat} : n ∈ insertNat l a ↔ n = a ∨ n ∈ l := by
  induction l with
  | nil => simp [insertNat]
  | cons b l ih =>
    rw [insertNat]
    split
    · rename_i h
      subst h
      simp
    · split
      · simp
      · simp only [List.mem_cons, ih]
        exact or_left_comm

namespace Machine

/-! ### A row of the CT slot -/

section
variable {s : State} {k : CellId} {slot : Nat} {l : Latched}

@[simp] theorem treeOf_marked (n : Nat) : (s.marked k slot).treeOf k n = s.treeOf k n := by
  rw [State.treeOf, chan_marked]
  rfl

/-- A CT slot that holds the operation asked for runs it with the slot marked. -/
theorem exec_ct {i : Instr} {op : Nat} {run : CellId → State → Latched → State}
    (hexec : exec i s = s.onChan k.ch fun s => s.ctSlot k op run) (h : s.flies k slCT l) (hop : ctOp l.ct = op) :
    exec i s = .next (run k (s.marked k slCT) l) :=
  hexec.trans ((onChan_present h.1).trans (congrArg _ (runSlot_flies _ _ h (decide_eq_true hop))))

end

/-! ### The release of a group -/

/-- A barrier group of a channel. -/
def Chan.groupOf (ch : Chan) (g : Nat) : Barrier := Smap.get Barrier.none_ ch.barriers g

section
variable {ch : Chan} {g cy : Nat}

theorem releaseGroup_due {r : Nat} (h : (ch.groupOf g).releaseAt = some r) (hr : r ≤ cy) :
    ch.releaseGroup g cy = { ch with
      barriers := Smap.upsert ch.barriers g { ch.groupOf g with latched := [], releaseAt := none }
      cells := wakeCells ch.cells g cy } := by
  unfold Chan.groupOf at h
  simp only [Chan.releaseGroup, h, if_pos hr]
  rfl

theorem releaseGroup_waits (h : ∀ r, (ch.groupOf g).releaseAt = some r → cy < r) : ch.releaseGroup g cy = ch := by
  unfold Chan.groupOf at h
  unfold Chan.releaseGroup
  simp only
  split
  · rename_i r hr
    exact if_neg (Nat.not_le.mpr (h r hr))
  · rfl

/-- Which groups are released does not depend on the cells. -/
theorem groupOf_releaseGroup_setCell (n : Nat) (v : Cell) :
    ((ch.setCell n v).releaseGroup g cy).groupOf g = (ch.releaseGroup g cy).groupOf g := by
  unfold Chan.releaseGroup
  rw [Chan.setCell_barriers]
  simp only
  split
  · split <;> rfl
  · rfl

theorem wakeCells_waitGroup {cells : Smap Cell} {e : Nat × Cell} (h : e ∈ wakeCells cells g cy) :
    e.2.seq.waitGroup ≠ some g := by
  obtain ⟨p, -, rfl⟩ := List.mem_map.mp h
  simp only
  split
  · exact fun h => nomatch h
  · assumption

end

theorem groupOf_release_marked (s : State) (k : CellId) (slot g : Nat) :
    (((s.marked k slot).releaseGroup k.ch g).chan k.ch).groupOf g = ((s.chan k.ch).releaseGroup g s.cy).groupOf g := by
  rw [State.releaseGroup, State.chan_modChan, chan_marked]
  exact groupOf_releaseGroup_setCell ..

/-! ### Arrivals and waits -/

section
variable {s : State} {k : CellId} {l : Latched} {g : Nat} {b : Barrier}

/-- A group after the arrival of a cell: its latch, and the release when it was the last. -/
def Barrier.arrive (b : Barrier) (n cy : Nat) : Barrier := { b with
  latched := insertNat b.latched n
  releaseAt := if b.members.all (insertNat b.latched n).contains then some (cy + treeLatency b.members.length) else none }

theorem mem_latched_arrive (b : Barrier) (n cy m : Nat) : m ∈ (b.arrive n cy).latched ↔ m = n ∨ m ∈ b.latched :=
  mem_insertNat

theorem full_iff (b : Barrier) (n : Nat) :
    b.members.all (insertNat b.latched n).contains = true ↔ ∀ m ∈ b.members, m = n ∨ m ∈ b.latched := by
  simp [List.all_eq_true, mem_insertNat]

theorem releaseAt_arrive_last {n cy : Nat} (h : ∀ m ∈ b.members, m = n ∨ m ∈ b.latched) :
    (b.arrive n cy).releaseAt = some (cy + treeLatency b.members.length) := if_pos ((full_iff b n).mpr h)

theorem releaseAt_arrive_early {n cy : Nat} (h : ∃ m ∈ b.members, m ≠ n ∧ m ∉ b.latched) :
    (b.arrive n cy).releaseAt = none := by
  refine if_neg fun hfull => ?_
  obtain ⟨m, hm, hne, hnot⟩ := h
  exact ((full_iff b n).mp hfull m hm).elim hne hnot

/-- What BARR does, by the group as it is once a release that is due has acted (R92, R93). -/
theorem barrRun_cases (hg : fldN l.ct 6 12 = g) (hb : ((s.releaseGroup k.ch g).chan k.ch).groupOf g = b) :
    barrRun k s l =
      if b.members.contains k.num = false then (s.releaseGroup k.ch g).syncFault k l scNONMEMBER g
      else if b.latched.contains k.num = true then (s.releaseGroup k.ch g).syncFault k l scREARRIVE g
      else (s.releaseGroup k.ch g).modChan k.ch fun ch => { ch with
        barriers := Smap.upsert ch.barriers g (b.arrive k.num s.cy) } := by
  subst hg hb
  simp only [barrRun, Bool.not_eq_true']
  rfl

/-- What BWAIT of a member does (R183). -/
theorem bwaitRun_member (hg : fldN l.ct 6 12 = g) (hb : ((s.releaseGroup k.ch g).chan k.ch).groupOf g = b)
    (hm : b.members.contains k.num = true) : bwaitRun k s l =
      (s.releaseGroup k.ch g).modCell k fun c => { c with seq := { c.seq with waitGroup := some g } } := by
  subst hg hb
  exact if_pos hm

end

/-! ### Contributions and readings of a flag tree -/

section
variable {s : State} {k : CellId} {l : Latched}

/-- The tree that a CT word names, for the cell. -/
def State.namedTree (s : State) (k : CellId) (l : Latched) : FlagTree := s.treeOf k (fldN l.ct 6 10)

@[simp] theorem namedTree_marked {slot : Nat} : (s.marked k slot).namedTree k l = s.namedTree k l := treeOf_marked _

theorem contribute_member (on : Bool) (hm : (s.namedTree k l).members.contains k.num = true) :
    ((contribute k s l on).namedTree k l).set_ = (if on then insertNat (s.namedTree k l).set_ k.num
      else (s.namedTree k l).set_.filter fun x => decide (x ≠ k.num)) ∧
    (contribute k s l on).newFaults = s.newFaults := by
  unfold State.namedTree at hm
  simp only [contribute, hm, if_true]
  refine ⟨?_, rfl⟩
  simp [State.namedTree, State.treeOf, FlagTree.note]

theorem contribute_nonmember (on : Bool) (hm : (s.namedTree k l).members.contains k.num = false) :
    contribute k s l on = s.syncFault k l scNONMEMBER (fldN l.ct 6 10) :=
  if_neg (Bool.eq_false_iff.mp hm)

theorem readTree_nonmember (and_ : Bool) (hm : (s.namedTree k l).members.contains k.num = false) :
    readTree k s l and_ = s.syncFault k l scNONMEMBER (fldN l.ct 6 10) :=
  if_neg (Bool.eq_false_iff.mp hm)

/-- A member's reading of a tree falls due as a mask, at the end of the cycle (R94, R200). -/
theorem readTree_member (and_ : Bool) (hm : (s.namedTree k l).members.contains k.num = true) :
    let v := (s.namedTree k l).deliver (s.envOf k).off
    (readTree k s l and_).dueAt k s.cy
      (.mask (fldN l.ct 16 3) (if (if and_ then v.2 else v.1) then BitVec.allOnes 32 else 0)) := by
  intro v
  have hrun : readTree k s l and_ = s.applyOut k l (s.envOf k).off unCT ((Out.none_ (s.cell k)).due 0
      (.mask (fldN l.ct 16 3) (if (if and_ then v.2 else v.1) then BitVec.allOnes 32 else 0))) := if_pos hm
  rw [hrun]
  exact dueAt_applyOut (n := 0) _ _ _ _ _ _ (List.mem_singleton_self _)

/-- In the first L block cycles the OR delivered is 0 and the AND is 1 (R94). -/
theorem deliver_early {x : FlagTree} {off : Nat} (h : off < treeLatency x.members.length) :
    x.deliver off = (false, true) := if_pos h

end

/-! ### The four barrier rows -/

section
variable {s : State} {k : CellId} {l : Latched} {b : Barrier}

/-- BARR: an arrival, a second arrival, and a cell that is no member (R91 to R93). -/
theorem barr_row (h : s.flies k slCT l) (hop : ctOp l.ct = 0x08)
    (hb : ((s.chan k.ch).releaseGroup (fldN l.ct 6 12) s.cy).groupOf (fldN l.ct 6 12) = b) :
    ∃ t : State, exec (.barr k) s = .next t ∧
      (b.members.contains k.num = true → b.latched.contains k.num = false →
        t.newFaults = s.newFaults ∧ (t.chan k.ch).groupOf (fldN l.ct 6 12) = b.arrive k.num s.cy) ∧
      (b.members.contains k.num = true → b.latched.contains k.num = true →
        ∃ r : FaultRec, t.newFaults = s.newFaults ++ [r] ∧ r.cls = 5 ∧ r.cause = 1) ∧
      (b.members.contains k.num = false →
        ∃ r : FaultRec, t.newFaults = s.newFaults ++ [r] ∧ r.cls = 5 ∧ r.cause = 8 ∧
          r.d0 = w64 (fldN l.ct 6 12) ∧ r.d1 = w64 k.num ∧ (t.chan k.ch).groupOf (fldN l.ct 6 12) = b) := by
  have hgroup := (groupOf_release_marked s k slCT (fldN l.ct 6 12)).trans hb
  refine ⟨_, (exec_ct rfl h hop).trans (congrArg _ (barrRun_cases rfl hgroup)), fun hm hl => ?_, fun hm hl => ?_,
    fun hm => ?_⟩
  · rw [if_neg (ne_false_of_eq_true hm), if_neg (ne_true_of_eq_false hl)]
    refine ⟨rfl, ?_⟩
    rw [State.chan_modChan]
    exact Smap.get_upsert_same ..
  · rw [if_neg (ne_false_of_eq_true hm), if_pos hl]
    exact ⟨_, rfl, rfl, rfl⟩
  · rw [if_pos hm]
    exact ⟨_, rfl, rfl, rfl, rfl, rfl, hgroup⟩

/-- BWAIT of a member waits for the group (R183). -/
theorem bwait_row (h : s.flies k slCT l) (hop : ctOp l.ct = 0x09)
    (hm : (((s.chan k.ch).releaseGroup (fldN l.ct 6 12) s.cy).groupOf (fldN l.ct 6 12)).members.contains k.num = true) :
    ∃ t : State, exec (.bwait k) s = .next t ∧ (t.cell k).seq.waitGroup = some (fldN l.ct 6 12) ∧
      t.newFaults = s.newFaults := by
  have hgroup := groupOf_release_marked s k slCT (fldN l.ct 6 12)
  refine ⟨_, (exec_ct rfl h hop).trans (congrArg _ (bwaitRun_member rfl hgroup hm)), ?_, rfl⟩
  rw [State.modCell, State.cell_setCell]

end

section
variable {s : State} {c : Chn} {g : Nat}

/-- A release that is due ends every wait and clears every latch (R92). -/
theorem barrierRelease_due (hc : s.hasChan c = true) {r : Nat} (h : ((s.chan c).groupOf g).releaseAt = some r)
    (hr : r ≤ s.cy) :
    ∃ t : State, exec (.barrierRelease c g) s = .next t ∧ ((t.chan c).groupOf g).latched = [] ∧
      (∀ e ∈ (t.chan c).cells, e.2.seq.waitGroup ≠ some g) ∧ onlyChan s t c := by
  have hchan : (s.releaseGroup c g).chan c = _ := (State.chan_modChan ..).trans (releaseGroup_due h hr)
  refine ⟨s.releaseGroup c g, onChan_present (f := fun s => s.releaseGroup c g) hc, ?_, fun e he => ?_, ?_⟩
  · rw [hchan]
    exact congrArg Barrier.latched (Smap.get_upsert_same ..)
  · rw [hchan] at he
    exact wakeCells_waitGroup he
  · simp [onlyChan, State.releaseGroup, State.modChan]

theorem barrierRelease_waits (hc : s.hasChan c = true)
    (h : ((s.chan c).groupOf g).releaseAt = none ∨ ∃ r, ((s.chan c).groupOf g).releaseAt = some r ∧ s.cy < r) :
    ∃ t : State, exec (.barrierRelease c g) s = .next t ∧ t.chan c = s.chan c := by
  refine ⟨s.releaseGroup c g, onChan_present (f := fun s => s.releaseGroup c g) hc,
    (State.chan_modChan ..).trans (releaseGroup_waits fun r hr => ?_)⟩
  rcases h with h | ⟨r', h, hlt⟩
  · exact absurd (h.symm.trans hr) (fun h => nomatch h)
  · exact Option.some.inj (h.symm.trans hr) ▸ hlt

end

/-! ### The four rows of flag trees -/

section
variable {s : State} {k : CellId} {l : Latched}

theorem fset_row (h : s.flies k slCT l) (hm : (s.namedTree k l).members.contains k.num = true)
    (hop : ctOp l.ct = 0x0A) : ∃ t : State, exec (.fset k) s = .next t ∧ t.newFaults = s.newFaults ∧
      ∀ m, m ∈ (t.namedTree k l).set_ ↔ m = k.num ∨ m ∈ (s.namedTree k l).set_ := by
  rw [← namedTree_marked (slot := slCT)] at hm ⊢
  obtain ⟨hset, hfaults⟩ := contribute_member true hm
  exact ⟨_, exec_ct rfl h hop, hfaults, fun m => (iff_of_eq (congrArg (m ∈ ·) hset)).trans mem_insertNat⟩

theorem fclr_row (h : s.flies k slCT l) (hm : (s.namedTree k l).members.contains k.num = true)
    (hop : ctOp l.ct = 0x0B) : ∃ t : State, exec (.fclr k) s = .next t ∧ t.newFaults = s.newFaults ∧
      ∀ m, m ∈ (t.namedTree k l).set_ ↔ m ≠ k.num ∧ m ∈ (s.namedTree k l).set_ := by
  rw [← namedTree_marked (slot := slCT)] at hm ⊢
  obtain ⟨hset, hfaults⟩ := contribute_member false hm
  refine ⟨_, exec_ct rfl h hop, hfaults, fun m => (iff_of_eq (congrArg (m ∈ ·) hset)).trans ?_⟩
  simp [and_comm]

/-- FRDO and FRDA of a member: the mask of what is delivered, and in the first L block cycles of 0 and 1. -/
theorem readTree_row {i : Instr} {op : Nat} {and_ : Bool}
    (hexec : exec i s = s.onChan k.ch fun s => s.ctSlot k op fun k s l => readTree k s l and_)
    (h : s.flies k slCT l) (hm : (s.namedTree k l).members.contains k.num = true) (hop : ctOp l.ct = op) :
    let v := (s.namedTree k l).deliver (s.envOf k).off
    ∃ t : State, exec i s = .next t ∧
      t.dueAt k s.cy (.mask (fldN l.ct 16 3) (if (if and_ then v.2 else v.1) then BitVec.allOnes 32 else 0)) ∧
      ((s.envOf k).off < treeLatency (s.namedTree k l).members.length →
        t.dueAt k s.cy (.mask (fldN l.ct 16 3) (if and_ then BitVec.allOnes 32 else 0))) := by
  intro v
  rw [← namedTree_marked (slot := slCT)] at hm
  have hdue := readTree_member and_ hm
  rw [namedTree_marked, envOf_marked] at hdue
  refine ⟨_, exec_ct hexec h hop, hdue, fun hoff => ?_⟩
  rw [deliver_early hoff] at hdue
  cases and_ <;> exact hdue

/-- A cell that is no member of the tree changes nothing of it and writes no mask (R94). -/
theorem tree_nonmember_row {i : Instr} {op : Nat} {run : CellId → State → Latched → State}
    (hexec : exec i s = s.onChan k.ch fun s => s.ctSlot k op run)
    (hrun : ∀ s, (s.namedTree k l).members.contains k.num = false →
      run k s l = s.syncFault k l scNONMEMBER (fldN l.ct 6 10))
    (h : s.flies k slCT l) (hm : (s.namedTree k l).members.contains k.num = false) (hop : ctOp l.ct = op) :
    ∃ (t : State) (r : FaultRec), exec i s = .next t ∧ t.newFaults = s.newFaults ++ [r] ∧ r.cls = 5 ∧ r.cause = 8 ∧
      r.d0 = w64 (fldN l.ct 6 10) ∧ r.d1 = w64 k.num ∧ (t.namedTree k l).set_ = (s.namedTree k l).set_ ∧
      (t.chan k.ch).dues = (s.chan k.ch).dues := by
  rw [← namedTree_marked (slot := slCT)] at hm
  refine ⟨_, _, (exec_ct hexec h hop).trans (congrArg _ (hrun _ hm)), rfl, rfl, rfl, rfl, rfl, ?_, ?_⟩
  · exact congrArg FlagTree.set_ namedTree_marked
  · exact (congrArg Chan.dues (chan_marked (slot := slCT)) :)

end

/-- Settles O18: each row of barriers and flag trees by what its operation does to the group or the tree. -/
theorem barriersAndFlagTrees : Obligations.BarriersAndFlagTrees := by
  refine ⟨fun k s l => ⟨fun h hop => ?_, fun h hop hm => bwait_row h hop hm, fun c g hc =>
    ⟨fun r h hr => barrierRelease_due hc h hr, fun h => barrierRelease_waits hc h⟩⟩,
    fun k s l h => ⟨fun hm => ⟨fset_row h hm, fclr_row h hm, readTree_row (and_ := false) rfl h hm,
      readTree_row (and_ := true) rfl h hm⟩, fun hm i op hi => ?_⟩⟩
  · obtain ⟨t, hexec, harrive, hrearrive, hother⟩ := barr_row h hop rfl
    refine ⟨fun hm hl => ?_, fun hm hl => ?_, fun hm => ?_⟩
    · obtain ⟨hfaults, hgroup⟩ := harrive hm hl
      refine ⟨t, hexec, hfaults, ?_⟩
      intro b'
      have hb' : b' = _ := hgroup
      clear_value b'
      subst hb'
      exact ⟨mem_latched_arrive _ _ _, rfl, releaseAt_arrive_last, releaseAt_arrive_early⟩
    · obtain ⟨r, hr⟩ := hrearrive hm hl
      exact ⟨t, r, hexec, hr⟩
    · obtain ⟨r, hr⟩ := hother hm
      exact ⟨t, r, hexec, hr⟩
  · simp only [List.mem_cons, Prod.mk.injEq, List.not_mem_nil, or_false] at hi
    obtain ⟨rfl, rfl⟩ | ⟨rfl, rfl⟩ | ⟨rfl, rfl⟩ | ⟨rfl, rfl⟩ := hi
    · exact tree_nonmember_row rfl (fun _ => contribute_nonmember true) h hm
    · exact tree_nonmember_row rfl (fun _ => contribute_nonmember false) h hm
    · exact tree_nonmember_row rfl (fun _ => readTree_nonmember false) h hm
    · exact tree_nonmember_row rfl (fun _ => readTree_nonmember true) h hm

end Machine
end Sys2Proof
end

section
/-! PROOFS. What reading index values and placing the elements of a beat leaves as it was (R305, R320), and
when a write of HDM lands at once (R444, R511). -/
namespace Sys2Proof.Machine

/-! ### The part of the state that reading does not touch -/

/-- The state but for the events raised and the memory-side dies, of which it holds what holds up a write:
whether the stack retrains, and which lines the host may hold. -/
def State.still (s : State) : State × (Nat → Bool × Smap (List Nat)) :=
  ({ s with mem := { s.mem with msd := MemSide.reset.msd }, ev := Events.reset },
    fun n => ((s.msd n).retraining, (s.msd n).snoop))

/-- What holds up a write at a die. -/
def MsdRegs.holds (d : MsdRegs) : Bool × Smap (List Nat) := (d.retraining, d.snoop)

section
variable {s t : State}

theorem still_modMsd {f : MsdRegs → MsdRegs} (hf : ∀ d, (f d).holds = d.holds) (s : State) (n : Nat) :
    (s.modMsd n f).still = s.still :=
  Prod.ext rfl (funext fun m => State.modMsd_keeps MsdRegs.holds hf s n m)

theorem chan_of_still (h : t.still = s.still) (c : Chn) : t.chan c = s.chan c :=
  congrArg (fun x : State × (Nat → Bool × Smap (List Nat)) => x.1.chan c) h
theorem hdm_of_still (h : t.still = s.still) : t.mem.hdm = s.mem.hdm :=
  congrArg (fun x : State × (Nat → Bool × Smap (List Nat)) => x.1.mem.hdm) h
theorem host_of_still (h : t.still = s.still) : t.host = s.host :=
  congrArg (fun x : State × (Nat → Bool × Smap (List Nat)) => x.1.host) h
theorem cxl_of_still (h : t.still = s.still) : t.cxl = s.cxl :=
  congrArg (fun x : State × (Nat → Bool × Smap (List Nat)) => x.1.cxl) h
theorem job_of_still (h : t.still = s.still) : t.job = s.job :=
  congrArg (fun x : State × (Nat → Bool × Smap (List Nat)) => x.1.job) h
theorem holds_of_still (h : t.still = s.still) (n : Nat) : (t.msd n).holds = (s.msd n).holds :=
  congrFun (congrArg Prod.snd h) n

end

/-! ### Reading index values -/

section
variable (s : State)

@[simp] theorem still_raise (e : Nat) : (s.raise e).still = s.still := rfl
@[simp] theorem still_raiseN (e n : Nat) : (s.raiseN e n).still = s.still := rfl

theorem still_countMsd (n ce ue : Nat) : (s.countMsd n ce ue).still = s.still := by
  unfold State.countMsd
  split
  · rfl
  · simp only
    split <;>
      · simp only [still_raise, still_raiseN]
        exact still_modMsd (fun _ => by rfl) s n

theorem still_checkHdm (addrs : List Nat) : (s.checkHdm addrs).still = s.still :=
  foldl_keeps State.still (fun s _ => still_countMsd s _ _ _) _ s

theorem bwRead_holds (shared : Bool) (d : MsdRegs) (line : Nat) : (bwRead shared d line).holds = d.holds := by
  unfold bwRead
  split
  · rfl
  · simp only
    split
    · rfl
    · split <;> rfl

theorem still_bwReads (shared : Bool) (addrs : List Nat) : (s.bwReads shared addrs).still = s.still :=
  foldl_keeps State.still (fun s _ => still_modMsd (fun d => bwRead_holds shared d _) s _) _ s

theorem still_indexReads (die : Nat) (shared : Bool) (addrs : List Nat) :
    (s.indexReads die shared addrs).still = s.still := by
  refine (still_modMsd ?_ _ _).trans ((still_bwReads _ _ _).trans (still_checkHdm _ _))
  exact fun _ => rfl

/-! ### Placing a beat -/

variable (die eng va n j beat : Nat) (td : TDesc) (write : Bool)

theorem still_translate : (s.translate die eng va write).1.still = s.still := by
  unfold State.translate
  simp only
  split
  · refine still_modMsd ?_ _ _
    exact fun _ => rfl
  · rfl

theorem still_vaBytes : (s.vaBytes die eng va n write).1.still = s.still := by
  unfold State.vaBytes
  simp only
  split
  · exact still_translate ..
  · split
    · exact still_translate ..
    · split <;> exact (still_translate ..).trans (still_translate ..)

theorem still_placeAt (logical : Nat) (cs : List Nat) (poison : Bool) :
    (s.placeAt die eng td write logical cs poison).1.still = s.still := by
  unfold State.placeAt
  simp only
  split <;> exact still_vaBytes ..

theorem still_indexValue (it : TDesc) (p : Nat) : (s.indexValue die eng it p).1.still = s.still :=
  still_vaBytes ..

theorem still_placeElem : (s.placeElem die eng td write j).1.still = s.still := by
  unfold State.placeElem
  simp only
  split
  · exact still_placeAt ..
  · have hvalue := still_indexValue s die eng (s.tensor (tdIndex td))
      ((tdCoords td (s.tdShape td) j).getD (tdIdim td) 0)
    split
    · rename_i h
      rwa [h] at hvalue
    · rename_i h
      rw [h] at hvalue
      split
      · exact (still_placeAt ..).trans hvalue
      · exact hvalue

theorem still_placeBeat : (s.placeBeat die eng td write beat).1.still = s.still := by
  unfold State.placeBeat
  refine List.foldlRecOn (motive := fun x : State × List (Loc × Nat) × Option Placed => x.1.still = s.still) _ _ rfl
    fun x hx i _ => ?_
  have helem := still_placeElem x.1 die eng (beat * (128 / fmtNibbles (tdFmt td)) + i) td write
  split
  · exact hx
  · split
    · rename_i h
      rw [h] at helem
      exact helem.trans hx
    · rename_i h
      rw [h] at helem
      exact helem.trans hx

end

/-! ### Writes that land at once -/

section
variable {s : State}

/-- A write lands at once where no stack retrains and the host holds no line (R444, R511). -/
theorem landsNow_of_holds (h : ∀ n, (s.msd n).holds = (false, [])) (ws : List ByteWrite) : s.landsNow ws = true := by
  have hretrain (n : Nat) : (s.msd n).retraining = false := congrArg Prod.fst (h n)
  have hsnoop (n : Nat) : (s.msd n).snoop = [] := congrArg Prod.snd (h n)
  simp [State.landsNow, State.snoopedLines, State.snooped, State.stackWait, hretrain, hsnoop, Smap.get, Smap.find?]

variable (s)

/-- Landing a write changes the memory side only. -/
theorem land_same (ws : List ByteWrite) : { s.land ws with mem := s.mem } = s :=
  foldl_keeps (fun t : State => { t with mem := s.mem })
    (f := fun s l => s.modMsd (l * 256 / stackBytes) fun d => bwWrite d (l % 2 ^ 28)) (fun _ _ => rfl) _ _

theorem land_chan (ws : List ByteWrite) (c : Chn) : (s.land ws).chan c = s.chan c :=
  (congrArg (fun t : State => t.chan c) (land_same s ws) :)
theorem land_host (ws : List ByteWrite) : (s.land ws).host = s.host :=
  (congrArg State.host (land_same s ws) :)

/-- The check of a beat sent to the host counts, and may record a fault (R354, R355). -/
theorem hostCheck_same (c : Chn) (q : Nat) (beat : Beat) (ws : List ByteWrite) :
    { s.hostCheck c q beat ws with flt := s.flt, ev := s.ev, newFaults := s.newFaults } = s := by
  unfold State.hostCheck
  split
  · rfl
  · simp only
    split <;> rfl

end

/-! ### Elements in HDM write nothing in host memory -/

theorem elemWrites_host_nil {beat : Beat} {nibbles i : Nat} {l : Loc} (h : l.host = false) :
    elemWrites beat nibbles i l true = [] := by
  have hnone : (l.bytes.zipIdx.filter fun b => b.1.1 = true) = [] := by
    refine List.filter_eq_nil_iff.mpr fun b hb => ?_
    have hbyte := List.any_eq_false.mp h b.1 (List.fst_mem_of_mem_zipIdx hb)
    simpa using hbyte
  rw [elemWrites, hnone]
  rfl

theorem beatWrites_host_nil {beat : Beat} {nibbles : Nat} {locs : List (Loc × Nat)}
    (h : ∀ l ∈ locs, l.1.host = false) : beatWrites beat nibbles locs true = [] :=
  List.flatMap_eq_nil_iff.mpr fun e he => elemWrites_host_nil (h e.1 (List.fst_mem_of_mem_zipIdx he))

end Sys2Proof.Machine
end

section
/-! PROOFS. O40: what a drain queue writes, and what a run of the edge plan does (R69, R89, R327 to R329, R333). -/
namespace Sys2Proof.Machine

/-! ### Queues of streams -/

section
variable {s : State} {c : Chn} {q : Nat}

@[simp] theorem dqOf_modDq (hq : q < 32) (f : DrainQ → DrainQ) : (s.modDq c q f).dqOf c q = f (s.dqOf c q) := by
  rw [State.dqOf, State.modDq, State.chan_modChan, Chan.modDq, getD_set!, if_pos ⟨rfl, hq⟩]
  rfl

@[simp] theorem modDq_job (f : DrainQ → DrainQ) : (s.modDq c q f).job = s.job := rfl

end

/-! ### The oldest beat of a drain queue -/

/-- The tensor that a stream of a channel writes. -/
def State.tensorOf (s : State) (c : Chn) (st : Strm) : TDesc := s.tensor (sdTensor (s.sdesc c st.desc))

/-- Where the index values of a drain stream's next beat lie. -/
def State.drainIndex (s : State) (c : Chn) (q : Nat) (st : Strm) : List (Bool × Nat) :=
  s.indexBytes (queueDie c true q) (q % 16) (s.tensorOf c st) (sdStart (s.sdesc c st.desc) + st.delivered)

/-- The elements of a drain stream's next beat, placed once its index values have been read. -/
def State.drainPlaces (s : State) (c : Chn) (q : Nat) (st : Strm) : State × List (Loc × Nat) × Option Placed :=
  (s.indexReads (queueDie c true q) (tdShared (s.tensor (tdIndex (s.tensorOf c st))))
    (hdmOf (s.drainIndex c q st))).placeBeat (queueDie c true q) (q % 16) (s.tensorOf c st) true
    (sdStart (s.sdesc c st.desc) + st.delivered)

/-- What the beat of a drain queue writes, in host memory or in HDM. -/
def DBeat.writes (b : DBeat) (t : TDesc) (locs : List (Loc × Nat)) (host : Bool) : List ByteWrite :=
  beatWrites (Coded.check b.beat).1 (fmtNibbles (tdFmt t)) locs host

/-- A drain queue's current stream stays where it is: halted or dead, before its turn among the drains, or with
index values that cannot be read. -/
def State.drainStays (s : State) (c : Chn) (q : Nat) (st : Strm) : Bool :=
  (s.dqOf c q).halted || st.dead || !s.drainsPassed c st || s.indexWaits (s.drainIndex c q st) || s.hasHeld 7

/-- The queue drops its oldest beat, which its stream has delivered. -/
def State.drainDrop (s : State) (c : Chn) (q : Nat) (st : Strm) (rest : List DBeat) : State :=
  s.modDq c q fun x => DrainQ.settle { x with
    beats := rest
    cur := some { st with next := st.next + 1, delivered := st.delivered + 1 } } (s.lenOf c)

/-- The beat's writes, counted where they are relayed, enter host memory and HDM (R327). -/
def State.drainPut (s : State) (c : Chn) (q : Nat) (b : DBeat) (put : Bool → List ByteWrite) : State :=
  let die := queueDie c true q
  let s := s.modMsd die fun m => { m with relay := m.relay + w64 (relays die ((put false).map ByteWrite.addr)) }
  ((s.hostWrites (put true)).hostCheck c q b.beat (put true)).land (put false)

section
variable {s s' : State} {c : Chn} {q : Nat} {st : Strm} {b : DBeat} {rest : List DBeat} {locs : List (Loc × Nat)}

theorem still_drainPlaces (s : State) (c : Chn) (q : Nat) (st : Strm) : (s.drainPlaces c q st).1.still = s.still :=
  (still_placeBeat ..).trans (still_indexReads ..)

theorem still_of_places {x : List (Loc × Nat) × Option Placed} (h : s.drainPlaces c q st = (s', x)) :
    s'.still = s.still := by
  have hstill := still_drainPlaces s c q st
  rwa [h] at hstill

section
variable (hcur : (s.dqOf c q).cur = some st) (hbeats : (s.dqOf c q).beats = b :: rest)
include hcur hbeats

theorem drainBeat_stays (h : s.drainStays c q st = true) : s.drainBeat c q = s := by
  unfold State.drainStays State.drainIndex State.tensorOf at h
  simp only [State.drainBeat, hcur, hbeats, h, if_true]

variable (hmay : s.drainStays c q st = false)
include hmay

/-- A page that cannot be used halts the stream (R333). -/
theorem drainBeat_page {cause va : Nat} (hgo : s.drainPlaces c q st = (s', locs, some (.page cause va))) :
    s.drainBeat c q = s'.haltDq c q cause va := by
  unfold State.drainStays State.drainIndex State.tensorOf at hmay
  unfold State.drainPlaces State.drainIndex State.tensorOf at hgo
  simp only [State.drainBeat, hcur, hbeats, hmay, hgo, Bool.false_eq_true, if_false]

/-- A beat whose elements can be reached leaves the queue and is written (R327). -/
theorem drainBeat_lands (hgo : s.drainPlaces c q st = (s', locs, none))
    (hplain : (tdDigest (s.tensorOf c st) && s'.job.active) = false)
    (hland : s'.landsNow (b.writes (s.tensorOf c st) locs false) = true)
    (hlink : (!s'.cxl.up && !(b.writes (s.tensorOf c st) locs true).isEmpty) = false) :
    s.drainBeat c q = (s'.drainDrop c q st rest).drainPut c q b (b.writes (s.tensorOf c st) locs) := by
  unfold State.drainStays State.drainIndex State.tensorOf at hmay
  unfold State.drainPlaces State.drainIndex State.tensorOf at hgo
  unfold State.tensorOf at hplain
  unfold DBeat.writes State.tensorOf at hland hlink
  simp only [State.drainBeat, hcur, hbeats, hmay, hgo, hland, hlink, State.modMsd_job, modDq_job, hplain,
    Bool.not_true, Bool.or_self, Bool.false_eq_true, if_false]
  rfl

end

/-! ### What is left of a beat that has been written -/

theorem chan_drainPut (put : Bool → List ByteWrite) : (s.drainPut c q b put).chan c = s.chan c :=
  (land_chan ..).trans (congrArg (fun t : State => t.chan c) (hostCheck_same ..) :)

theorem hdm_drainPut (put : Bool → List ByteWrite) :
    (s.drainPut c q b put).mem.hdm = s.mem.hdm.writeMarked (put false) := by
  have hcheck (t : State) (beat : Beat) (ws : List ByteWrite) : (t.hostCheck c q beat ws).mem = t.mem :=
    (congrArg State.mem (hostCheck_same t c q beat ws) :)
  rw [State.drainPut, land_hdm, hcheck]
  rfl

theorem host_drainPut (put : Bool → List ByteWrite) :
    (s.drainPut c q b put).host = (s.hostWrites (put true)).host :=
  (land_host ..).trans (congrArg State.host (hostCheck_same ..) :)

theorem beats_drainDrop (hq : q < 32) : ((s.drainDrop c q st rest).dqOf c q).beats = rest := by
  rw [State.drainDrop, dqOf_modDq hq]
  rfl

end

end Sys2Proof.Machine
end

section
/-! PROOFS. O40: the runs of the edge plan (R69, R89, R328, R329), and the statement. -/
namespace Sys2Proof.Machine

/-- What counting codewords of a channel leaves as it was there. -/
theorem countChan_keeps {α : Type} (p : Chan → α) (hcodes : ∀ ch r, p { ch with regs2 := r } = p ch) (s : State)
    (c d : Chn) (ce ue : Nat) : p ((s.countChan c ce ue).chan d) = p (s.chan d) := by
  unfold State.countChan
  split
  · rfl
  · exact State.modChan_keeps p (f := fun ch => ch.countCodes none ce ue) (fun ch => hcodes ch _) s c d

/-! ### When a run acts -/

/-- The run `r`, number `n` of the plan, has one of its own cycles, and has not acted in it (R329). -/
def State.edgeNow (s : State) (c : Chn) (n : Nat) (r : W128) : Prop :=
  let off := s.cy - (s.chan c).gate.releaseCy
  (s.chan c).gate.st = .running ∧ fldN r 0 32 ≤ off ∧ (off - fldN r 0 32) % fldN r 64 16 = 0 ∧
    (off - fldN r 0 32) / fldN r 64 16 < fldN r 32 32 ∧ n ∉ (s.chan c).edgeDone

/-- The run has acted in this cycle. -/
def State.edgeNoted (s : State) (c : Chn) (n : Nat) : State :=
  s.modChan c fun ch => { ch with edgeDone := ch.edgeDone ++ [n] }

section
variable {s : State} {c : Chn} {n : Nat} {r : W128}

theorem edgeRun_waits (hr : (s.edgePlan c)[n]? = some r) (h : ¬ s.edgeNow c n r) : s.edgeRun c n = s := by
  simp only [State.edgeRun, hr]
  exact if_neg fun hnow => h (by simpa [State.edgeNow, and_assoc] using hnow)

theorem edgeRun_acts (hr : (s.edgePlan c)[n]? = some r) (h : s.edgeNow c n r) : s.edgeRun c n =
    let off := s.cy - (s.chan c).gate.releaseCy
    let k := (off - fldN r 0 32) / fldN r 64 16
    if bitAt r 94 then (s.edgeNoted c n).drainIn c off (fldN r 80 8) (fldN r 88 6) n k
    else (s.edgeNoted c n).inject c off (fldN r 80 8) (fldN r 88 6) n k := by
  simp only [State.edgeRun, hr]
  exact if_pos (by simpa [State.edgeNow, and_assoc] using h)

theorem chan_edgeNoted : (s.edgeNoted c n).chan c =
    { s.chan c with edgeDone := (s.chan c).edgeDone ++ [n] } := State.chan_modChan ..

theorem sqOf_edgeNoted (q : Nat) : (s.edgeNoted c n).sqOf c q = s.sqOf c q := by
  rw [State.sqOf, chan_edgeNoted]
  rfl

theorem dqOf_edgeNoted (q : Nat) : (s.edgeNoted c n).dqOf c q = s.dqOf c q := by
  rw [State.dqOf, chan_edgeNoted]
  rfl

end

/-! ### Injections -/

/-- A beat goes into an edge port: a cell of row 0 by its north link, or a lend lane (R81, R87). -/
def Chan.intoPort (ch : Chan) (cy port : Nat) (e : QEntry) : Chan :=
  if port < 80 then { ch with links := ch.links ++ [⟨cy + 1, port, .north, e⟩] }
  else { ch with lends := ch.lends ++ [⟨cy + 4, 0, .lend (port = 81), e⟩] }

section
variable {s : State} {c : Chn} {off port q i k : Nat}

theorem inject_empty (h : (s.sqOf c q).beats = []) :
    s.inject c off port q i k = s.edgeFault c off 1 port q i k false := by
  rw [State.inject, h]

theorem intoPort_edgeDone (ch : Chan) (cy port : Nat) (e : QEntry) : (ch.intoPort cy port e).edgeDone = ch.edgeDone := by
  unfold Chan.intoPort
  split <;> rfl

theorem intoPort_sq (ch : Chan) (cy port : Nat) (e : QEntry) : (ch.intoPort cy port e).sq = ch.sq := by
  unfold Chan.intoPort
  split <;> rfl

/-- What an injection leaves in its channel (R328). -/
theorem chan_inject {b : SBeat} {rest : List SBeat} (h : (s.sqOf c q).beats = b :: rest) :
    let r := Coded.check b.entry.beat
    (s.inject c off port q i k).chan c =
      (((((s.countChan c r.2.ce r.2.ue).chan c).modSq q fun x => { x with beats := rest }).intoPort s.cy port
        ⟨r.1, b.entry.tag⟩).ledgerAdd ldEdgeIn 1).ledgerAdd ldCrReturned 1 := by
  simp only [State.inject, h, State.ledger, State.chan_modChan, State.modSq, State.modChan_cy, cy_countChan]
  rfl

theorem inject_moves {b : SBeat} {rest : List SBeat} (hq : q < 64) (h : (s.sqOf c q).beats = b :: rest) :
    let e : QEntry := ⟨(Coded.check b.entry.beat).1, b.entry.tag⟩
    let t := s.inject c off port q i k
    (t.sqOf c q).beats = rest ∧
      (port < 80 → (t.chan c).links = (s.chan c).links ++ [⟨s.cy + 1, port, .north, e⟩]) ∧
      (80 ≤ port → (t.chan c).lends = (s.chan c).lends ++ [⟨s.cy + 4, 0, .lend (port = 81), e⟩]) ∧
      (t.chan c).edgeDone = (s.chan c).edgeDone := by
  have hchan := chan_inject (off := off) (port := port) (i := i) (k := k) h
  have hkeeps {α : Type} (p : Chan → α) (hp : ∀ ch r, p { ch with regs2 := r } = p ch) :=
    countChan_keeps p hp s c c (Coded.check b.entry.beat).2.ce (Coded.check b.entry.beat).2.ue
  refine ⟨?_, fun hport => ?_, fun hport => ?_, ?_⟩
  · rw [State.sqOf, hchan, Chan.ledgerAdd_sq, Chan.ledgerAdd_sq, intoPort_sq, Chan.modSq, getD_set!, if_pos ⟨rfl, hq⟩]
  · rw [hchan, Chan.ledgerAdd_links, Chan.ledgerAdd_links, Chan.intoPort, if_pos hport]
    exact congrArg (· ++ _) (hkeeps Chan.links fun _ _ => rfl)
  · rw [hchan, Chan.ledgerAdd_lends, Chan.ledgerAdd_lends, Chan.intoPort, if_neg (Nat.not_lt.mpr hport)]
    exact congrArg (· ++ _) (hkeeps Chan.lends fun _ _ => rfl)
  · rw [hchan, Chan.ledgerAdd_edgeDone, Chan.ledgerAdd_edgeDone, intoPort_edgeDone]
    exact hkeeps Chan.edgeDone fun _ _ => rfl

/-! ### Drains -/

variable {o : Nat × Nat × QEntry}

/-- A beat that finds room enters the drain queue, for the block that is running (R327, R328). -/
theorem drainIn_room (hq : q < 32) (ho : (s.chan c).drainOut.find? (fun o => o.1 = s.cy && o.2.1 = port) = some o)
    (hroom : (s.dqOf c q).beats.length < (s.dqOf c q).cap) :
    ((s.drainIn c off port q i k).dqOf c q).beats =
      (s.dqOf c q).beats ++ [⟨(Coded.check o.2.2.beat).1, o.2.2.tag, (s.chan c).gate.seq⟩] := by
  have hkeeps {α : Type} (p : Chan → α) (hp : ∀ ch r, p { ch with regs2 := r } = p ch) :=
    countChan_keeps p hp s c c (Coded.check o.2.2.beat).2.ce (Coded.check o.2.2.beat).2.ue
  have hdq := hkeeps (fun ch => ch.dq.getD q DrainQ.reset) fun _ _ => rfl
  have hseq := hkeeps (fun ch => ch.gate.seq) fun _ _ => rfl
  simp only [State.drainIn, ho, if_pos hroom]
  rw [State.dqOf, State.ledger, State.chan_modChan, Chan.ledgerAdd_dq]
  refine (congrArg DrainQ.beats (dqOf_modDq hq _)).trans ?_
  rw [hseq]
  exact congrArg (fun x : DrainQ => x.beats ++ _) hdq

theorem drainIn_full (ho : (s.chan c).drainOut.find? (fun o => o.1 = s.cy && o.2.1 = port) = some o)
    (hfull : (s.dqOf c q).cap ≤ (s.dqOf c q).beats.length) :
    s.drainIn c off port q i k = s.edgeFault c off 2 port q i k true := by
  simp only [State.drainIn, ho, if_neg (Nat.not_lt.mpr hfull)]

end

/-! ### The rows -/

section
variable {s : State} {c : Chn} {q : Nat}

theorem exec_drainWrite (hc : s.hasChan c = true) (hq : q < 32) : exec (.drainWrite c q) s = .next (s.drainBeat c q) :=
  (onChan_present (f := fun s => if q < 32 then s.drainBeat c q else s) hc).trans (congrArg _ (if_pos hq))

theorem exec_edgePlanRun {n : Nat} (hc : s.hasChan c = true) :
    exec (.edgePlanRun c n) s = .next (s.edgeRun c n) :=
  onChan_present (f := fun s => s.edgeRun c n) hc

variable {s' : State} {st : Strm} {b : DBeat} {rest : List DBeat} {locs : List (Loc × Nat)}

theorem hostWrites_host {t : State} (h : t.host = s.host) (ws : List ByteWrite) :
    (t.hostWrites ws).host = (s.hostWrites ws).host := by
  simp only [State.hostWrites, h]

/-- A drain queue whose beat can be placed writes it and drops it. -/
theorem drainBeat_writes (hq : q < 32) (hcur : (s.dqOf c q).cur = some st) (hbeats : (s.dqOf c q).beats = b :: rest)
    (hmay : s.drainStays c q st = false) (hgo : s.drainPlaces c q st = (s', locs, none))
    (hlink : s.cxl.up = true ∨ ∀ l ∈ locs, l.1.host = false) (hholds : ∀ n, (s.msd n).holds = (false, []))
    (hplain : tdDigest (s.tensorOf c st) = false ∨ s.job.active = false) :
    let put := b.writes (s.tensorOf c st) locs
    ((s.drainBeat c q).dqOf c q).beats = rest ∧ (s.drainBeat c q).mem.hdm = s.mem.hdm.writeMarked (put false) ∧
      (s.drainBeat c q).host = (s.hostWrites (put true)).host := by
  intro put
  have hstill := still_of_places hgo
  have hland : s'.landsNow (put false) = true :=
    landsNow_of_holds (fun n => (holds_of_still hstill n).trans (hholds n)) _
  have hup : (!s'.cxl.up && !(put true).isEmpty) = false := by
    rw [cxl_of_still hstill]
    rcases hlink with h | h
    · simp [h]
    · simp [put, DBeat.writes, beatWrites_host_nil h]
  have hdigest : (tdDigest (s.tensorOf c st) && s'.job.active) = false := by
    rw [job_of_still hstill]
    rcases hplain with h | h <;> simp [h]
  rw [drainBeat_lands hcur hbeats hmay hgo hdigest hland hup]
  refine ⟨?_, ?_, ?_⟩
  · rw [State.dqOf, chan_drainPut]
    exact beats_drainDrop hq
  · rw [hdm_drainPut]
    exact congrArg (Mem.writeMarked · (put false)) (hdm_of_still hstill : s'.mem.hdm = s.mem.hdm)
  · rw [host_drainPut]
    exact hostWrites_host (host_of_still hstill : s'.host = s.host) _

/-- A drain queue whose beat meets a page that cannot be used halts, and raises STREAM_PAGE (R333). -/
theorem drainBeat_halts {cause va : Nat} (hq : q < 32) (hcur : (s.dqOf c q).cur = some st)
    (hbeats : (s.dqOf c q).beats = b :: rest) (hmay : s.drainStays c q st = false)
    (hgo : s.drainPlaces c q st = (s', locs, some (.page cause va))) :
    (s.drainBeat c q).mem.hdm = s.mem.hdm ∧
      (s.drainBeat c q).dqOf c q = { s.dqOf c q with halted := true, cause := BitVec.ofNat 3 cause, haltVA := va } ∧
      evChan c 3 ∈ (s.drainBeat c q).ev.raised := by
  have hstill := still_of_places hgo
  have hdq : s'.dqOf c q = s.dqOf c q := congrArg (fun ch : Chan => ch.dq.getD q DrainQ.reset) (chan_of_still hstill c)
  rw [drainBeat_page hcur hbeats hmay hgo]
  refine ⟨(hdm_of_still hstill : s'.mem.hdm = s.mem.hdm), ?_, List.mem_append_right _ (List.mem_singleton_self _)⟩
  rw [← hdq]
  exact dqOf_modDq hq _

end

section
variable {s : State} {c : Chn} {n : Nat} {r : W128} (hr : (s.edgePlan c)[n]? = some r) (h : s.edgeNow c n r)
include hr h

/-- A run that injects sends the head of its stream queue, and has then acted (R328). -/
theorem edgeRun_injects (hin : bitAt r 94 = false) {b : SBeat} {rest : List SBeat}
    (hbeats : (s.sqOf c (fldN r 88 6)).beats = b :: rest) :
    let e : QEntry := ⟨(Coded.check b.entry.beat).1, b.entry.tag⟩
    let t := s.edgeRun c n
    (t.sqOf c (fldN r 88 6)).beats = rest ∧
      ((fldN r 80 8 < 80 → (t.chan c).links = (s.chan c).links ++ [⟨s.cy + 1, fldN r 80 8, .north, e⟩]) ∧
        (80 ≤ fldN r 80 8 → (t.chan c).lends = (s.chan c).lends ++ [⟨s.cy + 4, 0, .lend (fldN r 80 8 = 81), e⟩])) ∧
      n ∈ (t.chan c).edgeDone := by
  intro e t
  have ht : t = _ := (edgeRun_acts hr h).trans (if_neg (ne_true_of_eq_false hin))
  obtain ⟨hsq, hlinks, hlends, hdone⟩ := inject_moves (off := s.cy - (s.chan c).gate.releaseCy) (port := fldN r 80 8)
    (i := n) (k := (s.cy - (s.chan c).gate.releaseCy - fldN r 0 32) / fldN r 64 16) (Nat.mod_lt _ (by decide))
    ((congrArg StreamQ.beats (sqOf_edgeNoted (n := n) _)).trans hbeats)
  rw [chan_edgeNoted] at hlinks hlends hdone
  rw [ht]
  exact ⟨hsq, ⟨hlinks, hlends⟩, hdone ▸ List.mem_append_right _ (List.mem_singleton_self _)⟩

/-- From an empty queue an injection raises QUEUE (R69). -/
theorem edgeRun_underflows (hin : bitAt r 94 = false) (hbeats : (s.sqOf c (fldN r 88 6)).beats = []) :
    ∃ x : FaultRec, (s.edgeRun c n).newFaults = s.newFaults ++ [x] ∧ x.cls = 2 ∧ x.cause = 1 ∧ x.unit_ = 10 ∧
      x.d0 = w64 (fldN r 88 6 + 256 * fldN r 80 8) := by
  rw [edgeRun_acts hr h]
  simp only [hin, Bool.false_eq_true, if_false]
  rw [inject_empty ((congrArg StreamQ.beats (sqOf_edgeNoted _)).trans hbeats)]
  exact ⟨_, rfl, rfl, rfl, rfl, rfl⟩

variable (hout : bitAt r 94 = true) {o : Nat × Nat × QEntry}
  (ho : (s.chan c).drainOut.find? (fun o => o.1 = s.cy && o.2.1 = fldN r 80 8) = some o)
include hout ho

omit hr h hout in
theorem find_edgeNoted : ((s.edgeNoted c n).chan c).drainOut.find?
    (fun o => o.1 = (s.edgeNoted c n).cy && o.2.1 = fldN r 80 8) = some o := by
  rw [chan_edgeNoted]
  exact ho

/-- A run that drains takes what its column sent into the drain queue (R328). -/
theorem edgeRun_drains (hq : fldN r 88 6 < 32)
    (hroom : (s.dqOf c (fldN r 88 6)).beats.length < (s.dqOf c (fldN r 88 6)).cap) :
    ((s.edgeRun c n).dqOf c (fldN r 88 6)).beats = (s.dqOf c (fldN r 88 6)).beats ++
      [⟨(Coded.check o.2.2.beat).1, o.2.2.tag, (s.chan c).gate.seq⟩] := by
  rw [edgeRun_acts hr h]
  simp only [hout, if_true]
  rw [drainIn_room hq (find_edgeNoted ho) (by rwa [dqOf_edgeNoted]), dqOf_edgeNoted, chan_edgeNoted]

/-- Into a full queue a drain raises QUEUE (R69). -/
theorem edgeRun_overflows (hfull : (s.dqOf c (fldN r 88 6)).cap ≤ (s.dqOf c (fldN r 88 6)).beats.length) :
    ∃ x : FaultRec, (s.edgeRun c n).newFaults = s.newFaults ++ [x] ∧ x.cls = 2 ∧ x.cause = 2 ∧ x.unit_ = 10 ∧
      (s.edgeRun c n).dqOf c (fldN r 88 6) = s.dqOf c (fldN r 88 6) := by
  rw [edgeRun_acts hr h]
  simp only [hout, if_true]
  rw [drainIn_full (find_edgeNoted ho) (by rwa [dqOf_edgeNoted])]
  exact ⟨_, rfl, rfl, rfl, rfl, dqOf_edgeNoted _⟩

end

/-- Settles O40: a drain by what placing its beat gives, a run of the plan by what its port and queue hold. -/
theorem drainsAndEdgePlan : Obligations.DrainsAndEdgePlan := by
  intro c s hc
  refine ⟨fun q st b rest hq hcur hbeats hhalted hdead hheld => ?_, fun n r hr => ?_⟩
  · intro t0 ix s1 go
    rw [exec_drainWrite hc hq]
    refine ⟨fun hafter hbelow => ?_, fun hpassed hwaits => ?_⟩
    · have hstays : s.drainStays c q st = true := by
        simp [State.drainStays, State.drainsPassed, hafter, hbelow]
      rw [drainBeat_stays hcur hbeats hstays]
    · have hmay : s.drainStays c q st = false := by
        have hindex : s.indexWaits (s.drainIndex c q st) = false := hwaits
        simp [State.drainStays, hhalted, hdead, hheld, hpassed, hindex]
      refine ⟨fun s' locs hgo hlink hretrain hsnoop hplain => ⟨_, rfl, ?_⟩, fun s' locs cause va hgo => ⟨_, rfl, ?_⟩⟩
      · exact drainBeat_writes hq hcur hbeats hmay hgo hlink (fun n => Prod.ext (hretrain n) (hsnoop n)) hplain
      · exact drainBeat_halts hq hcur hbeats hmay hgo
  · intro off k port q now
    rw [exec_edgePlanRun hc]
    refine ⟨fun h => congrArg _ (edgeRun_waits hr h), fun h hin => ⟨fun b rest hbeats => ?_, fun hbeats => ?_⟩,
      fun h hout hq o ho => ⟨fun hroom => ?_, fun hfull => ?_⟩⟩
    · exact ⟨_, rfl, edgeRun_injects hr h hin hbeats⟩
    · obtain ⟨x, hx⟩ := edgeRun_underflows hr h hin hbeats
      exact ⟨_, x, rfl, hx⟩
    · exact ⟨_, rfl, edgeRun_drains hr h hout ho hq hroom⟩
    · obtain ⟨x, hx⟩ := edgeRun_overflows hr h hout ho hfull
      exact ⟨_, x, rfl, hx⟩

end Sys2Proof.Machine
end

section
/-! PROOFS. What a slot's outcome without beats leaves in the state: its faults in their order, and its sums on the
lane, over the seam, or dropped there (R82, R97, R105, R110, R239). -/
namespace Sys2Proof.Machine

/-! ### What a crossing and a fault record depend on -/

/-- What of a channel decides whether it is in service (R95). -/
def Chan.service (ch : Chan) : Option Nat × ChState := (ch.gate.inReset, ch.gate.st)

section
variable {s t : State} {k : CellId} {off : Nat} {l : Latched}

theorem seamOpen_congr (hfour : t.four = s.four) (h : ∀ c, (t.chan c).service = (s.chan c).service) (c : Chn) :
    t.seamOpen c = s.seamOpen c := by
  have hservice (d : Chn) : t.inService d = s.inService d := by
    have hreset : (t.chan d).gate.inReset = (s.chan d).gate.inReset := congrArg Prod.fst (h d)
    have hst : (t.chan d).gate.st = (s.chan d).gate.st := congrArg Prod.snd (h d)
    rw [State.inService, State.inService, hreset, hst, State.hasChan, State.hasChan, hfour]
  rw [State.seamOpen, State.seamOpen, hservice, hservice]

theorem cellRec_congr (h : (t.chan k.ch).regs = (s.chan k.ch).regs) : t.cellRec k off l = s.cellRec k off l := by
  funext f
  simp only [State.cellRec, Chan.pcol, h]

end

/-! ### Driving sums east -/

section
variable {s : State} {k : CellId} {cy off : Nat} {l : Latched} {b : SumBeat}

theorem driveSum_inside (hx : k.x.val < 79) : s.driveSum k cy off l b =
    s.modChan k.ch fun ch => { ch with sums := ch.sums ++ [⟨cy + 5, k.num + 1, b, false⟩] } := by
  rw [State.driveSum, if_pos hx]

theorem driveSum_across (hx : k.x.val = 79) (hc : k.ch.val < 2) (ho : s.seamOpen k.ch = true) :
    s.driveSum k cy off l b = s.modChan (seamPeer k.ch) fun ch =>
      { ch with sums := ch.sums ++ [⟨cy + 7, k.num - 79, b, false⟩] } := by
  rw [State.driveSum, if_neg (by omega), if_pos hc, if_pos ho]

theorem driveSum_dropped (hx : k.x.val = 79) (hc : k.ch.val < 2) (ho : s.seamOpen k.ch = false) :
    s.driveSum k cy off l b = s.seamDrop k (seamPeer k.ch) off l 5 unSumLane true := by
  rw [State.driveSum, if_neg (by omega), if_pos hc, ho]
  rfl

/-- Driving sums records at most that they met a closed seam, at the east end. -/
theorem driveOut_records (s : State) (k : CellId) (l : Latched) (off cy : Nat) (b : Option SumBeat) :
    ∃ more, (s.driveOut k cy l off b).newFaults = s.newFaults ++ more ∧
      (k.x.val < 79 ∨ b = none → more = []) ∧ ∀ r ∈ more, r.cls = clSeam := by
  rcases b with - | b
  · exact ⟨[], (List.append_nil _).symm, fun _ => rfl, nofun⟩
  · rw [State.driveOut, Option.elim_some, State.driveSum]
    split
    · exact ⟨[], (List.append_nil _).symm, fun _ => rfl, nofun⟩
    · rename_i hx
      split
      · split
        · exact ⟨[], (List.append_nil _).symm, fun _ => rfl, nofun⟩
        · exact ⟨_, rfl, by simp [hx], by simp [State.cellRec]⟩
      · exact ⟨[], (List.append_nil _).symm, fun _ => rfl, nofun⟩

end

/-! ### The outcome of a slot, applied -/

theorem seamPeer_ne (c : Chn) : seamPeer c ≠ c := by
  match c with
  | 0 | 1 | 2 | 3 => decide

theorem takeFaults_records (s : State) (k : CellId) (l : Latched) (off : Nat) (fs : List Flt) :
    (s.takeFaults k l off fs).newFaults = s.newFaults ++ fs.map (s.cellRec k off l) := by
  induction fs generalizing s with
  | nil => exact (List.append_nil _).symm
  | cons f fs ih =>
    refine (ih (s.fault (s.cellRec k off l f))).trans ?_
    rw [State.fault_newFaults, List.append_assoc]
    rfl

/-- The state after a slot has acted, and its outcome has been applied. -/
def State.acted (s : State) (k : CellId) (slot : Nat) (l : Latched) (u : Nat) (o : Out) : State :=
  (s.marked k slot).applyOut k l (s.envOf k).off u o

/-- The state in which the outcome of a slot has been entered, counted and recorded, and nothing is driven yet. -/
def State.entered (s : State) (k : CellId) (slot : Nat) (l : Latched) (u : Nat) (o : Out) : State :=
  ((s.marked k slot).takeOut k l u o).takeFaults k l (s.envOf k).off o.faults

section
variable (s : State) (k : CellId) (slot : Nat) (l : Latched) (u : Nat) (o : Out)

/-- A part `p` of a channel to which no cell and nothing that an outcome changes belongs is what it was. -/
theorem entered_keeps {α : Type} (p : Chan → α) (hcells : ∀ ch v, p { ch with cells := v } = p ch)
    (hcodes : ∀ ch r, p { ch with regs2 := r } = p ch) (htake : ∀ ch, p (ch.takeOut k s.cy l u o) = p ch)
    (c : Chn) : p ((s.entered k slot l u o).chan c) = p (s.chan c) := by
  rw [State.entered, takeFaults_chan, State.takeOut, countCell_keeps _ _ _ _ _ p hcodes]
  refine (State.modChan_keeps p htake (s.marked k slot) k.ch c).trans ?_
  exact State.modChan_keeps p (f := fun ch => ch.setCell k.num ((s.cell k).markDone slot)) (fun ch => hcells ch _) s
    k.ch c

theorem entered_four : (s.entered k slot l u o).four = s.four := by
  refine (foldl_keeps State.four (f := fun t f => t.fault (t.cellRec k (s.envOf k).off l f)) (fun _ _ => rfl) o.faults
    ((s.marked k slot).takeOut k l u o)).trans ?_
  unfold State.takeOut State.countCell
  split
  · rfl
  · simp only
    split <;> rfl

theorem entered_seamOpen (c : Chn) : (s.entered k slot l u o).seamOpen c = s.seamOpen c :=
  seamOpen_congr (entered_four s k slot l u o)
    (entered_keeps s k slot l u o Chan.service (fun _ _ => rfl) (fun _ _ => rfl) fun _ => rfl) c

theorem entered_newFaults :
    (s.entered k slot l u o).newFaults = s.newFaults ++ o.faults.map (s.cellRec k (s.envOf k).off l) := by
  have hregs : (((s.marked k slot).takeOut k l u o).chan k.ch).regs = (s.chan k.ch).regs := by
    have h := entered_keeps s k slot l u o Chan.regs (fun _ _ => rfl) (fun _ _ => rfl) (fun _ => rfl) k.ch
    rwa [State.entered, takeFaults_chan] at h
  rw [State.entered, takeFaults_records, cellRec_congr hregs, State.takeOut, countCell_newFaults]
  rfl

theorem entered_sums_other {c : Chn} (hc : c ≠ k.ch) :
    ((s.entered k slot l u o).chan c).sums = (s.chan c).sums := by
  rw [State.entered, takeFaults_chan, State.takeOut, countCell_keeps _ _ _ _ _ Chan.sums fun _ _ => rfl,
    State.chan_modChan_other _ _ _ _ hc]
  exact congrArg Chan.sums (State.chan_modChan_other _ _ _ _ hc)

theorem acted_eq (h : o.sends = []) : s.acted k slot l u o =
    (s.entered k slot l u o).driveOut k s.cy l (s.envOf k).off o.sumOut := by
  rw [State.acted, applyOut_eq, h]
  rfl

theorem acted_cell : (s.acted k slot l u o).cell k = o.cell := applyOut_cell ..

variable {s k slot l u o}

theorem acted_dues_of_none (h : o.dues = []) : ((s.acted k slot l u o).chan k.ch).dues = (s.chan k.ch).dues := by
  rw [State.acted, applyOut_dues, h]
  simp

theorem dueAt_acted {n : Nat} {e : CellEffect} (h : (n, e) ∈ o.dues) :
    (s.acted k slot l u o).dueAt k (s.cy + n) e := dueAt_applyOut (s.marked k slot) k l _ u o h

theorem acted_records (h : o.sends = []) : ∃ more, (s.acted k slot l u o).newFaults =
      s.newFaults ++ o.faults.map (s.cellRec k (s.envOf k).off l) ++ more ∧
    (k.x.val < 79 ∨ o.sumOut = none → more = []) ∧ ∀ r ∈ more, r.cls = clSeam := by
  rw [acted_eq _ _ _ _ _ _ h, ← entered_newFaults s k slot l u o]
  exact driveOut_records ..

theorem acted_records_quiet (h : o.sends = []) (hb : o.sumOut = none) :
    (s.acted k slot l u o).newFaults = s.newFaults ++ o.faults.map (s.cellRec k (s.envOf k).off l) := by
  obtain ⟨more, hmore, hnil, -⟩ := acted_records h (s := s) (k := k) (slot := slot) (l := l) (u := u)
  rw [hmore, hnil (.inr hb), List.append_nil]

/-- A fault of an outcome without beats is recorded, with its class, cause and unit. -/
theorem acted_records_mem {f : Flt} (hf : f ∈ o.faults) (h : o.sends = []) :
    ∃ r ∈ (s.acted k slot l u o).newFaults, r.cls = f.cls ∧ r.cause = f.cause ∧ r.unit_ = f.unit_ := by
  obtain ⟨more, hmore, -⟩ := acted_records h (s := s) (k := k) (slot := slot) (l := l) (u := u)
  refine ⟨s.cellRec k (s.envOf k).off l f, ?_, rfl, rfl, rfl⟩
  rw [hmore]
  exact List.mem_append_left _ (List.mem_append_right _ (List.mem_map_of_mem hf))

/-- Sums driven inside the channel arrive at the east neighbour (R110). -/
theorem acted_drives_inside {b : SumBeat} (h : o.sends = []) (hb : o.sumOut = some b) (hx : k.x.val < 79) :
    (⟨s.cy + 5, k.num + 1, b, false⟩ : SumOnLane) ∈ ((s.acted k slot l u o).chan k.ch).sums := by
  rw [acted_eq _ _ _ _ _ _ h, hb, State.driveOut, Option.elim_some, driveSum_inside hx]
  simp

/-- Sums driven over an open seam arrive two cycles later than inside the channel, and raise nothing (R81, R110). -/
theorem acted_drives_across {b : SumBeat} (h : o.sends = []) (hb : o.sumOut = some b) (hf : o.faults = [])
    (hx : k.x.val = 79) (hc : k.ch.val < 2) (ho : s.seamOpen k.ch = true) :
    (s.acted k slot l u o).newFaults = s.newFaults ∧
      (⟨s.cy + 7, k.num - 79, b, false⟩ : SumOnLane) ∈ ((s.acted k slot l u o).chan (seamPeer k.ch)).sums := by
  have hopen := (entered_seamOpen s k slot l u o k.ch).trans ho
  rw [acted_eq _ _ _ _ _ _ h, hb, State.driveOut, Option.elim_some, driveSum_across hx hc hopen]
  refine ⟨?_, by simp⟩
  rw [State.modChan_newFaults, entered_newFaults, hf]
  exact List.append_nil _

/-- Sums driven into a closed seam are dropped, with a SEAM fault (R97, R105). -/
theorem acted_drops {b : SumBeat} (h : o.sends = []) (hb : o.sumOut = some b) (hf : o.faults = [])
    (hx : k.x.val = 79) (hc : k.ch.val < 2) (ho : s.seamOpen k.ch = false) :
    ((s.acted k slot l u o).chan (seamPeer k.ch)).sums = (s.chan (seamPeer k.ch)).sums ∧
      ∃ r : FaultRec, (s.acted k slot l u o).newFaults = s.newFaults ++ [r] ∧ r.cls = clSeam ∧ r.cause = 1 := by
  have hclosed := (entered_seamOpen s k slot l u o k.ch).trans ho
  have hnew : (s.entered k slot l u o).newFaults = s.newFaults := by
    rw [entered_newFaults, hf]
    exact List.append_nil _
  rw [acted_eq _ _ _ _ _ _ h, hb, State.driveOut, Option.elim_some, driveSum_dropped hx hc hclosed]
  refine ⟨?_, _, congrArg (· ++ [_]) hnew, rfl, rfl⟩
  rw [seamDrop_keeps _ _ _ _ _ _ Chan.sums fun _ _ => rfl]
  exact entered_sums_other s k slot l u o (seamPeer_ne _)

end

end Sys2Proof.Machine
end

section
/-! PROOFS. Outcomes that have brought nothing about yet, and what the shared steps of the cell operations add to them
(R73, R145, R240, R353). -/
namespace Sys2Proof.Machine

/-- Nothing has come of an outcome yet outside its cell, but for what it has counted. -/
structure Out.Quiet (o : Out) : Prop where
  dues : o.dues = []
  faults : o.faults = []
  sends : o.sends = []
  sumOut : o.sumOut = none

theorem quiet_begun (s : State) (k : CellId) (slot : Nat) : (s.begun k slot).Quiet := ⟨rfl, rfl, rfl, rfl⟩

section
variable {o : Out} {l : Latched} {q etag u n : Nat} {e : CellEffect}

theorem Out.Quiet.count (h : o.Quiet) (k : Checked) : (o.count k).Quiet := ⟨h.dues, h.faults, h.sends, h.sumOut⟩

theorem consume_cell (base : Nat) (b : Bad) : (o.consume u base b).1.cell = o.cell := by
  unfold Out.consume
  split <;> rfl

/-! ### Changes made due -/

theorem mem_dues_due : (n, e) ∈ (o.due n e).dues := List.mem_append_right _ (List.mem_singleton_self _)

theorem mem_dues_raiseFlags {d : Nat × CellEffect} (f : Flags) (h : d ∈ o.dues) :
    d ∈ (o.raiseFlags n f).dues := by
  unfold Out.raiseFlags
  split
  · exact h
  · exact List.mem_append_left _ h

/-! ### A pop that finds the expected tag -/

/-- The cell after a pop of an input queue: the queue is marked. -/
def Cell.popQin (c : Cell) (q : Nat) : Cell := { c with qinPop := setBit c.qinPop q true }

theorem popQin_marks (c : Cell) (hq : q < 8) : bitAt (c.popQin q).qinPop q = true :=
  (bitAt_setBit ..).trans (if_pos ⟨rfl, hq⟩)

/-- A pop of a queue whose oldest beat has the expected tag gives that beat, checked (R69, R73). -/
theorem popIn_expected {x : QEntry} {xs : List QEntry} (hq : o.cell.qin.getD q [] = x :: xs)
    (ht : expTag o.cell.index l q etag = x.tag.toNat) :
    ∃ p : Out, o.popIn l q etag u = (p, some ((Coded.check x.beat).1, (Coded.check x.beat).2.bad)) ∧
      p.cell = o.cell.popQin q ∧ (o.Quiet → p.Quiet) := by
  unfold Out.popIn
  simp only [hq]
  exact ⟨_, if_pos ht, rfl, fun h => ⟨h.dues, h.faults, h.sends, h.sumOut⟩⟩

end

end Sys2Proof.Machine
end

section
/-! PROOFS. O12: shutter loads, the swap and the strand configuration word (R114 to R117, R136, R194, R199). -/
namespace Sys2Proof.Machine

/-! ### Banks -/

@[simp] theorem bank_setBank_same (c : Cell) (b : Bool) (v : Bank) : (c.setBank b v).bank b = v := by
  cases b <;> rfl

theorem qinPop_setBank (c : Cell) (b : Bool) (v : Bank) : (c.setBank b v).qinPop = c.qinPop := by
  cases b <;> rfl

/-- A load forms check entries and leaves the bank incomplete until the second cycle after it (R116). -/
theorem readyAt_loadPair (b : Bank) (wfmt cy rp : Nat) (v : Beat) : (b.loadPair wfmt cy rp v).readyAt = cy + 2 := rfl

theorem readyAt_loadScale (b : Bank) (wfmt cy : Nat) (v : Bundle) : (b.loadScale wfmt cy v).readyAt = cy + 2 := rfl

/-- The bank that a load of a row pair or of the scale row leaves, under the weight format in force (R114 to R116). -/
def Cell.loaded (c : Cell) (cy : Nat) (l : Latched) (scale : Bool) (v : Beat) : Bank :=
  if scale then (c.bank (lsBank l.ls)).loadScale (fldN c.cfg 4 4) cy (v.part 0 2)
  else (c.bank (lsBank l.ls)).loadPair (fldN c.cfg 4 4) cy (lsPair l) v

theorem readyAt_loaded (c : Cell) (cy : Nat) (l : Latched) (scale : Bool) (v : Beat) :
    (c.loaded cy l scale v).readyAt = cy + 2 := by
  cases scale
  · exact readyAt_loadPair ..
  · exact readyAt_loadScale ..

/-! ### SHLD and SHLDS -/

section
variable {o : Out} {e : Env} {l : Latched} {scale : Bool} {x : QEntry} {xs : List QEntry}

/-- A load into the active bank pops its beat, raises LOAD_ACTIVE and loads nothing (R117). -/
theorem shutterLoad_active (hq : o.cell.qin.getD (lsQ l.ls) [] = x :: xs)
    (ht : expTag o.cell.index l (lsQ l.ls) (lsEtag l.ls) = x.tag.toNat) (hb : lsBank l.ls = o.cell.activeB)
    (ho : o.Quiet) : (o.shutterLoad e l scale).cell = o.cell.popQin (lsQ l.ls) ∧
      (o.shutterLoad e l scale).sends = [] ∧
      ∃ f ∈ (o.shutterLoad e l scale).faults,
        f.cls = clShutter ∧ f.cause = shLOADACTIVE ∧ f.unit_ = unLS := by
  obtain ⟨p, hpop, hcell, hquiet⟩ := popIn_expected (u := unLS) hq ht
  simp only [Out.shutterLoad, hpop, if_pos hb]
  exact ⟨hcell, (hquiet ho).sends, _, List.mem_append_right _ (List.mem_singleton_self _), rfl, rfl, rfl⟩

/-- A load of a good beat into the inactive bank pops it and loads it (R114 to R116). -/
theorem shutterLoad_inactive (hq : o.cell.qin.getD (lsQ l.ls) [] = x :: xs)
    (ht : expTag o.cell.index l (lsQ l.ls) (lsEtag l.ls) = x.tag.toNat) (hb : lsBank l.ls ≠ o.cell.activeB)
    (hgood : (Coded.check x.beat).2.bad = none) : (o.shutterLoad e l scale).cell =
      (o.cell.popQin (lsQ l.ls)).setBank (lsBank l.ls) (o.cell.loaded e.cy l scale (Coded.check x.beat).1) := by
  obtain ⟨p, hpop, hcell, -⟩ := popIn_expected (u := unLS) hq ht
  simp only [Out.shutterLoad, hpop, if_neg hb, hgood, Out.consume, if_true, hcell]
  cases scale <;> rfl

/-- Every load marks its queue as popped. -/
theorem shutterLoad_pops (hq : o.cell.qin.getD (lsQ l.ls) [] = x :: xs)
    (ht : expTag o.cell.index l (lsQ l.ls) (lsEtag l.ls) = x.tag.toNat) :
    bitAt (o.shutterLoad e l scale).cell.qinPop (lsQ l.ls) = true := by
  obtain ⟨p, hpop, hcell, -⟩ := popIn_expected (u := unLS) hq ht
  have hmark : bitAt p.cell.qinPop (lsQ l.ls) = true := by
    rw [hcell]
    exact popQin_marks _ (Nat.mod_lt _ (by decide))
  simp only [Out.shutterLoad, hpop]
  split
  · exact hmark
  · generalize hc : p.consume unLS _ _ = c
    have hcons : c.1.cell = p.cell := hc ▸ consume_cell ..
    split
    · rw [qinPop_setBank, hcons]
      exact hmark
    · rwa [hcons]

end

section
variable {s : State} {k : CellId} {l : Latched}

theorem exec_shutterLoad {i : Instr} {scale : Bool}
    (hi : (i, scale) ∈ [(Instr.shld k, false), (Instr.shlds k, true)]) (h : s.flies k slLS l)
    (hop : lsOp l.ls = if scale then 5 else 4) :
    exec i s = .next (s.acted k slLS l unLS ((s.begun k slLS).shutterLoad (s.envOf k) l scale)) := by
  simp only [List.mem_cons, List.not_mem_nil, or_false, Prod.mk.injEq] at hi
  rcases hi with ⟨rfl, rfl⟩ | ⟨rfl, rfl⟩
  · exact (onChan_present (f := fun s => s.lsSlot k 4 shldRun) h.1).trans
      (congrArg _ (runOut_flies _ _ h (decide_eq_true hop)))
  · exact (onChan_present (f := fun s => s.lsSlot k 5 shldsRun) h.1).trans
      (congrArg _ (runOut_flies _ _ h (decide_eq_true hop)))

/-! ### SHSW -/

/-- The inactive bank may become active: it is complete, and the bundle's own LS slot does not load it (R117). -/
def canSwap (cy : Nat) (l : Latched) (c : Cell) : Bool :=
  (c.bank (!c.activeB)).complete cy && !loadsBank l c (!c.activeB)

/-- What SHSW does to an outcome. -/
def swapRun (cy : Nat) (l : Latched) (o : Out) : Out :=
  if canSwap cy l o.cell then o.due 0 .swap else o.shutter l shINCOMPLETE unCT 0 false

theorem exec_shsw (h : s.flies k slCT l) (hop : ctOp l.ct = 0x04) :
    exec (.shsw k) s = .next (s.acted k slCT l unCT (swapRun s.cy l (s.begun k slCT))) := by
  refine (onChan_present (f := fun s => s.ctSlot k 0x04 shswRun) h.1).trans (congrArg _ ?_)
  rw [State.ctSlot, runSlot_flies _ _ h (decide_eq_true hop), ← State.marked, shswRun]
  simp only [envOf_marked]
  rw [State.marked, State.cell_setCell]
  rfl

/-! ### MXCFG -/

theorem exec_mxcfg (h : s.flies k slMX l) (hop : fldN l.mx 0 4 = 1) :
    exec (.mxcfg k) s = .next (s.acted k slMX l unMX (mxcfgRun (s.envOf k) l (s.begun k slMX))) :=
  (onChan_present (f := fun s => s.mxSlot k 1 mxcfgRun) h.1).trans
    (congrArg _ (runOut_flies _ _ h (decide_eq_true hop)))

end

/-- The codeword that MXCFG reads, through its check (R137). -/
def Cell.configRead (c : Cell) (l : Latched) : Coded 1 × Checked :=
  Coded.check ((Smap.get Coded.zero c.pad (genLine c.index l (fldN l.mx 4 7))).part 0 1)

/-- A configuration word from a good codeword is in force from the second cycle after (R136, R137). -/
theorem mem_dues_mxcfgRun {e : Env} {l : Latched} {o : Out} (h : (o.cell.configRead l).2.bad = none) :
    (1, .config (fld (o.cell.configRead l).1.data 0 64 &&& 0x00000000FFFF1FFF#64)) ∈ (mxcfgRun e l o).dues := by
  rw [Cell.configRead] at h
  simp only [mxcfgRun, h, Out.consume, if_true]
  exact mem_dues_due

/-- Settles O12: each row's outcome, a load by whether its bank is active, the swap by whether it may be done. -/
theorem shutterLoads : Obligations.ShutterLoads := by
  refine fun k s l => ⟨fun i scale hi h hop x xs hq ht => ?load, fun h hop => ?swap, fun h hop hgood => ?config⟩
  case load =>
    refine ⟨_, exec_shutterLoad hi h hop, ?_, fun hb => ?_, fun hb hgood => ?_⟩
    · rw [acted_cell]
      exact shutterLoad_pops hq ht
    · obtain ⟨hcell, hsends, f, hf, hcls, hcause, hunit⟩ :=
        shutterLoad_active (o := s.begun k slLS) (e := s.envOf k) (scale := scale) hq ht hb (quiet_begun ..)
      obtain ⟨r, hr, hrcls, hrcause, hrunit⟩ :=
        acted_records_mem (s := s) (k := k) (slot := slLS) (u := unLS) hf hsends
      rw [acted_cell, hcell]
      exact ⟨rfl, rfl, r, hr, hrcls.trans hcls, hrcause.trans hcause, hrunit.trans hunit⟩
    · have hbank : ((s.acted k slLS l unLS ((s.begun k slLS).shutterLoad (s.envOf k) l scale)).cell k).bank
          (lsBank l.ls) = (s.cell k).loaded s.cy l scale (Coded.check x.beat).1 := by
        rw [acted_cell, shutterLoad_inactive (o := s.begun k slLS) hq ht hb hgood, bank_setBank_same]
        rfl
      exact ⟨hbank, (congrArg Bank.readyAt hbank).trans (readyAt_loaded ..)⟩
  case swap =>
    refine ⟨_, exec_shsw h hop, fun hok => ?_, fun hok => ?_⟩
    · have hrun : swapRun s.cy l (s.begun k slCT) = (s.begun k slCT).due 0 .swap := if_pos hok
      rw [hrun]
      exact ⟨dueAt_acted (n := 0) mem_dues_due, (acted_records_quiet rfl rfl).trans (List.append_nil _)⟩
    · have hrun : swapRun s.cy l (s.begun k slCT) = (s.begun k slCT).shutter l shINCOMPLETE unCT 0 false :=
        if_neg ((Bool.not_eq_true _).mpr hok)
      rw [hrun]
      exact ⟨acted_dues_of_none rfl, acted_records_mem (f := ⟨clShutter, shINCOMPLETE, unCT, _, _⟩)
        (List.mem_singleton_self _) rfl⟩
  case config => exact ⟨_, exec_mxcfg h hop, dueAt_acted (mem_dues_mxcfgRun hgood)⟩

end Sys2Proof.Machine
end

section
/-! PROOFS. MMA: its fetches and the sums it takes, the causes for which it faults, and the row it drives or delivers
(R110 to R112, R126 to R130, R137 to R139). -/
namespace Sys2Proof.Machine

/-! ### Words packed from lanes -/

section
variable {w n : Nat} {f g : Nat → Nat}

theorem foldr_pack_congr (h : ∀ i < n, f i = g i) :
    (List.range n).foldr (fun i acc => f i % 2 ^ w + acc * 2 ^ w) 0 =
      (List.range n).foldr (fun i acc => g i % 2 ^ w + acc * 2 ^ w) 0 :=
  List.foldr_ext _ _ _ fun i hi _ => by rw [h i (List.mem_range.mp hi)]

theorem packBeat_congr (h : ∀ i < n, f i = g i) : packBeat w n f = packBeat w n g := by
  rw [packBeat, packBeat, foldr_pack_congr h]

theorem packLine_congr (h : ∀ i < n, f i = g i) : packLine w n f = packLine w n g := by
  rw [packLine, packLine, foldr_pack_congr h]

end

theorem getD_map_range {α : Type} (f : Nat → α) (d : α) {i n : Nat} (h : i < n) :
    ((List.range n).map f).getD i d = f i := by
  simp [h]

/-! ### The records of a matrix operation's causes (R139) -/

/-- The SHUTTER fault of a matrix operation; that of a missing sum is the sum lane's (R239, R240). -/
def matrixFlt (c : Cell) (l : Latched) (parity : Bool) (cause : Nat) : Flt :=
  ⟨clShutter, cause, if cause = shMISSINGSUM then unSumLane else unMX,
    w64 (boolBit c.activeB + 2 * 0 + 16 * boolBit parity), l.idx⟩

/-- An outcome in which a matrix operation has faulted for causes. -/
def Out.faulted (o : Out) (l : Latched) (parity : Bool) (causes : List Nat) : Out :=
  { o with faults := o.faults ++ causes.map (matrixFlt o.cell l parity) }

/-- The parity that the record of a matrix operation shows: that of the row taken (R240). -/
def parityOf (b : Option SumBeat) : Bool :=
  match b with
  | some b => b.parity
  | none => false

theorem Out.Quiet.faulted_faults {o : Out} (h : o.Quiet) (l : Latched) (parity : Bool) (causes : List Nat) :
    (o.faulted l parity causes).faults = causes.map (matrixFlt o.cell l parity) := by
  rw [Out.faulted, h.faults, List.nil_append]

theorem foldl_shutter (o : Out) (l : Latched) (parity : Bool) (causes : List Nat) :
    causes.foldl (fun o k => o.shutter l k (if k = shMISSINGSUM then unSumLane else unMX) 0 parity) o =
      o.faulted l parity causes := by
  induction causes generalizing o with
  | nil => simp [Out.faulted]
  | cons k ks ih =>
    rw [List.foldl_cons, ih]
    simp [Out.faulted, Out.shutter, Out.fault, matrixFlt]

/-! ### What an MMA takes in its cycle -/

/-- The line that a generator spec names, checked. -/
def Cell.lineRead (c : Cell) (l : Latched) (spec : Nat) : Line :=
  (Coded.check (Smap.get Coded.zero c.pad (genLine c.index l spec))).1

/-- The cell with the buffers that an MMA's fetch bits fill (R137). -/
def Cell.buffered (c : Cell) (l : Latched) : Cell :=
  { c with
    actBuf := if bitAt l.mx 4 then some (c.lineRead l (fldN l.mx 5 7)) else c.actBuf
    scaleBuf := if bitAt l.mx 17 then some (c.lineRead l (fldN l.mx 18 7)) else c.scaleBuf }

/-- An outcome after an MMA's fetches. -/
def Out.fetches (o : Out) (l : Latched) : Out :=
  let o := if bitAt l.mx 4 then o.fetchBuf (genLine o.cell.index l (fldN l.mx 5 7)) false else o
  if bitAt l.mx 17 then o.fetchBuf (genLine o.cell.index l (fldN l.mx 18 7)) true else o

/-- An outcome after an MMA's fetches, with the sums that it takes and what is bad in them (R110). -/
def Out.takes (o : Out) (e : Env) (l : Latched) (g : Strand) : Out × Option SumBeat × Bad :=
  ({ o.fetches l with sumTaken := !g.isOpen } : Out).takeSum (if g.isOpen then none else e.sum)

/-- The sums that a cell of a strand takes: an open cell takes none (R107). -/
def Strand.taken (g : Strand) (e : Env) : Option SumBeat :=
  if g.isOpen then none else e.sum.map fun b => b.receive.1

/-- A half-class MMA occupies the array for two cycles, unless it came too early itself (R112). -/
def Out.occupies (o : Out) (g : Strand) (causes : List Nat) (cy : Nat) : Out :=
  if g.cls = 3 && g.okMma && !causes.contains shISSUERATE then { o with cell := { o.cell with halfAt := some cy } }
  else o

section
variable {o : Out} {e : Env} {l : Latched} {g : Strand} {b : Option SumBeat}

theorem fetches_cell : (o.fetches l).cell = o.cell.buffered l := by
  unfold Out.fetches Cell.buffered
  by_cases ha : bitAt l.mx 4 <;> by_cases hs : bitAt l.mx 17 <;> simp only [ha, hs] <;> rfl

theorem Out.Quiet.fetches (h : o.Quiet) : (o.fetches l).Quiet := by
  have hbuf {p : Out} (hp : p.Quiet) (a : Nat) (scale : Bool) : (p.fetchBuf a scale).Quiet :=
    ⟨hp.dues, hp.faults, hp.sends, hp.sumOut⟩
  unfold Out.fetches
  dsimp only
  split <;> split
  · exact hbuf (hbuf h _ _) _ _
  · exact hbuf h _ _
  · exact hbuf h _ _
  · exact h

theorem takeSum_cell : (o.takeSum b).1.cell = o.cell := by
  cases b <;> rfl

theorem takeSum_beat : (o.takeSum b).2.1 = b.map fun b => b.receive.1 := by
  cases b <;> rfl

theorem Out.Quiet.takeSum (h : o.Quiet) : (o.takeSum b).1.Quiet := by
  cases b
  · exact h
  · exact h.count _

/-- Sums of good codewords are taken as they are. -/
theorem receive_good {b : SumBeat} (hr : b.resid = 0) (hp : b.poison = 0) : b.receive = (b, ⟨0, 0, none⟩) := by
  simp [SumBeat.receive, hr, hp]

theorem takes_cell : (o.takes e l g).1.cell = o.cell.buffered l := takeSum_cell.trans fetches_cell

theorem takes_beat : (o.takes e l g).2.1 = g.taken e := by
  rw [Out.takes, takeSum_beat, Strand.taken]
  split <;> rfl

theorem Out.Quiet.takes (h : o.Quiet) : (o.takes e l g).1.Quiet :=
  Out.Quiet.takeSum (o := { o.fetches l with sumTaken := !g.isOpen })
    ⟨h.fetches.dues, h.fetches.faults, h.fetches.sends, h.fetches.sumOut⟩

theorem occupies_cell (causes : List Nat) (cy : Nat) :
    ∃ h, (o.occupies g causes cy).cell = { o.cell with halfAt := h } := by
  unfold Out.occupies
  split
  · exact ⟨_, rfl⟩
  · exact ⟨o.cell.halfAt, rfl⟩

theorem Out.Quiet.occupies (h : o.Quiet) (causes : List Nat) (cy : Nat) : (o.occupies g causes cy).Quiet := by
  unfold Out.occupies
  split
  · exact ⟨h.dues, h.faults, h.sends, h.sumOut⟩
  · exact h

end

/-! ### When an MMA has no cause to fault -/

/-- An MMA faults for none of the causes of R139 when it is configured, its active bank is complete and of the format
in force, no half-class MMA occupies the array, its row matches, and its buffers are filled. -/
theorem mmaCauses_eq_nil {e : Env} {g : Strand} {c : Cell} {b : Option SumBeat} (hok : g.okMma = true)
    (hcomplete : c.active.complete e.cy = true) (hwfmt : c.active.wfmt = some (BitVec.ofNat 4 g.wfmt))
    (hrate : e.cy = 0 ∨ c.halfAt ≠ some (e.cy - 1))
    (hrow : g.isOpen = false → ∃ st, b = some st ∧ st.parity = c.activeB ∧ g.differs b = false)
    (hact : c.actBuf.isSome = true) (hscale : isMx g.afmt = true → c.scaleBuf.isSome = true) :
    mmaCauses e g c b = [] := by
  have hpace : c.halfAt = some (e.cy - 1) → e.cy = 0 := fun h => hrate.resolve_right (not_not_intro h)
  have hbuffers : (c.actBuf.isNone || (isMx g.afmt && c.scaleBuf.isNone)) = false := by
    rw [Bool.or_eq_false_iff, Bool.and_eq_false_imp]
    exact ⟨Option.isNone_eq_false_iff.mpr hact, fun hmx => Option.isNone_eq_false_iff.mpr (hscale hmx)⟩
  cases hopen : g.isOpen
  · obtain ⟨st, rfl, hpar, hdiff⟩ := hrow hopen
    simp [mmaCauses, hopen, hok, hcomplete, hwfmt, hpar, hdiff, hbuffers]
    exact hpace
  · simp [mmaCauses, hopen, hok, hcomplete, hwfmt, hbuffers]
    exact hpace

theorem okMma_of {g : Strand} (hcls : g.cls ≠ 0)
    (hclose : g.isClose = true → 1 ≤ g.cmode ∧ g.cmode ≤ (if g.cls = 3 then 3 else 4))
    (hthrough : g.isClose = false → g.cmode = 0) : g.okMma = true := by
  cases h : g.isClose
  · simp [Strand.okMma, h, hcls, hthrough h]
  · simp [Strand.okMma, h, hcls, hclose h]

/-- A row of the cell's own class and window (R123). -/
def Strand.fits (g : Strand) (b : SumBeat) : Prop :=
  b.cls = g.cls ∧ b.win.toNat = g.win ∧ b.soff.toInt = g.soff

theorem differs_iff {g : Strand} {b : SumBeat} : g.differs (some b) = true ↔ ¬ g.fits b := by
  simp only [Strand.differs, Strand.fits, Bool.or_eq_true, decide_eq_true_eq]
  tauto

/-! ### The row that an MMA starts from -/

/-- The row `st` that an MMA adds to: zero at an opening cell, and else the good one that arrives, of the cell's own
class, window and active bank (R107, R118, R123). -/
def Strand.startsFrom (g : Strand) (c : Cell) (e : Env) (st : SumBeat) : Prop :=
  (g.isOpen = true → st = rowStart g c none) ∧
    (g.isOpen = false → e.sum = some st ∧ st.resid = 0 ∧ st.poison = 0 ∧ st.parity = c.activeB ∧ g.fits st)

section
variable {g : Strand} {c : Cell} {e : Env} {st : SumBeat} {o : Out} {l : Latched}

theorem taken_of_startsFrom (h : g.startsFrom c e st) : g.taken e = if g.isOpen then none else some st := by
  unfold Strand.taken
  split
  · rfl
  · rename_i hopen
    obtain ⟨hsum, hres, hpoison, -⟩ := h.2 (by simpa using hopen)
    rw [hsum, Option.map_some, receive_good hres hpoison]

theorem rowStart_of_startsFrom (h : g.startsFrom c e st) : rowStart g c (g.taken e) = st := by
  rw [taken_of_startsFrom h]
  split
  · exact (h.1 ‹_›).symm
  · rfl

/-- Nothing is bad in the sums that such an MMA takes. -/
theorem takes_of_startsFrom (h : g.startsFrom c e st) : (o.takes e l g).2.2 = none := by
  unfold Out.takes
  split
  · rfl
  · rename_i hopen
    obtain ⟨hsum, hres, hpoison, -⟩ := h.2 (by simpa using hopen)
    rw [hsum, Out.takeSum, receive_good hres hpoison]

theorem matches_of_startsFrom (h : g.startsFrom c e st) (hopen : g.isOpen = false) :
    ∃ b, g.taken e = some b ∧ b.parity = c.activeB ∧ g.differs (g.taken e) = false := by
  obtain ⟨-, -, -, hpar, hfits⟩ := h.2 hopen
  rw [taken_of_startsFrom h, hopen]
  exact ⟨st, rfl, hpar, Bool.eq_false_iff.mpr fun h => differs_iff.mp h hfits⟩

end

/-! ### The row of an MMA -/

/-- The row that a cell makes of an arriving one, by its class (R126, R134). -/
def Strand.row (g : Strand) (bank : Bank) (data : BitVec 128) (scale : Option Int) (st : SumBeat) : SumBeat :=
  if g.cls = 3 then halfRow g bank data st else exactRow g bank data scale st

/-- The scale of an activation row: the named byte of the scale buffer, or 1 when AFMT is not MX (R121). -/
def Strand.actScale (g : Strand) (sc : Line) (byte : Nat) : Option Int :=
  if isMx g.afmt then e8m0 (fldN sc.data (8 * byte) 8) else some 0

/-- What an MMA does with its row: a close delivers it, another cell drives it east. -/
def Out.passes (o : Out) (l : Latched) (g : Strand) (row : SumBeat) : Out :=
  if g.isClose then o.deliver l g l.mx row else { o with sumOut := some row }

/-- An MMA without a cause to fault, from the sums that it took, what is bad in them and in what its buffers held. -/
def Out.multiplies (o : Out) (l : Latched) (g : Strand) (b : Option SumBeat) (bad : Bad) (oldA oldS : Option Line)
    (grp byte : Nat) : Out :=
  let p := o.consume unSumLane 0 bad
  let a := p.1.consume unMX grp (bufBad oldA p.1.cell.actBuf grp)
  let s := if isMx g.afmt then a.1.consume unMX (8 + byte / 16) (bufBad oldS p.1.cell.scaleBuf (byte / 16))
    else (a.1, true)
  if p.2 && a.2 && s.2 then
    let data := match s.1.cell.actBuf with
      | some x => fld x.data (128 * grp) 128
      | none => 0
    let scale := if isMx g.afmt then
        match s.1.cell.scaleBuf with
        | some x => e8m0 (fldN x.data (8 * byte) 8)
        | none => none
      else some 0
    s.1.passes l g (g.row s.1.cell.active data scale (rowStart g s.1.cell b))
  else s.1.faultedRow g b

/-- The activation group and the scale byte that an MMA names (R187). -/
def Latched.mmaGroup (l : Latched) : Nat := (fldN l.mx 12 3 + l.sel (fldN l.mx 15 2)) % 8
def Latched.mmaByte (l : Latched) (ix : BitVec 1024) : Nat := genLine ix l (fldN l.mx 25 7) % 128

/-- A line of the scratchpad before its check, when a fetch bit names it. -/
def Cell.lineFetched (c : Cell) (l : Latched) (bit spec : Nat) : Option Line :=
  if bitAt l.mx bit then some (Smap.get Coded.zero c.pad (genLine c.index l spec)) else none

section
variable {e : Env} {l : Latched} {o : Out} {g : Strand} {c : Cell} {q : Seq}

theorem mmaRun_eq (e : Env) (l : Latched) (o : Out) : mmaRun e l o =
    let g := strandOf o.cell.cfg
    let t := o.takes e l g
    let causes := mmaCauses e g t.1.cell t.2.1
    let p := t.1.occupies g causes e.cy
    if causes ≠ [] then (p.faulted l (parityOf t.2.1) causes).faultedRow g t.2.1
    else p.multiplies l g t.2.1 t.2.2 (o.cell.lineFetched l 4 (fldN l.mx 5 7))
      (o.cell.lineFetched l 17 (fldN l.mx 18 7)) l.mmaGroup (l.mmaByte t.1.cell.index) := by
  simp only [← foldl_shutter]
  rfl

/-! ### An MMA that faults -/

/-- What a faulted row leaves of an outcome: no more than its sums (R139). -/
theorem faultedRow_keeps (o : Out) (g : Strand) (b : Option SumBeat) : (o.faultedRow g b).dues = o.dues ∧
    (o.faultedRow g b).faults = o.faults ∧ (o.faultedRow g b).sends = o.sends := by
  unfold Out.faultedRow
  split
  · exact ⟨rfl, rfl, rfl⟩
  · split <;> exact ⟨rfl, rfl, rfl⟩

/-- A faulted row is driven with all lanes invalid (R139), unless the cell is OFF and no row arrived (log 78). -/
theorem faultedRow_drives {b : Option SumBeat} (hclose : g.isClose = false) (h : g.off = false ∨ b.isSome = true) :
    (o.faultedRow g b).sumOut = some { rowStart g o.cell b with invalid := BitVec.allOnes 32 } := by
  have hrow : (g.off && b.isNone) = false := by
    rcases h with h | h
    · rw [h, Bool.false_and]
    · rw [Option.isNone_eq_false_iff.mpr h, Bool.and_false]
  rw [Out.faultedRow, hrow, hclose]
  rfl

/-- An MMA with a cause to fault records each, makes nothing due, and drives an invalid row (R139). -/
theorem mmaRun_of_causes {causes : List Nat} (hc : o.cell = { c with seq := q }) (ho : o.Quiet)
    (hg : strandOf c.cfg = g) (hcauses : mmaCauses e g (c.buffered l) (g.taken e) = causes) (hne : causes ≠ []) :
    (mmaRun e l o).dues = [] ∧ (mmaRun e l o).sends = [] ∧
      (∃ c parity, (mmaRun e l o).faults = causes.map (matrixFlt c l parity)) ∧
      (g.isClose = false → g.off = false ∨ (g.taken e).isSome = true →
        ∃ row, (mmaRun e l o).sumOut = some row ∧ row.invalid = BitVec.allOnes 32) := by
  let p := (o.takes e l g).1.occupies g causes e.cy
  have hp : p.Quiet := ho.takes.occupies ..
  have hrun : mmaRun e l o = (p.faulted l (parityOf (g.taken e)) causes).faultedRow g (g.taken e) := by
    have hseq : mmaCauses e g (o.cell.buffered l) (g.taken e) = causes := by
      rw [hc]
      exact hcauses
    have hcfg : strandOf o.cell.cfg = g := by
      rw [hc]
      exact hg
    rw [mmaRun_eq, hcfg]
    dsimp only
    rw [takes_cell, takes_beat, hseq, if_pos hne]
  obtain ⟨hdues, hfaults, hsends⟩ :=
    faultedRow_keeps (p.faulted l (parityOf (g.taken e)) causes) g (g.taken e)
  rw [hrun]
  exact ⟨hdues.trans hp.dues, hsends.trans hp.sends, ⟨_, _, hfaults.trans (hp.faulted_faults ..)⟩,
    fun hclose h => ⟨_, faultedRow_drives hclose h, rfl⟩⟩

/-! ### An MMA that multiplies -/

theorem bufBad_good {old : Option Line} {x : Line} {i : Nat} (h : bitAt x.poison i = false) :
    bufBad old (some x) i = none := by
  simp [bufBad, h]

/-- With good sums and good codewords in its buffers, an MMA makes its row (R110, R121, R137, R187). -/
theorem multiplies_good {b : Option SumBeat} {oldA oldS : Option Line} {grp byte : Nat} {a sc : Line}
    (ha : o.cell.actBuf = some a) (hagood : bitAt a.poison grp = false)
    (hs : isMx g.afmt = true → o.cell.scaleBuf = some sc ∧ bitAt sc.poison (byte / 16) = false) :
    o.multiplies l g b none oldA oldS grp byte =
      o.passes l g (g.row o.cell.active (fld a.data (128 * grp) 128) (g.actScale sc byte) (rowStart g o.cell b)) := by
  cases hmx : isMx g.afmt
  · simp [Out.multiplies, Strand.actScale, Out.consume, ha, bufBad_good hagood, hmx]
  · obtain ⟨hsc, hsgood⟩ := hs hmx
    simp [Out.multiplies, Strand.actScale, Out.consume, ha, bufBad_good hagood, hmx, hsc, bufBad_good hsgood]

/-- The outcome from which an MMA without a cause to fault goes on. -/
def Out.readyMma (o : Out) (e : Env) (l : Latched) (g : Strand) : Out := (o.takes e l g).1.occupies g [] e.cy

theorem readyMma_cell : ∃ h, (o.readyMma e l g).cell = { o.cell.buffered l with halfAt := h } := by
  obtain ⟨h, hcell⟩ := occupies_cell (o := (o.takes e l g).1) (g := g) [] e.cy
  rw [takes_cell] at hcell
  exact ⟨h, hcell⟩

/-- An MMA without a cause to fault, on good sums and good buffers, has done nothing else yet when it passes its row
on (R110, R121, R137, R187). -/
theorem mmaRun_good {st : SumBeat} {a sc : Line} (hc : o.cell = { c with seq := q }) (ho : o.Quiet)
    (hg : strandOf c.cfg = g) (hstarts : g.startsFrom c e st)
    (hcauses : mmaCauses e g (c.buffered l) (g.taken e) = []) (ha : (c.buffered l).actBuf = some a)
    (hagood : bitAt a.poison l.mmaGroup = false)
    (hs : isMx g.afmt = true → (c.buffered l).scaleBuf = some sc ∧
      bitAt sc.poison (l.mmaByte c.index / 16) = false) :
    ∃ p : Out, p.Quiet ∧ p.cell.index = c.index ∧ mmaRun e l o = p.passes l g
      (g.row c.active (fld a.data (128 * l.mmaGroup) 128) (g.actScale sc (l.mmaByte c.index)) st) := by
  obtain ⟨half, hcell⟩ := readyMma_cell (o := o) (e := e) (l := l) (g := g)
  have hseq : mmaCauses e g (o.cell.buffered l) (g.taken e) = [] := by
    rw [hc]
    exact hcauses
  have hcfg : strandOf o.cell.cfg = g := by
    rw [hc]
    exact hg
  have hrun : mmaRun e l o = (o.readyMma e l g).multiplies l g (g.taken e) none
      (o.cell.lineFetched l 4 (fldN l.mx 5 7)) (o.cell.lineFetched l 17 (fldN l.mx 18 7)) l.mmaGroup
      (l.mmaByte c.index) := by
    rw [mmaRun_eq, hcfg]
    dsimp only
    rw [takes_cell, takes_beat, hseq, takes_of_startsFrom hstarts, if_neg (not_not_intro rfl), hc]
    rfl
  rw [hc] at hcell
  refine ⟨o.readyMma e l g, ho.takes.occupies .., ?_, hrun.trans ?_⟩
  · rw [hcell]
    rfl
  · rw [multiplies_good (a := a) (sc := sc) (hcell ▸ ha) hagood (hcell ▸ hs), hcell]
    exact congrArg (fun st => Out.passes _ l g (g.row c.active _ _ st)) (rowStart_of_startsFrom hstarts)

/-! ### What a close delivers -/

theorem tallyExact_cell (o : Out) (g : Strand) (b : SumBeat) : (o.tallyExact g b).cell = o.cell := by
  unfold Out.tallyExact
  split
  · dsimp only
    split <;> rfl
  · rfl

theorem tallyHalf_cell (o : Out) (b : SumBeat) : (o.tallyHalf b).cell = o.cell := by
  unfold Out.tallyHalf
  dsimp only
  split
  · split
    · split <;> rfl
    · rfl
  · rfl

theorem tally_cell (o : Out) (g : Strand) (b : SumBeat) : (o.tally g b).cell = o.cell := by
  unfold Out.tally
  split
  · exact tallyHalf_cell o b
  · exact tallyExact_cell o g b

/-- The word that a computing close makes of a lane of its row (R129, R130). -/
def closeWord (g : Strand) (b : SumBeat) (n : Nat) : Nat := (closeLane g (bitAt b.invalid n) (b.sums.getD n 0)).1

theorem getD_closeLanes (b : SumBeat) : ∀ n < 32,
    (((List.range 32).map fun n => closeLane g (bitAt b.invalid n) (b.sums.getD n 0)).getD n (0, 0)).1 =
      closeWord g b n :=
  fun _ hn => congrArg Prod.fst (getD_map_range _ _ hn)

/-- A close of CMODE BF16 or FP16 delivers a half-line in the fifth cycle after (R111, R129). -/
theorem deliver_half {w : BitVec 40} {b : SumBeat} (h : g.cmode = 2 ∨ g.cmode = 3) :
    (5, .half (genLine o.cell.index l (fldN w 32 7)) (bitAt w 39) (Coded.ofData (packBeat 16 32 (closeWord g b)))) ∈
      (o.deliver l g w b).dues := by
  refine mem_dues_raiseFlags _ ?_
  rw [if_pos (by simpa using h), packBeat_congr (getD_closeLanes b), tally_cell]
  exact mem_dues_due

/-- A close of CMODE FP32 or INT32 delivers a line in the fifth cycle after (R111, R129). -/
theorem deliver_line {w : BitVec 40} {b : SumBeat} (h : g.cmode = 1 ∨ g.cmode = 4) :
    (5, .line (genLine o.cell.index l (fldN w 32 7)) (Coded.ofData (packLine 32 32 (closeWord g b)))) ∈
      (o.deliver l g w b).dues := by
  have hline : (decide (g.cmode = 2) || decide (g.cmode = 3)) = false := by
    rcases h with h | h <;> rw [h] <;> rfl
  refine mem_dues_raiseFlags _ ?_
  rw [hline, packLine_congr (getD_closeLanes b), tally_cell]
  exact mem_dues_due

end

end Sys2Proof.Machine
end

section
/-! PROOFS. CLOSE: the causes for which it faults, the carry that it reads, and the totals that it stores (R131, R132,
R139, R188). -/
namespace Sys2Proof.Machine

/-! ### A CLOSE that faults -/

/-- A row that arrived counts as unchecked where a CLOSE stores nothing of it (R250). -/
def Out.uncheckedRow (o : Out) (e : Env) : Out :=
  if e.sum.isSome then { o with unchecked := o.unchecked + 32 } else o

/-- An outcome in which a CLOSE has taken the sums that arrive. -/
def Out.closeTakes (o : Out) (e : Env) : Out × Option SumBeat × Bad :=
  ({ o with sumTaken := true } : Out).takeSum e.sum

/-- The causes of a CLOSE on the sums that arrive. -/
def closeFaults (e : Env) (l : Latched) (g : Strand) : List Nat :=
  closeCauses g (fldN l.mx 4 2) (e.sum.map fun b => b.receive.1)

section
variable {o : Out} {e : Env} {l : Latched} {g : Strand} {b : SumBeat} {c : Cell} {q : Seq}

theorem uncheckedRow_keeps (o : Out) (e : Env) : (o.uncheckedRow e).dues = o.dues ∧
    (o.uncheckedRow e).faults = o.faults ∧ (o.uncheckedRow e).sends = o.sends ∧
    (o.uncheckedRow e).sumOut = o.sumOut := by
  unfold Out.uncheckedRow
  split <;> exact ⟨rfl, rfl, rfl, rfl⟩

theorem Out.Quiet.closeTakes (h : o.Quiet) : (o.closeTakes e).1.Quiet :=
  Out.Quiet.takeSum (o := { o with sumTaken := true }) ⟨h.dues, h.faults, h.sends, h.sumOut⟩

/-- A CLOSE with a cause to fault records each and stores nothing (R139). -/
theorem closeRun_of_causes (hc : o.cell = { c with seq := q }) (ho : o.Quiet) (hg : strandOf c.cfg = g)
    (hne : closeFaults e l g ≠ []) :
    (closeRun e l o).dues = [] ∧ (closeRun e l o).sends = [] ∧ (closeRun e l o).sumOut = none ∧
      ∃ c parity, (closeRun e l o).faults = (closeFaults e l g).map (matrixFlt c l parity) := by
  obtain rfl : strandOf o.cell.cfg = g := by
    rw [hc]
    exact hg
  have hp : (o.closeTakes e).1.Quiet := ho.closeTakes
  have hrun : closeRun e l o = ((o.closeTakes e).1.faulted l (parityOf (e.sum.map fun b => b.receive.1))
      (closeFaults e l (strandOf o.cell.cfg))).uncheckedRow e := by
    unfold closeRun
    dsimp only
    split
    · rename_i hnil _
      rw [takeSum_beat] at hnil
      exact absurd hnil hne
    · rw [foldl_shutter, takeSum_beat]
      rfl
  obtain ⟨hdues, hfaults, hsends, hsum⟩ := uncheckedRow_keeps ((o.closeTakes e).1.faulted l
    (parityOf (e.sum.map fun b => b.receive.1)) (closeFaults e l (strandOf o.cell.cfg))) e
  rw [hrun]
  exact ⟨hdues.trans hp.dues, hsends.trans hp.sends, hsum.trans hp.sumOut, _, _,
    hfaults.trans (hp.faulted_faults ..)⟩

/-! ### The causes of a CLOSE -/

/-- An accumulating close of an exact class, and a MODE that is not reserved (R129, R132). -/
def Strand.closesIn (g : Strand) (mode : Nat) : Prop :=
  mode ≠ 3 ∧ (g.cls = 1 ∨ g.cls = 2) ∧ g.role = 2 ∧ g.cmode = 5

theorem closesIn_iff {mode : Nat} : (decide (mode = 3) || !g.okClose) = true ↔ ¬ g.closesIn mode := by
  simp only [Strand.closesIn, Strand.okClose, Bool.or_eq_true, Bool.not_eq_true', Bool.and_eq_false_iff,
    Bool.or_eq_false_iff, decide_eq_true_eq, decide_eq_false_iff_not]
  tauto

/-- The checks of a row's codewords leave its class and window as they came. -/
theorem differs_receive : g.differs (some b.receive.1) = true ↔ ¬ g.fits b := by
  have hkept : b.receive.1.cls = b.cls ∧ b.receive.1.win = b.win ∧ b.receive.1.soff = b.soff := by
    unfold SumBeat.receive
    split <;> exact ⟨rfl, rfl, rfl⟩
  obtain ⟨hcls, hwin, hsoff⟩ := hkept
  rw [differs_iff, Strand.fits, hcls, hwin, hsoff, Strand.fits]

theorem mem_closeFaults {cause : Nat} : cause ∈ closeFaults e l g ↔
    (cause = shNOTCONFIGURED ∧ ¬ g.closesIn (fldN l.mx 4 2)) ∨ (cause = shMISSINGSUM ∧ e.sum = none) ∨
      (cause = shMISMATCH ∧ ∃ b, e.sum = some b ∧ ¬ g.fits b) := by
  have hif {p : Prop} [Decidable p] {x : Nat} : cause ∈ (if p then [x] else []) ↔ cause = x ∧ p := by
    split <;> simp [*]
  have hdiffers : g.differs (e.sum.map fun b => b.receive.1) = true ↔ ∃ b, e.sum = some b ∧ ¬ g.fits b := by
    cases e.sum
    · simp [Strand.differs]
    · simpa using differs_receive
  rw [closeFaults, closeCauses, List.mem_append, List.mem_append, hif, hif, hif, closesIn_iff, hdiffers, or_assoc,
    Option.isNone_iff_eq_none, Option.map_eq_none_iff]

theorem closeFaults_ne_nil
    (h : ¬ g.closesIn (fldN l.mx 4 2) ∨ e.sum = none ∨ ∃ b, e.sum = some b ∧ ¬ g.fits b) :
    closeFaults e l g ≠ [] := by
  rcases h with h | h | h
  · exact List.ne_nil_of_mem (mem_closeFaults.mpr (.inl ⟨rfl, h⟩))
  · exact List.ne_nil_of_mem (mem_closeFaults.mpr (.inr (.inl ⟨rfl, h⟩)))
  · exact List.ne_nil_of_mem (mem_closeFaults.mpr (.inr (.inr ⟨rfl, h⟩)))

theorem closeFaults_eq_nil (hmode : g.closesIn (fldN l.mx 4 2)) (hsum : e.sum = some b) (hfits : g.fits b) :
    closeFaults e l g = [] := by
  refine List.eq_nil_iff_forall_not_mem.mpr fun cause h => ?_
  rcases mem_closeFaults.mp h with ⟨-, h⟩ | ⟨-, h⟩ | ⟨-, b', hb', h⟩
  · exact h hmode
  · exact nomatch hsum.symm.trans h
  · exact h (Option.some.inj (hsum.symm.trans hb') ▸ hfits)

/-! ### The carry that a CLOSE reads -/

/-- A line of the scratchpad through its checks. -/
def Cell.checkedLine (c : Cell) (a : Nat) : Line × Checked := Coded.check (Smap.get Coded.zero c.pad a)

/-- A lane of the carry that a CLOSE adds to: zero at CARRY, and else as two lines hold it (R131, R132). -/
def Cell.carryLane (c : Cell) (mode a n : Nat) : CarryLane :=
  if mode = 0 then .num 0
  else carryOf (if n < 16 then fld (c.checkedLine a).1.data (64 * n) 64
    else fld (c.checkedLine ((a + 1) % 1024)).1.data (64 * (n - 16)) 64)

/-- The carry that a CLOSE adds to, as `closeRun` reads it. -/
def Out.carryFor (o : Out) (mode a : Nat) : Out × Option (List CarryLane) :=
  if mode = 0 then (o, some (List.replicate 32 (CarryLane.num 0))) else o.readCarry a

/-- A carry of good codewords is read lane by lane. -/
theorem carryFor_good {mode a : Nat} (h : mode ≠ 0 →
    (o.cell.checkedLine a).2.bad = none ∧ (o.cell.checkedLine ((a + 1) % 1024)).2.bad = none) :
    ∃ p : Out, o.carryFor mode a = (p, some ((List.range 32).map (o.cell.carryLane mode a))) ∧
      p.cell = o.cell := by
  by_cases hmode : mode = 0
  · refine ⟨o, ?_, rfl⟩
    have hzero : o.cell.carryLane mode a = fun _ => .num 0 := funext fun _ => if_pos hmode
    rw [Out.carryFor, if_pos hmode, hzero, List.map_const', List.length_range]
  · obtain ⟨hlow, hhigh⟩ := h hmode
    rw [Cell.checkedLine] at hlow hhigh
    have hlane : o.cell.carryLane mode a = fun n => carryOf
        (if n < 16 then fld (o.cell.checkedLine a).1.data (64 * n) 64
          else fld (o.cell.checkedLine ((a + 1) % 1024)).1.data (64 * (n - 16)) 64) :=
      funext fun _ => if_neg hmode
    rw [Out.carryFor, if_neg hmode, hlane]
    simp only [Out.readCarry, Out.readLine, Out.consume, Out.count, hlow, hhigh, Bool.and_self, if_true]
    exact ⟨_, rfl, rfl⟩

end

/-! ### The totals that a CLOSE stores -/

section
variable {o : Out} {e : Env} {l : Latched} {g : Strand} {b : SumBeat} {c : Cell} {q : Seq} {read : Nat → CarryLane}

/-- The total of a lane (R131). -/
def laneTotal (b : SumBeat) (read : Nat → CarryLane) (n : Nat) : CarryLane :=
  (read n).add (bitAt b.invalid n) (b.sums.getD n 0)

theorem zipIdx_map_range {α β : Type} (f : Nat → α) (h : α × Nat → β) (n : Nat) :
    (((List.range n).map f).zipIdx.map h) = (List.range n).map fun i => h (f i, i) := by
  refine List.ext_getElem (by simp) fun i hi _ => ?_
  simp

/-- What a CLOSE makes due of the totals, under its MODE (R132). -/
def Out.storesTotals (o : Out) (l : Latched) (g : Strand) (b : SumBeat) (mode : Nat) (reads : List CarryLane) : Out :=
  let o := o.tallyExact g b
  let totals := reads.zipIdx.map fun r => r.1.add (bitAt b.invalid r.2) (b.sums.getD r.2 0)
  let o := o.tallyCarry reads totals b mode
  let cwr := genLine o.cell.index l (fldN l.mx 13 7)
  if mode = 2 then
    let r := totals.map (CarryLane.toF32 g.lam)
    let o := o.due 3 (.line cwr (Coded.ofData (packLine 32 32 fun n => (r.getD n (0, 0)).1)))
    o.raiseFlags 3 (sideFlags g b ||| orFlags (r.map (·.2)))
  else
    let r := totals.map CarryLane.store
    let word := fun n => (r.getD n (0, 0)).1
    let o := o.due (1 + mode) (.line cwr (Coded.ofData (packLine 64 16 word)))
    let o := o.due (1 + mode)
      (.line ((cwr + 1) % 1024) (Coded.ofData (packLine 64 16 fun n => word (n + 16))))
    o.raiseFlags (1 + mode) (sideFlags g b ||| orFlags (r.map (·.2)))

theorem tallyCarry_cell (o : Out) (reads totals : List CarryLane) (b : SumBeat) (mode : Nat) :
    (o.tallyCarry reads totals b mode).cell = o.cell := by
  unfold Out.tallyCarry
  exact (apply_ite Out.cell ..).trans (ite_self _)

theorem getD_totals {f : CarryLane → Nat × Flags} {n : Nat} (h : n < 32) :
    (((((List.range 32).map read).zipIdx.map fun r => r.1.add (bitAt b.invalid r.2) (b.sums.getD r.2 0)).map f).getD n
      (0, 0)).1 = (f (laneTotal b read n)).1 := by
  rw [zipIdx_map_range, List.map_map]
  exact congrArg Prod.fst (getD_map_range _ _ h)

/-- At ACC_FP32 the totals are rounded to a line of F32 in the third cycle after (R132). -/
theorem storesTotals_rounded {ix : BitVec 1024} {mode : Nat} (hix : o.cell.index = ix) (hmode : mode = 2) :
    (3, .line (genLine ix l (fldN l.mx 13 7)) (Coded.ofData (packLine 32 32 fun n =>
      ((laneTotal b read n).toF32 g.lam).1))) ∈ (o.storesTotals l g b mode ((List.range 32).map read)).dues := by
  unfold Out.storesTotals
  dsimp only
  rw [if_pos hmode, packLine_congr fun n hn => getD_totals hn, tallyCarry_cell, tallyExact_cell, hix]
  exact mem_dues_raiseFlags _ mem_dues_due

/-- At CARRY and ACC the totals are stored in carry form, the low half of the lanes first (R131, R132). -/
theorem storesTotals_carry {ix : BitVec 1024} {mode : Nat} (hix : o.cell.index = ix) (hmode : mode ≠ 2) :
    (1 + mode, .line (genLine ix l (fldN l.mx 13 7)) (Coded.ofData (packLine 64 16 fun n =>
      (laneTotal b read n).store.1))) ∈ (o.storesTotals l g b mode ((List.range 32).map read)).dues ∧
    (1 + mode, .line ((genLine ix l (fldN l.mx 13 7) + 1) % 1024) (Coded.ofData (packLine 64 16 fun n =>
      (laneTotal b read (n + 16)).store.1))) ∈ (o.storesTotals l g b mode ((List.range 32).map read)).dues := by
  unfold Out.storesTotals
  dsimp only
  rw [if_neg hmode, packLine_congr fun n hn => getD_totals (n := n) (by omega),
    packLine_congr fun n hn => getD_totals (n := n + 16) (by omega), tallyCarry_cell, tallyExact_cell, hix]
  exact ⟨mem_dues_raiseFlags _ (List.mem_append_left _ mem_dues_due), mem_dues_raiseFlags _ mem_dues_due⟩

/-- A CLOSE once it has read a carry: a bad one stores nothing, and to a good one the sums are added (R132, R353). -/
def Out.closesOn (q : Out × Option (List CarryLane)) (e : Env) (l : Latched) (g : Strand) (b : SumBeat)
    (mode : Nat) : Out :=
  match q.2 with
  | none => q.1.uncheckedRow e
  | some reads => q.1.storesTotals l g b mode reads

/-- A CLOSE without a cause to fault: bad sums or a bad carry store nothing, and else the totals are stored (R132). -/
theorem closeRun_eq (hg : strandOf o.cell.cfg = g) (hcauses : closeFaults e l g = [])
    (hbeat : (o.closeTakes e).2.1 = some b) : closeRun e l o =
      let t := o.closeTakes e
      let p := t.1.consume unSumLane 0 t.2.2
      let q := p.1.carryFor (fldN l.mx 4 2) (genLine p.1.cell.index l (fldN l.mx 6 7))
      if !p.2 then p.1.uncheckedRow e
      else Out.closesOn q e l g b (fldN l.mx 4 2) := by
  subst hg
  unfold closeRun
  dsimp only
  split
  · rename_i b' _ hb'
    obtain rfl : b = b' := Option.some.inj (hbeat.symm.trans hb')
    rfl
  · rename_i hother
    rw [closeFaults, ← takeSum_beat (o := { o with sumTaken := true })] at hcauses
    exact absurd hbeat (hother _ hcauses)

/-- Good sums are taken as they are, and nothing is counted of them. -/
theorem closeTakes_good (hsum : e.sum = some b) (hres : b.resid = 0) (hpoison : b.poison = 0) :
    o.closeTakes e = ({ o with sumTaken := true }, some b, none) := by
  rw [Out.closeTakes, hsum, Out.takeSum, receive_good hres hpoison]
  rfl

/-- A CLOSE without a cause to fault, on good sums and a good carry, stores its totals (R131, R132). -/
theorem closeRun_good (hc : o.cell = { c with seq := q }) (hg : strandOf c.cfg = g) (hcauses : closeFaults e l g = [])
    (hsum : e.sum = some b) (hres : b.resid = 0) (hpoison : b.poison = 0)
    (hcarry : fldN l.mx 4 2 ≠ 0 → (c.checkedLine (genLine c.index l (fldN l.mx 6 7))).2.bad = none ∧
      (c.checkedLine ((genLine c.index l (fldN l.mx 6 7) + 1) % 1024)).2.bad = none) :
    ∃ p : Out, p.cell.index = c.index ∧ closeRun e l o = p.storesTotals l g b (fldN l.mx 4 2)
      ((List.range 32).map (c.carryLane (fldN l.mx 4 2) (genLine c.index l (fldN l.mx 6 7)))) := by
  have hcfg : strandOf o.cell.cfg = g := by
    rw [hc]
    exact hg
  have htakes := closeTakes_good (o := o) hsum hres hpoison
  obtain ⟨p, hp, hcell⟩ := carryFor_good (o := { o with sumTaken := true }) (mode := fldN l.mx 4 2)
    (a := genLine c.index l (fldN l.mx 6 7)) (by rw [hc]; exact hcarry)
  refine ⟨p, by rw [hcell, hc], ?_⟩
  rw [closeRun_eq hcfg hcauses (congrArg (·.2.1) htakes), htakes]
  dsimp only [Out.consume]
  rw [hc] at hp ⊢
  rw [hp]
  rfl

end

end Sys2Proof.Machine
end

section
/-! PROOFS. O13: MMA and CLOSE in the state: which row is driven or delivered, which faults are recorded, and which
totals are stored (R110 to R112, R116, R123 to R132, R137, R139, R187). -/
namespace Sys2Proof.Machine

/-- An operation acts on its cell as it stands, but for the sequencer, in which its slot is marked. -/
theorem begun_cell (s : State) (k : CellId) (slot : Nat) :
    ∃ q, (s.begun k slot).cell = { s.cell k with seq := q } := ⟨_, rfl⟩

/-! ### The rows of the MX slot -/

section
variable {s : State} {k : CellId} {l : Latched}

theorem exec_mma (h : s.flies k slMX l) (hop : fldN l.mx 0 4 = 2) :
    exec (.mma k) s = .next (s.acted k slMX l unMX (mmaRun (s.envOf k) l (s.begun k slMX))) :=
  (onChan_present (f := fun s => s.mxSlot k 2 mmaRun) h.1).trans
    (congrArg _ (runOut_flies _ _ h (decide_eq_true hop)))

theorem exec_close (h : s.flies k slMX l) (hop : fldN l.mx 0 4 = 3) :
    exec (.close k) s = .next (s.acted k slMX l unMX (closeRun (s.envOf k) l (s.begun k slMX))) :=
  (onChan_present (f := fun s => s.mxSlot k 3 closeRun) h.1).trans
    (congrArg _ (runOut_flies _ _ h (decide_eq_true hop)))

end

/-! ### An MMA that makes its row -/

section
variable {s : State} {k : CellId} {l : Latched} {p : Out} {g : Strand} {row : SumBeat}

/-- A cell that is not a close drives its row east: to its neighbour, over an open seam, or into a closed one, where
the row is dropped (R97, R110). -/
theorem passes_drives (hp : p.Quiet) (hclose : g.isClose = false) :
    (k.x.val < 79 → (s.acted k slMX l unMX (p.passes l g row)).newFaults = s.newFaults ∧
      (⟨s.cy + 5, k.num + 1, row, false⟩ : SumOnLane) ∈
        ((s.acted k slMX l unMX (p.passes l g row)).chan k.ch).sums) ∧
    (k.x.val = 79 → k.ch.val < 2 →
      (s.seamOpen k.ch = true → (s.acted k slMX l unMX (p.passes l g row)).newFaults = s.newFaults ∧
        (⟨s.cy + 7, k.num - 79, row, false⟩ : SumOnLane) ∈
          ((s.acted k slMX l unMX (p.passes l g row)).chan (seamPeer k.ch)).sums) ∧
      (s.seamOpen k.ch = false →
        ((s.acted k slMX l unMX (p.passes l g row)).chan (seamPeer k.ch)).sums = (s.chan (seamPeer k.ch)).sums ∧
        ∃ r : FaultRec, (s.acted k slMX l unMX (p.passes l g row)).newFaults = s.newFaults ++ [r] ∧ r.cls = 8 ∧
          r.cause = 1)) := by
  have hpass : p.passes l g row = { p with sumOut := some row } := if_neg (by simp [hclose])
  rw [hpass]
  refine ⟨fun hx => ⟨?_, acted_drives_inside hp.sends rfl hx⟩, fun hx hc =>
    ⟨acted_drives_across hp.sends rfl hp.faults hx hc, acted_drops hp.sends rfl hp.faults hx hc⟩⟩
  obtain ⟨more, hmore, hnil, -⟩ := acted_records (s := s) (k := k) (slot := slMX) (l := l) (u := unMX)
    (o := { p with sumOut := some row }) hp.sends
  rw [hmore, hnil (.inl hx), hp.faults]
  simp

/-- A close delivers its row, rounded, as a line or a half-line (R111, R129). -/
theorem passes_delivers {ix : BitVec 1024} (hix : p.cell.index = ix) (hclose : g.isClose = true) :
    ((g.cmode = 2 ∨ g.cmode = 3) → (s.acted k slMX l unMX (p.passes l g row)).dueAt k (s.cy + 5)
      (.half (genLine ix l (fldN l.mx 32 7)) (bitAt l.mx 39)
        (Coded.ofData (packBeat 16 32 (closeWord g row))))) ∧
    ((g.cmode = 1 ∨ g.cmode = 4) → (s.acted k slMX l unMX (p.passes l g row)).dueAt k (s.cy + 5)
      (.line (genLine ix l (fldN l.mx 32 7)) (Coded.ofData (packLine 32 32 (closeWord g row))))) := by
  have hpass : p.passes l g row = p.deliver l g l.mx row := if_pos hclose
  rw [hpass, ← hix]
  exact ⟨fun h => dueAt_acted (deliver_half h), fun h => dueAt_acted (deliver_line h)⟩

end

/-! ### A faulted matrix operation in the state -/

section
variable {s : State} {k : CellId} {slot u : Nat} {l : Latched} {c : Cell} {parity : Bool} {causes : List Nat}

/-- The records of a matrix operation's causes show class SHUTTER and the causes in turn (R139). -/
theorem causes_records (off : Nat) :
    ((causes.map (matrixFlt c l parity)).map (s.cellRec k off l)).map FaultRec.cause = causes ∧
      ∀ r ∈ (causes.map (matrixFlt c l parity)).map (s.cellRec k off l), r.cls = clShutter := by
  constructor
  · rw [List.map_map, List.map_map]
    exact List.map_id _
  · simp only [List.mem_map]
    rintro r ⟨f, ⟨cause, -, rfl⟩, rfl⟩
    rfl

/-- A record of a cause stands for it. -/
theorem exists_record_iff (off cause : Nat) :
    (∃ r ∈ (causes.map (matrixFlt c l parity)).map (s.cellRec k off l), r.cause = cause) ↔
      cause ∈ causes := by
  rw [← List.mem_map (f := FaultRec.cause), (causes_records off).1]

/-- The record of a missing sum is the sum lane's (R239). -/
theorem exists_missing_iff (off : Nat) :
    (∃ r ∈ (causes.map (matrixFlt c l parity)).map (s.cellRec k off l),
      r.cause = shMISSINGSUM ∧ r.unit_ = unSumLane) ↔ shMISSINGSUM ∈ causes := by
  constructor
  · rintro ⟨r, hr, hcause, -⟩
    exact (exists_record_iff off _).mp ⟨r, hr, hcause⟩
  · intro h
    exact ⟨_, List.mem_map_of_mem (List.mem_map_of_mem h), rfl, rfl⟩

end

end Sys2Proof.Machine
end

section
/-! PROOFS. O13: the statement. -/
namespace Sys2Proof.Machine

section
variable {s : State} {k : CellId} {l : Latched} {g : Strand}

/-- An MMA with a cause to fault records each, makes nothing due, and drives its row invalid (R139). -/
theorem mma_faults (h : s.flies k slMX l) (hop : fldN l.mx 0 4 = 2) (hg : strandOf (s.cell k).cfg = g)
    {causes : List Nat} (hcauses : mmaCauses (s.envOf k) g ((s.cell k).buffered l) (g.taken (s.envOf k)) = causes)
    (hne : causes ≠ []) :
    ∃ t rs more, exec (.mma k) s = .next t ∧ t.newFaults = s.newFaults ++ rs ++ more ∧
      (k.x.val < 79 → more = []) ∧ (∀ r ∈ more, r.cls = 8) ∧ rs.map FaultRec.cause = causes ∧
      (∀ r ∈ rs, r.cls = 3) ∧ (t.chan k.ch).dues = (s.chan k.ch).dues ∧
      (g.isClose = false → (g.off = false ∨ (g.taken (s.envOf k)).isSome = true) → k.x.val < 79 →
        ∃ x ∈ (t.chan k.ch).sums,
          x.at_ = s.cy + 5 ∧ x.cell = k.num + 1 ∧ x.beat.invalid = BitVec.allOnes 32) := by
  obtain ⟨q, hcell⟩ := begun_cell s k slMX
  obtain ⟨hdues, hsends, ⟨c, parity, hfaults⟩, hrow⟩ := mmaRun_of_causes hcell (quiet_begun ..) hg hcauses hne
  obtain ⟨more, hmore, hnil, hseam⟩ := acted_records (s := s) (k := k) (slot := slMX) (l := l) (u := unMX) hsends
  rw [hfaults] at hmore
  obtain ⟨hcause, hcls⟩ := causes_records (s := s) (k := k) (l := l) (c := c) (parity := parity)
    (causes := causes) (s.envOf k).off
  refine ⟨_, _, more, exec_mma h hop, hmore, fun hx => hnil (.inl hx), hseam, hcause, hcls,
    acted_dues_of_none hdues, fun hclose hstarts hx => ?_⟩
  obtain ⟨row, hsum, hinvalid⟩ := hrow hclose hstarts
  exact ⟨_, acted_drives_inside hsends hsum hx, rfl, rfl, hinvalid⟩

/-- A CLOSE with a cause to fault records each, and stores nothing (R139). -/
theorem close_faults (h : s.flies k slMX l) (hop : fldN l.mx 0 4 = 3) (hg : strandOf (s.cell k).cfg = g)
    (hne : closeFaults (s.envOf k) l g ≠ []) :
    ∃ (t : State) (rs : List FaultRec), exec (.close k) s = .next t ∧ t.newFaults = s.newFaults ++ rs ∧
      (∀ r ∈ rs, r.cls = 3) ∧ (t.chan k.ch).dues = (s.chan k.ch).dues ∧
      ((∃ r ∈ rs, r.cause = 4) ↔ ¬ g.closesIn (fldN l.mx 4 2)) ∧
      ((∃ r ∈ rs, r.cause = 6 ∧ r.unit_ = 7) ↔ (s.envOf k).sum = none) ∧
      ((∃ r ∈ rs, r.cause = 8) ↔ ∃ b, (s.envOf k).sum = some b ∧ ¬ g.fits b) := by
  obtain ⟨q, hcell⟩ := begun_cell s k slMX
  obtain ⟨hdues, hsends, hsum, c, parity, hfaults⟩ := closeRun_of_causes hcell (quiet_begun ..) hg hne
  have hrecords := acted_records_quiet (s := s) (k := k) (slot := slMX) (l := l) (u := unMX) hsends hsum
  rw [hfaults] at hrecords
  refine ⟨_, _, exec_close h hop, hrecords, (causes_records _).2, acted_dues_of_none hdues, ?_, ?_, ?_⟩
  · rw [exists_record_iff, mem_closeFaults]
    simp [shNOTCONFIGURED, shMISSINGSUM, shMISMATCH]
  · refine (exists_missing_iff _).trans (mem_closeFaults.trans ?_)
    simp [shNOTCONFIGURED, shMISSINGSUM, shMISMATCH]
  · rw [exists_record_iff, mem_closeFaults]
    simp [shNOTCONFIGURED, shMISSINGSUM, shMISMATCH]

end

/-- Settles O13: an MMA by its causes, and a CLOSE by its. -/
theorem matrixRow : Obligations.MatrixRow := by
  refine ⟨fun k s l h hop => ⟨?good, fun hne => ?faulted⟩,
    fun k s l h hop => ⟨fun hbad => ?closeFaulted, fun b hconf hsum hres hpoison hfits hcarry => ?closeGood⟩⟩
  case good =>
    intro st a hcls hclose hthrough hcomplete hwfmt hrate hopen hmid ha hagood sc hsc
    obtain ⟨q, hcell⟩ := begun_cell s k slMX
    have hstarts : (strandOf (s.cell k).cfg).startsFrom (s.cell k) (s.envOf k) st := ⟨hopen, hmid⟩
    have hcauses := mmaCauses_eq_nil (e := s.envOf k) (c := (s.cell k).buffered l) (okMma_of hcls hclose hthrough)
      hcomplete hwfmt hrate (matches_of_startsFrom hstarts) (Option.isSome_of_eq_some ha)
      fun hmx => Option.isSome_of_eq_some (hsc hmx).1
    obtain ⟨p, hp, hix, hrun⟩ := mmaRun_good hcell (quiet_begun ..) rfl hstarts hcauses ha hagood hsc
    have hexec := exec_mma h hop
    rw [hrun] at hexec
    exact ⟨_, hexec, fun hclose => (passes_drives hp hclose).1, fun hclose => (passes_drives hp hclose).2,
      fun hclose => (passes_delivers hix hclose).1, fun hclose => (passes_delivers hix hclose).2⟩
  case faulted => exact mma_faults h hop rfl rfl hne
  case closeFaulted => exact close_faults h hop rfl (closeFaults_ne_nil hbad)
  case closeGood =>
    obtain ⟨q, hcell⟩ := begun_cell s k slMX
    obtain ⟨p, hix, hrun⟩ :=
      closeRun_good hcell rfl (closeFaults_eq_nil hconf hsum hfits) hsum hres hpoison hcarry
    have hexec := exec_close h hop
    rw [hrun] at hexec
    refine ⟨_, hexec, fun hmode => dueAt_acted (storesTotals_rounded hix hmode), fun hmode => ?_⟩
    obtain ⟨hlow, hhigh⟩ := storesTotals_carry (l := l) (g := strandOf (s.cell k).cfg) (b := b)
      (read := (s.cell k).carryLane (fldN l.mx 4 2) (genLine (s.cell k).index l (fldN l.mx 6 7))) hix hmode
    rw [Nat.add_assoc]
    exact ⟨dueAt_acted hlow, dueAt_acted hhigh⟩

end Sys2Proof.Machine
end

section
/-! PROOFS. A row of the VX slot whose sources are good: the lane results under the mask fall due in the destination,
and the flags of the unmasked lanes with them (R145, R146, R163). -/
namespace Sys2Proof.Machine

/-! ### Rows and flags lane by lane -/

section
variable {m : W32} {fn : Nat → Nat × Flags} {f : Fin 32 → Nat × Flags}

theorem lanes_eq (h : ∀ i : Fin 32, fn i.val = f i) : lanes m fn = (maskedRow m fun i => w32 (f i).1,
    orFlags ((List.finRange 32).map fun i => if bitAt m i.val then (f i).2 else 0)) := by
  have hrange : List.range 32 = (List.finRange 32).map Fin.val := List.map_coe_finRange_eq_range.symm
  simp only [lanes, maskedRow, hrange, List.map_map, Function.comp_def, h]

theorem getD_fin (r : Row) (i : Fin 32) : r.getD i.val 0 = r[i] := by
  simp [Vector.getD]

theorem w32_toNat (x : W32) : w32 x.toNat = x := BitVec.ofNat_toNat ..

end

/-! ### A destination -/

/-- A legal destination takes a row. -/
theorem exists_dstEffect (c : Cell) (l : Latched) {v : VxWord} (f : Form) (r : Row) (h : v.dst.isDst = true) :
    ∃ e, dstEffect c l v f r = some e := by
  unfold dstEffect
  cases hd : v.dst <;> simp only [hd, Operand.isDst, Bool.false_eq_true] at h ⊢
  case tile => exact ⟨_, rfl⟩
  all_goals split <;> exact ⟨_, rfl⟩

section
variable {o : Out} {l : Latched} {v : VxWord} {f : Form} {r : Row} {lat n : Nat} {e : CellEffect} {fl : Flags}

theorem mem_dues_dst (h : dstEffect o.cell l v f r = some e) : (lat - 1, e) ∈ (o.dst l v f lat r).dues := by
  simp only [Out.dst, h]
  exact mem_dues_due

theorem mem_dues_raiseFlags_self (h : fl ≠ 0) : (n, .flags fl) ∈ (o.raiseFlags n fl).dues := by
  rw [Out.raiseFlags, if_neg h]
  exact mem_dues_due

end

/-! ### Rows of the VX slot -/

/-- The row runs the operation in the VX slot, under its opcode. -/
def VxRow (k : CellId) (i : Instr) (op : Nat) (run : Latched → VxWord → Out → Out) : Prop :=
  ∀ s, exec i s = s.onChan k.ch fun s => s.vxSlot k op run

theorem VxRow.exec {s : State} {k : CellId} {l : Latched} {i : Instr} {op : Nat}
    {run : Latched → VxWord → Out → Out} (hi : VxRow k i op run) (h : s.flies k slVX l) (hop : fldN l.vx 0 6 = op) :
    exec i s = .next (s.acted k slVX l unVX (run l (vxWord l.vx) (s.begun k slVX))) :=
  (hi s).trans ((onChan_present h.1).trans (congrArg _ (runOut_flies _ _ h (decide_eq_true hop))))

/-- The row is the elementwise operation of `n` sources, latency `lat` from 1, and lane function `fn`, under a
word `v`. -/
def ElemRow (k : CellId) (v : VxWord) (i : Instr) (op n lat : Nat) (fin fout : Form) (fn : LaneFn) : Prop :=
  1 ≤ lat ∧ ∃ run, VxRow k i op run ∧ ∀ l o, run l v o = o.elem l v n fin fout lat fn

section
variable {s : State} {k : CellId} {l : Latched} {o : Out} {a b c : Src} {i : Instr} {op n lat : Nat} {fin fout : Form}
  {fn : LaneFn} {r : Fin 32 → Nat × Flags}

/-- What an elementwise operation makes due once it has read good sources. -/
theorem mem_dues_elem {o' : Out} {v : VxWord} (hread : o'.readSrcs l v fin n = (o, some (a, b, c)))
    (hdst : v.dst.isDst = true) (hr : ∀ i, fn i.val a.row[i].toNat b.row[i].toNat c.row[i].toNat = r i) :
    let m := o.cell.mask v.msk
    let fl := orFlags ((List.finRange 32).map fun i => if bitAt m i.val then (r i).2 else 0) |||
      a.flagsUnder m ||| b.flagsUnder m ||| c.flagsUnder m
    ∃ f, dstEffect o.cell l v fout (maskedRow m fun i => w32 (r i).1) = some f ∧
      (lat - 1, f) ∈ (o'.elem l v n fin fout lat fn).dues ∧
      (fl ≠ 0 → (lat - 1, .flags fl) ∈ (o'.elem l v n fin fout lat fn).dues) := by
  intro m fl
  have hfn (i : Fin 32) :
      fn i.val (a.row.getD i.val 0).toNat (b.row.getD i.val 0).toNat (c.row.getD i.val 0).toNat = r i := by
    simp only [getD_fin, hr]
  obtain ⟨f, hf⟩ := exists_dstEffect o.cell l fout (maskedRow m fun i => w32 (r i).1) hdst
  refine ⟨f, hf, ?_⟩
  rw [Out.elem, hread]
  dsimp only
  rw [lanes_eq (f := r) hfn]
  exact ⟨mem_dues_raiseFlags _ (mem_dues_dst hf), mem_dues_raiseFlags_self⟩

/-- An elementwise row that reads good sources writes the lane results under its mask, with the lanes' flags. -/
theorem ElemRow.writes (hrow : ElemRow k (vxWord l.vx) i op n lat fin fout fn)
    (h : s.flies k slVX l) (hop : fldN l.vx 0 6 = op) (hdst : (vxWord l.vx).dst.isDst = true)
    (hread : (s.begun k slVX).readSrcs l (vxWord l.vx) fin n = (o, some (a, b, c)))
    (hr : ∀ i, fn i.val a.row[i].toNat b.row[i].toNat c.row[i].toNat = r i) :
    let m := o.cell.mask (vxWord l.vx).msk
    let fl := orFlags ((List.finRange 32).map fun i => if bitAt m i.val then (r i).2 else 0) |||
      a.flagsUnder m ||| b.flagsUnder m ||| c.flagsUnder m
    ∃ t f, exec i s = .next t ∧
      dstEffect o.cell l (vxWord l.vx) fout (maskedRow m fun i => w32 (r i).1) = some f ∧
      t.dueAt k (s.cy + lat - 1) f ∧ (fl ≠ 0 → t.dueAt k (s.cy + lat - 1) (.flags fl)) := by
  intro m fl
  obtain ⟨hlat, run, hi, hrun⟩ := hrow
  obtain ⟨f, hf, hdue, hflags⟩ := mem_dues_elem (lat := lat) (fout := fout) hread hdst hr
  refine ⟨_, f, hi.exec h hop, hf, ?_⟩
  rw [hrun, Nat.add_sub_assoc hlat]
  exact ⟨dueAt_acted hdue, fun hfl => dueAt_acted (hflags hfl)⟩

end

end Sys2Proof.Machine
end

section
/-! PROOFS. O4: the elementwise integer operations (R154, R156). -/
namespace Sys2Proof.Machine

theorem sshiftRight_eq_ofInt (x : W32) (n : Nat) : x.sshiftRight n = BitVec.ofInt 32 (x.toInt / 2 ^ n) := by
  rw [BitVec.sshiftRight, Int.shiftRight_eq_div_pow]
  rfl

theorem sub_eq_ofInt (x y : W32) : x - y = BitVec.ofInt 32 (x.toInt - y.toInt) :=
  BitVec.eq_of_toInt_eq (by rw [BitVec.toInt_sub, BitVec.toInt_ofInt])

/-- The integer operations: opcode, latency, and what a lane computes. -/
def intRows (k : CellId) : List (Instr × Nat × Nat × (W32 → W32 → W32)) :=
  [(.vand k, 0x04, 2, fun x y => x &&& y), (.vor k, 0x05, 2, fun x y => x ||| y),
   (.vxor k, 0x06, 2, fun x y => x ^^^ y), (.vandn k, 0x07, 2, fun x y => x &&& ~~~y),
   (.vshl k, 0x08, 2, fun x y => x <<< (y.toNat % 32)), (.vshr k, 0x09, 2, fun x y => x >>> (y.toNat % 32)),
   (.vsar k, 0x0A, 2, fun x y => BitVec.ofInt 32 (x.toInt / 2 ^ (y.toNat % 32))),
   (.viadd k, 0x0B, 2, fun x y => BitVec.ofNat 32 (x.toNat + y.toNat)),
   (.visub k, 0x0C, 2, fun x y => BitVec.ofInt 32 (x.toInt - y.toInt)),
   (.vimul k, 0x0D, 3, fun x y => BitVec.ofNat 32 (x.toNat * y.toNat))]

theorem intRow_elem {k : CellId} {v : VxWord} {e : Instr × Nat × Nat × (W32 → W32 → W32)}
    (he : e ∈ intRows k) : ElemRow k v e.1 e.2.1 2 e.2.2.1 .i32 .i32 (intOp e.2.2.2) := by
  have hsar : (fun x y : W32 => x.sshiftRight (y.toNat % 32)) =
      fun x y => BitVec.ofInt 32 (x.toInt / 2 ^ (y.toNat % 32)) :=
    funext fun x => funext fun y => sshiftRight_eq_ofInt x _
  have hsub : (fun x y : W32 => x - y) = fun x y => BitVec.ofInt 32 (x.toInt - y.toInt) :=
    funext fun x => funext fun y => sub_eq_ofInt x y
  simp only [intRows, List.mem_cons, List.not_mem_nil, or_false, ← hsar, ← hsub] at he
  rcases he with rfl | rfl | rfl | rfl | rfl | rfl | rfl | rfl | rfl | rfl <;>
  exact ⟨Nat.succ_pos _, _, fun _ => rfl, fun _ _ => rfl⟩

/-- Settles O4: every integer row is elementwise, and its lane function is the one of the statement. -/
theorem integerLaneResults : Obligations.IntegerLaneResults := by
  intro k s l o a b c e he h hop hdst hread
  obtain ⟨t, f, hexec, hf, hdue, -⟩ := (intRow_elem he).writes h hop hdst hread fun _ => rfl
  simp only [intOp, w32_toNat] at hf
  exact ⟨t, f, hexec, hf, hdue⟩

end Sys2Proof.Machine
end

section
/-! PROOFS. O5: the elementwise F32 operations (R152, R153, R155, R163). -/
namespace Sys2Proof.Machine

/-! ### The sign bit of a word -/

theorem toNat_and_magnitude (x : Nat) : (w32 x &&& 0x7FFFFFFF).toNat = x % 2 ^ 31 := by
  have h : (w32 x &&& 0x7FFFFFFF).toNat = x % 2 ^ 32 &&& (2 ^ 31 - 1) := rfl
  rw [h, Nat.and_two_pow_sub_one_eq_mod, Nat.mod_mod_of_dvd x (by decide)]

theorem toNat_xor_sign (x : Nat) : (w32 x ^^^ 0x80000000).toNat = (x + 2 ^ 31) % 2 ^ 32 := by
  have h : (w32 x ^^^ 0x80000000).toNat = x % 2 ^ 32 ^^^ 2 ^ 31 := rfl
  rw [h, Nat.add_comm]
  refine Nat.eq_of_testBit_eq fun i => ?_
  rw [Nat.testBit_xor, Nat.testBit_mod_two_pow, Nat.testBit_mod_two_pow, Nat.testBit_two_pow]
  rcases Nat.lt_trichotomy i 31 with hi | rfl | hi
  · rw [Nat.testBit_two_pow_add_gt hi]
    simp [show 31 ≠ i by omega]
  · rw [Nat.testBit_two_pow_add_eq]
    simp
  · simp [show ¬ i < 32 by omega, show 31 ≠ i by omega]

theorem absF_eq : signF (· &&& 0x7FFFFFFF) =
    fun x => if (fmtF32.unpack x).isNan then (0x7FC00000, 0) else (x % 2 ^ 31, 0) := by
  funext x
  rw [signF, toNat_and_magnitude]
  rfl

theorem negF_eq : signF (· ^^^ 0x80000000) =
    fun x => if (fmtF32.unpack x).isNan then (0x7FC00000, 0) else ((x + 2 ^ 31) % 2 ^ 32, 0) := by
  funext x
  rw [signF, toNat_xor_sign]
  rfl

/-! ### The rows -/

/-- The F32 operations: opcode, sources, latency, and what a lane computes and raises. -/
def floatRows (k : CellId) : List (Instr × Nat × Nat × Nat × (Nat → Nat → Nat → Nat × Flags)) :=
  [(.vadd k, 0x10, 2, 4, fun x y _ => fmtF32.addW x y),
   (.vsub k, 0x11, 2, 4, fun x y _ => fmtF32.addV (fmtF32.unpack x) (fmtF32.unpack y).negate),
   (.vmul k, 0x12, 2, 4, fun x y _ => fmtF32.mulW x y),
   (.vfma k, 0x13, 3, 4, fun x y z => fmtF32.fmaW Config.fmaZeroInf x y z),
   (.vabs k, 0x14, 1, 2, fun x _ _ => if (fmtF32.unpack x).isNan then (0x7FC00000, 0) else (x % 2 ^ 31, 0)),
   (.vneg k, 0x15, 1, 2, fun x _ _ =>
     if (fmtF32.unpack x).isNan then (0x7FC00000, 0) else ((x + 2 ^ 31) % 2 ^ 32, 0)),
   (.vdiv k, 0x16, 2, 12, fun x y _ => fmtF32.divW x y), (.vsqrt k, 0x17, 1, 12, fun x _ _ => fmtF32.sqrtW x),
   (.vrcp k, 0x18, 1, 8, fun x _ _ => fmtF32.divW 0x3F800000 x), (.vrsq k, 0x19, 1, 8, fun x _ _ => fmtF32.rsqW x),
   (.vexp2 k, 0x1A, 1, 10, fun x _ _ => fmtF32.exp2W x), (.vlog2 k, 0x1B, 1, 10, fun x _ _ => fmtF32.log2W x)]

theorem floatRow_elem {k : CellId} {v : VxWord} {e : Instr × Nat × Nat × Nat × (Nat → Nat → Nat → Nat × Flags)}
    (he : e ∈ floatRows k) : ElemRow k v e.1 e.2.1 e.2.2.1 e.2.2.2.1 .f32 .f32 fun _ => e.2.2.2.2 := by
  have habs : (fun x _ _ : Nat => signF (· &&& 0x7FFFFFFF) x) = fun x _ _ => _ :=
    funext fun x => funext fun _ => funext fun _ => congrFun absF_eq x
  have hneg : (fun x _ _ : Nat => signF (· ^^^ 0x80000000) x) = fun x _ _ => _ :=
    funext fun x => funext fun _ => funext fun _ => congrFun negF_eq x
  simp only [floatRows, List.mem_cons, List.not_mem_nil, or_false, ← habs, ← hneg] at he
  rcases he with rfl | rfl | rfl | rfl | rfl | rfl | rfl | rfl | rfl | rfl | rfl | rfl <;>
  exact ⟨Nat.succ_pos _, _, fun _ => rfl, fun _ _ => rfl⟩

/-- Settles O5: every F32 row is elementwise, and its lane function is the one of the statement. -/
theorem floatLaneResults : Obligations.FloatLaneResults := by
  intro k s l o a b c e he h hop hdst hread
  exact (floatRow_elem he).writes h hop hdst hread fun _ => rfl

end Sys2Proof.Machine
end

section
/-! PROOFS. O6: moves, selections, maxima, minima and conversions (R147, R156, R157, R161, R192). -/
namespace Sys2Proof.Machine

/-- What a row of this kind computes in a lane, under a word `v`: the word, without its flags. -/
def TypedRow (k : CellId) (v : VxWord) (i : Instr) (op n lat : Nat) (fin fout : Form)
    (f : Nat → Nat → Nat → Nat → Nat) : Prop :=
  ∃ fn : LaneFn, ElemRow k v i op n lat fin fout fn ∧ ∀ i x y z, (fn i x y z).1 = f i x y z

section
variable {k : CellId} {v : VxWord}

theorem vmov_typed : TypedRow k v (.vmov k) 0x01 1 2 (formOf v.ty) (formOf v.ty) fun _ x _ _ => x :=
  ⟨_, ⟨by decide, vmovRun, fun _ => rfl, fun _ _ => rfl⟩, fun _ _ _ _ => rfl⟩

theorem vsel_typed : TypedRow k v (.vsel k) 0x02 3 2 (formOf v.ty) (formOf v.ty)
    fun i x y z => if z.testBit i then x else y :=
  ⟨_, ⟨by decide, vselRun, fun _ => rfl, fun _ _ => rfl⟩, fun _ _ _ _ => rfl⟩

theorem maxI_eq_slt (x y : Nat) : maxI x y = if (w32 x).slt (w32 y) then y else x := by
  simp only [maxI, BitVec.slt, decide_eq_true_eq]

theorem minI_eq_slt (x y : Nat) : minI x y = if (w32 y).slt (w32 x) then y else x := by
  simp only [minI, BitVec.slt, decide_eq_true_eq]

theorem vmax_typed : TypedRow k v (.vmax k) 0x0E 2 2 (formOf v.ty) (formOf v.ty) fun _ x y _ =>
    if v.ty = 1 then (if (w32 x).slt (w32 y) then y else x) else (pickF true x y).1 := by
  refine ⟨_, ⟨by decide, vmaxRun, fun _ => rfl, fun _ _ => rfl⟩, fun _ x y _ => ?_⟩
  rw [apply_ite Prod.fst, maxI_eq_slt]

theorem vmin_typed : TypedRow k v (.vmin k) 0x0F 2 2 (formOf v.ty) (formOf v.ty) fun _ x y _ =>
    if v.ty = 1 then (if (w32 y).slt (w32 x) then y else x) else (pickF false x y).1 := by
  refine ⟨_, ⟨by decide, vminRun, fun _ => rfl, fun _ _ => rfl⟩, fun _ x y _ => ?_⟩
  rw [apply_ite Prod.fst, minI_eq_slt]

/-- What VCVT computes in a lane, by the conversion that FN names (R192). -/
def VxWord.convert (v : VxWord) : LaneFn := fun _ x _ _ =>
  if v.fn = 0 then f32ToI32 x else if v.fn = 1 then i32ToF32 (w32 x)
  else if v.fn = 2 then ((widenFrom v.fmt (narrowTo v.fmt x).1).1, (narrowTo v.fmt x).2) else (x, 0)

theorem vcvtRun_eq (hfn : v.fn ≤ 3) (l : Latched) (o : Out) : vcvtRun l v o = o.elem l v 1
    (if v.fn = 1 then .i32 else if v.fn = 3 then .narrow else .f32)
    (if v.fn = 0 then .i32 else if v.fn = 2 then .narrow else .f32) 3 v.convert := by
  unfold vcvtRun VxWord.convert
  obtain h | h | h | h : v.fn = 0 ∨ v.fn = 1 ∨ v.fn = 2 ∨ v.fn = 3 := by omega
  all_goals
    rw [h]
    rfl

theorem vcvt_typed (hfn : v.fn ≤ 3) : TypedRow k v (.vcvt k) 0x03 1 3
    (if v.fn = 1 then .i32 else if v.fn = 3 then .narrow else .f32)
    (if v.fn = 0 then .i32 else if v.fn = 2 then .narrow else .f32) fun _ x _ _ =>
      if v.fn = 0 then (f32ToI32 x).1 else if v.fn = 1 then (i32ToF32 (w32 x)).1
      else if v.fn = 2 then (widenFrom v.fmt (narrowTo v.fmt x).1).1 else x := by
  refine ⟨v.convert, ⟨by decide, vcvtRun, fun _ => rfl, vcvtRun_eq hfn⟩, fun _ x _ _ => ?_⟩
  simp only [VxWord.convert, apply_ite Prod.fst]

end

/-- Settles O6: each row is elementwise, in the forms and with the lane function of its type or conversion. -/
theorem typedLaneResults : Obligations.TypedLaneResults := by
  intro k s l o a b c e v form he h hop hfn hdst hread
  have hrow : TypedRow k v e.1 e.2.1 e.2.2.1 e.2.2.2.1 e.2.2.2.2.1 e.2.2.2.2.2.1 e.2.2.2.2.2.2 := by
    simp only [List.mem_cons, List.not_mem_nil, or_false] at he
    rcases he with rfl | rfl | rfl | rfl | rfl
    · exact vmov_typed
    · exact vsel_typed
    · exact vmax_typed
    · exact vmin_typed
    · exact vcvt_typed (hfn.resolve_right fun hne => hne rfl)
  obtain ⟨fn, helem, hfun⟩ := hrow
  obtain ⟨t, f, hexec, hf, hdue, -⟩ := helem.writes h hop hdst hread fun _ => rfl
  simp only [hfun] at hf
  exact ⟨t, f, hexec, hf, hdue⟩

end Sys2Proof.Machine
end

section
/-! PROOFS. O8: compares and mask operations (R146, R157, R190 to R192). -/
namespace Sys2Proof.Machine

/-! ### A word from its bits -/

theorem bitAt_foldr_bits {w : Nat} (f : Nat → Bool) (l : List Nat) {j : Nat} (hj : j < w) :
    bitAt (l.foldr (fun i acc => if f i then acc ||| (1#w <<< i) else acc) 0) j = (f j && decide (j ∈ l)) := by
  induction l with
  | nil => simp [bitAt]
  | cons i l ih =>
    have hone : bitAt (1#w <<< i) j = decide (j = i) := by
      simp only [bitAt, ← BitVec.twoPow_eq, BitVec.getLsbD_twoPow, eq_comm (a := j)]
      by_cases h : i = j
      · simp [h, hj]
      · simp [h]
    rw [List.foldr_cons]
    by_cases hi : f i = true
    · have hor (x y : BitVec w) : bitAt (x ||| y) j = (bitAt x j || bitAt y j) := BitVec.getLsbD_or
      rw [if_pos hi, hor, ih, hone]
      by_cases h : j = i
      · simp [h, hi]
      · simp [h]
    · rw [if_neg hi, ih]
      by_cases h : j = i
      · simp [h, hi]
      · simp [h]

theorem bitAt_bitsWord (f : Nat → Bool) (i : Fin 32) : bitAt (bitsWord f) i.val = f i.val := by
  rw [bitsWord, bitAt_foldr_bits f _ i.isLt]
  simp

/-! ### A destination mask -/

section
variable {o : Out} {l : Latched} {v : VxWord} {d : Nat} {m : W32}

/-- A mask other than m0 is written (R146). -/
theorem dstMask_eq (hd : v.dst = .mask d) (h0 : d ≠ 0) (lat : Nat) (m : W32) :
    o.dstMask v lat m = o.due (lat - 1) (.mask d m) := by
  simp only [Out.dstMask, hd, if_neg h0]

/-- The predicate of VCMP on two words, by the type of the operation (R157). -/
def VxWord.compares (v : VxWord) (x y : Nat) : Bool := if v.ty = 1 then cmpI v.fn x y else cmpF v.fn x y

/-- What a compare makes due once it has read good sources. -/
theorem mem_dues_compare {o' : Out} {x y z : Src} (hd : v.dst = .mask d) (h0 : d ≠ 0)
    (hread : o'.readSrcs l v (if v.ty = 1 then .i32 else .f32) 2 = (o, some (x, y, z))) :
    ∃ m, (1, .mask d m) ∈ (o'.compare l v).dues ∧ ∀ i : Fin 32, bitAt m i.val =
      (bitAt (o.cell.mask v.msk) i.val && v.compares x.row[i].toNat y.row[i].toNat) := by
  refine ⟨bitsWord fun i => bitAt (o.cell.mask v.msk) i && v.compares (x.row.getD i 0).toNat (y.row.getD i 0).toNat,
    ?_, fun i => ?_⟩
  · rw [Out.compare, hread]
    dsimp only
    rw [dstMask_eq hd h0]
    exact mem_dues_raiseFlags _ mem_dues_due
  · rw [bitAt_bitsWord, getD_fin, getD_fin]

theorem mem_dues_vmaskn {n : Nat} (hd : v.dst = .mask d) (h0 : d ≠ 0) (ha : v.sa = .imm n) :
    (1, .mask d (bitsWord fun i => decide (i < n))) ∈ (vmasknRun l v o).dues := by
  simp only [vmasknRun, ha, dstMask_eq hd h0]
  exact mem_dues_due

theorem mem_dues_vmaskb {n : Nat} (hd : v.dst = .mask d) (h0 : d ≠ 0) (ha : v.sa = .bcast n) :
    (1, .mask d (o.cell.bc.getD n 0)) ∈ (vmaskbRun l v o).dues := by
  simp only [vmaskbRun, ha, dstMask_eq hd h0]
  exact mem_dues_due

/-- What VMLOG makes of two masks (R192). -/
def VxWord.combines (v : VxWord) (x y : W32) : W32 :=
  if v.fn = 0 then x &&& y else if v.fn = 1 then x ||| y else if v.fn = 2 then x &&& ~~~y else x ^^^ y

theorem vmlogRun_eq {p q : Nat} (hfn : v.fn ≤ 3) (ha : v.sa = .mask p) (hb : v.sb = .mask q) :
    vmlogRun l v o = o.dstMask v 2 (v.combines (o.cell.mask p) (o.cell.mask q)) := by
  simp only [vmlogRun, ha, hb]
  unfold VxWord.combines
  obtain h | h | h | h : v.fn = 0 ∨ v.fn = 1 ∨ v.fn = 2 ∨ v.fn = 3 := by omega
  all_goals
    rw [h]
    rfl

theorem mem_dues_vmlog {p q : Nat} (hd : v.dst = .mask d) (h0 : d ≠ 0) (hfn : v.fn ≤ 3) (ha : v.sa = .mask p)
    (hb : v.sb = .mask q) : (1, .mask d (v.combines (o.cell.mask p) (o.cell.mask q))) ∈ (vmlogRun l v o).dues := by
  rw [vmlogRun_eq hfn ha hb, dstMask_eq hd h0]
  exact mem_dues_due

end

/-- Settles O8: each operation makes its mask due, and VMASKN's and VCMP's are words from their bits. -/
theorem maskOperations : Obligations.MaskOperations := by
  intro k s l d v b h hd h0
  refine ⟨fun hop o x y z hread => ?_, fun hop n ha => ?_, fun hop n ha => ?_, fun hop hfn p q ha hb => ?_⟩
  · obtain ⟨m, hdue, hbits⟩ := mem_dues_compare hd h0 hread
    exact ⟨_, m, VxRow.exec (run := vcmpRun) (fun _ => rfl) h hop, dueAt_acted hdue, hbits⟩
  · exact ⟨_, _, VxRow.exec (run := vmasknRun) (fun _ => rfl) h hop, dueAt_acted (mem_dues_vmaskn hd h0 ha),
      bitAt_bitsWord _⟩
  · exact ⟨_, VxRow.exec (run := vmaskbRun) (fun _ => rfl) h hop, dueAt_acted (mem_dues_vmaskb hd h0 ha)⟩
  · exact ⟨_, VxRow.exec (run := vmlogRun) (fun _ => rfl) h hop, dueAt_acted (mem_dues_vmlog hd h0 hfn ha hb)⟩

end Sys2Proof.Machine
end

section
/-! PROOFS. O9: lane reductions, row reductions and the flag word (R148, R158 to R161). -/
namespace Sys2Proof.Machine

section
variable {o o' : Out} {l : Latched} {v : VxWord} {lat j : Nat}

/-! ### Lane reductions -/

/-- With one source, that source's read gives it. -/
theorem readSrc_of_readSrcs_one_good {f : Form} {a b c : Src} (h : o'.readSrcs l v f 1 = (o, some (a, b, c))) :
    o'.readSrc l v f v.sa = (o, some a) := by
  unfold Out.readSrcs at h
  rcases hr : o'.readSrc l v f v.sa with ⟨o1, - | x⟩
  · simp [hr] at h
  · simp only [hr, Nat.le_refl, if_true, Nat.reduceLeDiff, if_false, Prod.mk.injEq, Option.some.injEq] at h
    obtain ⟨rfl, rfl, -⟩ := h
    rfl

/-- The form of the results of reduction `j`: an index is an integer (R161). -/
def redForm (v : VxWord) (j : Nat) : Form := if j < 6 then (if v.ty = 1 then .i32 else .f32) else .i32

theorem redForm_eq (v : VxWord) (j : Nat) :
    (if 6 ≤ j then Form.i32 else (if v.ty = 1 then .i32 else .f32)) = redForm v j := by
  by_cases h : j < 6
  · rw [redForm, if_pos h, if_neg (by omega)]
  · rw [redForm, if_neg h, if_pos (by omega)]

/-- The reduction `j` of the unmasked lanes of a source (R158). -/
def Src.reduced (a : Src) (m : W32) (i32 : Bool) (j : Nat) : Nat × Flags :=
  redFn 5 i32 j ((List.finRange 32).map fun i => if bitAt m i.val then some a.row[i].toNat else none)

/-- What a lane reduction makes due once it has read a good source. -/
theorem mem_dues_laneRed {a b c : Src}
    (hread : o'.readSrcs l v (if v.ty = 1 then .i32 else .f32) 1 = (o, some (a, b, c)))
    (hj : v.op % 8 = j) (hdst : v.dst.isDst = true) :
    let m := o.cell.mask v.msk
    let r := a.reduced m (v.ty = 1) j
    ∃ f, dstEffect o.cell l v (redForm v j) (Vector.replicate 32 (w32 r.1)) = some f ∧
      (lat - 1, f) ∈ (o'.laneRed l v lat).dues ∧
      (r.2 ||| a.flagsUnder m ≠ 0 → (lat - 1, .flags (r.2 ||| a.flagsUnder m)) ∈ (o'.laneRed l v lat).dues) := by
  intro m r
  have hrange : List.range 32 = (List.finRange 32).map Fin.val := List.map_coe_finRange_eq_range.symm
  obtain ⟨f, hf⟩ := exists_dstEffect o.cell l (redForm v j) (Vector.replicate 32 (w32 r.1)) hdst
  have hrun : o'.laneRed l v lat = (o.dst l v (redForm v j) lat (Vector.replicate 32 (w32 r.1))).raiseFlags (lat - 1)
      (r.2 ||| a.flagsUnder m) := by
    rw [Out.laneRed, readSrc_of_readSrcs_one_good hread]
    simp only [hj, redForm_eq, hrange, List.map_map, Function.comp_def, getD_fin]
    rfl
  rw [hrun]
  exact ⟨f, hf, mem_dues_raiseFlags _ (mem_dues_dst hf), mem_dues_raiseFlags_self⟩

/-! ### Row reductions -/

/-- A lane of row `r` of a tile; of a void row, the word of the form (R148). -/
def Cell.tileLane (c : Cell) (f : Form) (g r : Nat) (i : Fin 32) : Nat :=
  match Smap.find? c.tiles (16 * g + r) with
  | some row => row[i].toNat
  | none => voidWord f

/-- The reduction `j` of a lane over rows 0 to n - 1 of a tile (R159). -/
def Cell.reducedLane (c : Cell) (v : VxWord) (j g n : Nat) (i : Fin 32) : Nat × Flags :=
  redFn 4 (v.ty = 1) j ((List.range 16).map fun r =>
    if r < n then some (c.tileLane (if v.ty = 1 then .i32 else .f32) g r i) else none)

/-- What a row reduction makes due. -/
theorem mem_dues_rowRed {g r n : Nat} (ha : v.sa = .tile g r) (hb : v.sb = .imm n) (hj : v.op % 8 = j)
    (hdst : v.dst.isDst = true) :
    ∃ f, dstEffect o.cell l v (redForm v j)
      (maskedRow (o.cell.mask v.msk) fun i => w32 (o.cell.reducedLane v j g n i).1) = some f ∧
      (lat - 1, f) ∈ (o.rowRed l v lat).dues := by
  obtain ⟨f, hf⟩ := exists_dstEffect o.cell l (redForm v j)
    (maskedRow (o.cell.mask v.msk) fun i => w32 (o.cell.reducedLane v j g n i).1) hdst
  refine ⟨f, hf, ?_⟩
  simp only [Out.rowRed, ha, hb, hj, redForm_eq]
  rw [lanes_eq (f := o.cell.reducedLane v j g n)]
  · exact mem_dues_raiseFlags _ (mem_dues_dst hf)
  · intro i
    refine congrArg (redFn 4 (v.ty = 1) j) (List.map_congr_left fun q hq => ?_)
    have hrow : ((List.range 16).map fun r => Smap.find? o.cell.tiles (16 * g + r)).getD q none =
        Smap.find? o.cell.tiles (16 * g + q) := getD_map_range _ _ (List.mem_range.mp hq)
    rw [hrow, Cell.tileLane]
    cases Smap.find? o.cell.tiles (16 * g + q)
    · rfl
    · simp only [getD_fin]

/-! ### The flag word -/

theorem mem_dues_vflg (hdst : v.dst.isDst = true) :
    ∃ f, dstEffect o.cell l v .i32 (maskedRow (o.cell.mask v.msk) fun _ => w32 o.cell.flags.toNat) = some f ∧
      (1, f) ∈ (vflgRun l v o).dues := by
  obtain ⟨f, hf⟩ := exists_dstEffect o.cell l .i32
    (maskedRow (o.cell.mask v.msk) fun _ => w32 o.cell.flags.toNat) hdst
  refine ⟨f, hf, ?_⟩
  rw [vflgRun, lanes_eq (f := fun _ => (o.cell.flags.toNat, 0)) fun _ => rfl]
  exact mem_dues_dst hf

end

/-! ### The rows of R191 that reduce -/

/-- The row is reduction `j` of latency `lat`, from the opcode `base` on, done by `red`. -/
def RedRow (k : CellId) (base : Nat) (red : Out → Latched → VxWord → Nat → Out) (e : Instr × Nat × Nat) : Prop :=
  e.2.1 < 8 ∧ 1 ≤ e.2.2 ∧ VxRow k e.1 (base + e.2.1) fun l v o => red o l v e.2.2

/-- The lane reductions, each with its number and latency. -/
def laneReds (k : CellId) : List (Instr × Nat × Nat) :=
  [(.vlsum k, 0, 14), (.vlprod k, 1, 14), (.vlmax k, 2, 7), (.vlmin k, 3, 7), (.vland k, 4, 4), (.vlor k, 5, 4),
   (.vlargmax k, 6, 8), (.vlargmin k, 7, 8)]

/-- The row reductions. -/
def rowReds (k : CellId) : List (Instr × Nat × Nat) :=
  [(.vrsum k, 0, 18), (.vrprod k, 1, 18), (.vrmax k, 2, 9), (.vrmin k, 3, 9), (.vrand k, 4, 5), (.vror k, 5, 5),
   (.vrargmax k, 6, 10), (.vrargmin k, 7, 10)]

section
variable {s : State} {k : CellId} {l : Latched} {e : Instr × Nat × Nat}

theorem laneRed_row (he : e ∈ laneReds k) : RedRow k 0x20 Out.laneRed e := by
  simp only [laneReds, List.mem_cons, List.not_mem_nil, or_false] at he
  rcases he with rfl | rfl | rfl | rfl | rfl | rfl | rfl | rfl <;>
  exact ⟨by simp, Nat.succ_pos _, fun _ => rfl⟩

theorem rowRed_row (he : e ∈ rowReds k) : RedRow k 0x28 Out.rowRed e := by
  simp only [rowReds, List.mem_cons, List.not_mem_nil, or_false] at he
  rcases he with rfl | rfl | rfl | rfl | rfl | rfl | rfl | rfl <;>
  exact ⟨by simp, Nat.succ_pos _, fun _ => rfl⟩

/-- A lane reduction that reads a good source writes its result into all lanes, with its flags (R158). -/
theorem laneRed_writes {o : Out} {a b c : Src} (he : e ∈ laneReds k) (h : s.flies k slVX l)
    (hop : fldN l.vx 0 6 = 0x20 + e.2.1) (hdst : (vxWord l.vx).dst.isDst = true)
    (hread : (s.begun k slVX).readSrcs l (vxWord l.vx) (if (vxWord l.vx).ty = 1 then .i32 else .f32) 1 =
      (o, some (a, b, c))) :
    let m := o.cell.mask (vxWord l.vx).msk
    let r := a.reduced m ((vxWord l.vx).ty = 1) e.2.1
    ∃ t f, exec e.1 s = .next t ∧
      dstEffect o.cell l (vxWord l.vx) (redForm (vxWord l.vx) e.2.1) (Vector.replicate 32 (w32 r.1)) = some f ∧
      t.dueAt k (s.cy + e.2.2 - 1) f ∧
      (r.2 ||| a.flagsUnder m ≠ 0 → t.dueAt k (s.cy + e.2.2 - 1) (.flags (r.2 ||| a.flagsUnder m))) := by
  intro m r
  obtain ⟨hj, hlat, hrow⟩ := laneRed_row he
  have hop8 : (vxWord l.vx).op % 8 = e.2.1 := by
    have : (vxWord l.vx).op = 0x20 + e.2.1 := hop
    omega
  obtain ⟨f, hf, hdue, hflags⟩ := mem_dues_laneRed (lat := e.2.2) hread hop8 hdst
  refine ⟨_, f, hrow.exec h hop, hf, ?_⟩
  rw [Nat.add_sub_assoc hlat]
  exact ⟨dueAt_acted hdue, fun hne => dueAt_acted (hflags hne)⟩

/-- A row reduction writes, under its mask, the reduction of each lane over the rows of a tile (R159). -/
theorem rowRed_writes {g r n : Nat} (he : e ∈ rowReds k) (h : s.flies k slVX l)
    (hop : fldN l.vx 0 6 = 0x28 + e.2.1) (hdst : (vxWord l.vx).dst.isDst = true)
    (ha : (vxWord l.vx).sa = .tile g r) (hb : (vxWord l.vx).sb = .imm n) :
    ∃ t f, exec e.1 s = .next t ∧
      dstEffect (s.cell k) l (vxWord l.vx) (redForm (vxWord l.vx) e.2.1)
        (maskedRow ((s.cell k).mask (vxWord l.vx).msk) fun i =>
          w32 ((s.cell k).reducedLane (vxWord l.vx) e.2.1 g n i).1) = some f ∧
      t.dueAt k (s.cy + e.2.2 - 1) f := by
  obtain ⟨hj, hlat, hrow⟩ := rowRed_row he
  have hop8 : (vxWord l.vx).op % 8 = e.2.1 := by
    have : (vxWord l.vx).op = 0x28 + e.2.1 := hop
    omega
  obtain ⟨f, hf, hdue⟩ := mem_dues_rowRed (o := s.begun k slVX) (l := l) (lat := e.2.2) ha hb hop8 hdst
  refine ⟨_, f, hrow.exec h hop, hf, ?_⟩
  rw [Nat.add_sub_assoc hlat]
  exact dueAt_acted hdue

end

/-- Settles O9: what each reduction makes due, and VFLG. -/
theorem laneAndRowReductions : Obligations.LaneAndRowReductions := by
  constructor
  · intro k s l o a b c e v form he h hop hdst hread
    exact laneRed_writes he h hop hdst hread
  · intro k s l v form m h hdst
    refine ⟨fun e he hop g r n ha hb _ => rowRed_writes he h hop hdst ha hb, fun hop => ?_⟩
    obtain ⟨f, hf, hdue⟩ := mem_dues_vflg (o := s.begun k slVX) (l := l) hdst
    exact ⟨_, f, VxRow.exec (run := vflgRun) (fun _ => rfl) h hop, hf, dueAt_acted hdue⟩

end Sys2Proof.Machine
end

section
/-! PROOFS. Loads and stores of the LS slot, LRAND, and the faults of a queue pop (R69, R73, R74, R176, R194,
R488). -/
namespace Sys2Proof.Machine

/-- The row runs the operation in the LS slot, under its opcode. -/
def LsRow (k : CellId) (i : Instr) (op : Nat) (run : Env → Latched → Out → Out) : Prop :=
  ∀ s, exec i s = s.onChan k.ch fun s => s.lsSlot k op run

theorem LsRow.exec {s : State} {k : CellId} {l : Latched} {i : Instr} {op : Nat} {run : Env → Latched → Out → Out}
    (hi : LsRow k i op run) (h : s.flies k slLS l) (hop : lsOp l.ls = op) :
    exec i s = .next (s.acted k slLS l unLS (run (s.envOf k) l (s.begun k slLS))) :=
  (hi s).trans ((onChan_present h.1).trans (congrArg _ (runOut_flies _ _ h (decide_eq_true hop))))

/-! ### What a move makes due -/

section
variable (o : Out) (e : Env) (l : Latched)

theorem mem_dues_lpushRun : (1, .push (lsQ l.ls) (Coded.check ((Smap.get Coded.zero o.cell.pad (lsLine l o)).part
    (if lsHalf l.ls then 4 else 0) 4 : Beat)).1) ∈ (lpushRun e l o).dues := mem_dues_due

theorem mem_dues_lcopyRun : (1, .line (genLine o.cell.index l (fldN l.ls 25 7))
    (Coded.check (Smap.get Coded.zero o.cell.pad (lsLine l o))).1) ∈ (lcopyRun e l o).dues := mem_dues_due

theorem mem_dues_ltideRun :
    (1, .line (lsLine l o) (Coded.ofData (e.tick.setWidth 1024))) ∈ (ltideRun e l o).dues := mem_dues_due

theorem mem_dues_lcycRun : (1, .line (lsLine l o)
    (Coded.ofData (BitVec.ofNat 1024 (e.off + e.seqNo.toNat * 2 ^ 64)))) ∈ (lcycRun e l o).dues := mem_dues_due

variable {o l}

/-- The index table is taken from a line whose codewords are good (R176, R353). -/
theorem mem_dues_ixsetRun (h : (Coded.check (Smap.get Coded.zero o.cell.pad (lsLine l o))).2.bad = none) :
    (1, .index (Coded.check (Smap.get Coded.zero o.cell.pad (lsLine l o))).1.data) ∈ (ixsetRun e l o).dues := by
  simp only [ixsetRun, Out.readLine, h, Out.consume, if_true]
  exact mem_dues_due

/-! ### SPOP -/

variable {x : QEntry} {xs : List QEntry}

/-- SPOP of a beat with the expected tag pops it and stores it, checked (R194). -/
theorem spopRun_expected (hq : o.cell.qin.getD (lsQ l.ls) [] = x :: xs)
    (ht : expTag o.cell.index l (lsQ l.ls) (lsEtag l.ls) = x.tag.toNat) :
    (spopRun e l o).cell = o.cell.popQin (lsQ l.ls) ∧
      (1, .half (lsLine l o) (lsHalf l.ls) (Coded.check x.beat).1) ∈ (spopRun e l o).dues := by
  obtain ⟨p, hpop, hcell, -⟩ := popIn_expected (u := unLS) hq ht
  have hline : lsLine l p = lsLine l o := by
    rw [lsLine, hcell]
    rfl
  rw [spopRun, hpop]
  dsimp only
  rw [hline]
  exact ⟨hcell, mem_dues_due⟩

/-- A pop of an empty queue raises QUEUE (R69). -/
theorem popIn_empty {q etag u : Nat} (hq : o.cell.qin.getD q [] = []) :
    o.popIn l q etag u = (o.fault clQueue 1 u (w64 q) l.idx, none) := by
  simp only [Out.popIn, hq]

/-- A pop that finds another tag takes the beat all the same, and raises TAG (R73, R74). -/
theorem popIn_mismatch {q etag u : Nat} (hq : o.cell.qin.getD q [] = x :: xs)
    (ht : expTag o.cell.index l q etag ≠ x.tag.toNat) :
    ∃ p : Out, o.popIn l q etag u =
        (p.fault clTag 1 u (tagDetail (expTag o.cell.index l q etag) x.tag.toNat q) l.idx, none) ∧
      p.cell = o.cell.popQin q ∧ (o.Quiet → p.Quiet) := by
  unfold Out.popIn
  simp only [hq]
  exact ⟨_, if_neg ht, rfl, fun h => ⟨h.dues, h.faults, h.sends, h.sumOut⟩⟩

theorem spopRun_empty (hq : o.cell.qin.getD (lsQ l.ls) [] = []) :
    spopRun e l o = o.fault clQueue 1 unLS (w64 (lsQ l.ls)) l.idx := by
  rw [spopRun, popIn_empty hq]

theorem spopRun_mismatch (hq : o.cell.qin.getD (lsQ l.ls) [] = x :: xs)
    (ht : expTag o.cell.index l (lsQ l.ls) (lsEtag l.ls) ≠ x.tag.toNat) :
    ∃ p : Out, spopRun e l o = p.fault clTag 1 unLS
        (tagDetail (expTag o.cell.index l (lsQ l.ls) (lsEtag l.ls)) x.tag.toNat (lsQ l.ls)) l.idx ∧
      p.cell = o.cell.popQin (lsQ l.ls) ∧ (o.Quiet → p.Quiet) := by
  obtain ⟨p, hpop, hp⟩ := popIn_mismatch (u := unLS) hq ht
  exact ⟨p, by rw [spopRun, hpop], hp⟩

end

/-! ### LRAND (R488) -/

section
variable {s : State} {k : CellId} {l : Latched} {i : Nat}

theorem drbgDraw_unhealthy (h : (s.sec.drbgs.getD i ⟨0, false⟩).unhealthy = true) :
    ∃ sec, s.drbgDraw i = ({ s with sec := sec }, none) := by
  simp only [State.drbgDraw, h, Bool.true_or, if_true]
  exact ⟨_, rfl⟩

theorem drbgDraw_gives (h : (s.sec.drbgs.getD i ⟨0, false⟩).unhealthy = false)
    (hu : (s.sec.drbgs.getD i ⟨0, false⟩).used < 65536) :
    ∃ sec, s.drbgDraw i = ({ s with draw := s.draw + 1, sec := sec }, some (Config.entropy s.draw)) := by
  simp only [State.drbgDraw, h, Bool.false_or, decide_eq_true hu, if_true]
  exact ⟨_, rfl⟩

/-- The state after LRAND has drawn from its instance. -/
def State.drawn (s : State) (k : CellId) : State × Option (BitVec 256) := (s.marked k slLS).drbgDraw k.ch.val

theorem exec_lrand (h : s.flies k slLS l) (hop : lsOp l.ls = 8) :
    exec (.lrand k) s = .next ((s.drawn k).1.applyOut k l ((s.drawn k).1.envOf k).off unLS
      (lrandRun (s.drawn k).2 l (Out.none_ ((s.drawn k).1.cell k)))) :=
  (onChan_present (f := fun s => s.lrandSlot k) h.1).trans
    (congrArg _ (runSlot_flies _ _ h (decide_eq_true hop)))

theorem applyOut_draw (off u : Nat) (o : Out) : (s.applyOut k l off u o).draw = s.draw :=
  (congrArg State.draw (sameButChans_applyOut s k l off u o) :)

/-- What LRAND writes falls due three cycles later, once its instance has answered. -/
theorem lrand_dueAt {d : State × Option (BitVec 256)} (off : Nat) (hchans : d.1.chans = (s.marked k slLS).chans)
    (hcy : d.1.cy = s.cy) :
    (d.1.applyOut k l off unLS (lrandRun d.2 l (Out.none_ (d.1.cell k)))).dueAt k (s.cy + 3)
      (.line (genLine (s.cell k).index l (fldN l.ls 5 7)) (match d.2 with
        | some x => Coded.ofData (x.setWidth 1024)
        | none => (Coded.zero : Line).poisonAll)) := by
  have hcell : d.1.cell k = (s.cell k).markDone slLS := by
    have h : d.1.cell k = (s.marked k slLS).cell k := by rw [State.cell, State.chan, hchans]; rfl
    rw [h, State.marked, State.cell_setCell]
  rw [hcell, ← hcy]
  exact dueAt_applyOut (n := 3) _ _ _ _ _ _ mem_dues_due

end

/-! ### The statement -/

section
variable {s : State} {k : CellId} {l : Latched}

theorem lrand_writes (h : s.flies k slLS l) (hop : lsOp l.ls = 8) :
    ∃ t : State, exec (.lrand k) s = .next t ∧
      ((s.sec.drbgs.getD k.ch.val ⟨0, false⟩).unhealthy = true →
        t.dueAt k (s.cy + 3) (.line (genLine (s.cell k).index l (fldN l.ls 5 7)) (Coded.zero : Line).poisonAll) ∧
          t.draw = s.draw) ∧
      ((s.sec.drbgs.getD k.ch.val ⟨0, false⟩).unhealthy = false →
        (s.sec.drbgs.getD k.ch.val ⟨0, false⟩).used < 65536 →
        t.dueAt k (s.cy + 3) (.line (genLine (s.cell k).index l (fldN l.ls 5 7))
          (Coded.ofData ((Config.entropy s.draw).setWidth 1024))) ∧ t.draw = s.draw + 1) := by
  refine ⟨_, exec_lrand h hop, fun hun => ?_, fun hun hused => ?_⟩
  · obtain ⟨sec, hdraw⟩ := drbgDraw_unhealthy (s := s.marked k slLS) hun
    rw [State.drawn, hdraw]
    exact ⟨lrand_dueAt (s := s) _ rfl rfl, applyOut_draw ..⟩
  · obtain ⟨sec, hdraw⟩ := drbgDraw_gives (s := s.marked k slLS) hun hused
    rw [State.drawn, hdraw]
    exact ⟨lrand_dueAt (s := s) _ rfl rfl, applyOut_draw ..⟩

/-- Settles O11: each move by what its operation makes due, and a failed pop by what it records. -/
theorem lineMoves : Obligations.LineMoves := by
  constructor
  · intro k s l h c a line half
    refine ⟨fun hop => ?push, fun hop x xs hq ht => ?pop, fun hop => ?copy, fun hop hgood => ?index, fun hop => ?tide,
      fun hop => lrand_writes h hop, fun hop => ?cycle⟩
    case push =>
      exact ⟨_, LsRow.exec (run := lpushRun) (fun _ => rfl) h hop,
        dueAt_acted (mem_dues_lpushRun (s.begun k slLS) _ l)⟩
    case pop =>
      obtain ⟨hcell, hdue⟩ := spopRun_expected (o := s.begun k slLS) (s.envOf k) hq ht
      refine ⟨_, LsRow.exec (run := spopRun) (fun _ => rfl) h hop, ?_, dueAt_acted hdue⟩
      rw [acted_cell, hcell]
      exact popQin_marks _ (Nat.mod_lt _ (by decide))
    case copy =>
      exact ⟨_, LsRow.exec (run := lcopyRun) (fun _ => rfl) h hop,
        dueAt_acted (mem_dues_lcopyRun (s.begun k slLS) _ l)⟩
    case index =>
      exact ⟨_, LsRow.exec (run := ixsetRun) (fun _ => rfl) h hop,
        dueAt_acted (mem_dues_ixsetRun (o := s.begun k slLS) _ hgood)⟩
    case tide =>
      exact ⟨_, LsRow.exec (run := ltideRun) (fun _ => rfl) h hop,
        dueAt_acted (mem_dues_ltideRun (s.begun k slLS) (s.envOf k) l)⟩
    case cycle =>
      exact ⟨_, LsRow.exec (run := lcycRun) (fun _ => rfl) h hop,
        dueAt_acted (mem_dues_lcycRun (s.begun k slLS) (s.envOf k) l)⟩
  · intro k s l h hop c q x
    have hexec := LsRow.exec (i := .spop k) (run := spopRun) (fun _ => rfl) h hop
    refine ⟨fun hq => ?empty, fun b bs hq ht => ?mismatch⟩
    case empty =>
      rw [spopRun_empty (o := s.begun k slLS) (s.envOf k) hq] at hexec
      refine ⟨_, _, hexec, acted_records_quiet rfl rfl, rfl, rfl, rfl, rfl, acted_dues_of_none rfl, ?_⟩
      rw [acted_cell]
      rfl
    case mismatch =>
      obtain ⟨p, hrun, hcell, hquiet⟩ := spopRun_mismatch (o := s.begun k slLS) (s.envOf k) hq ht
      have hp := hquiet (quiet_begun s k slLS)
      have hfaults : (p.fault clTag 1 unLS (tagDetail x b.tag.toNat q) l.idx).faults =
          [⟨clTag, 1, unLS, tagDetail x b.tag.toNat q, l.idx⟩] := congrArg (· ++ [_]) hp.faults
      have hrecords := acted_records_quiet (s := s) (k := k) (slot := slLS) (l := l) (u := unLS)
        (o := p.fault clTag 1 unLS (tagDetail x b.tag.toNat q) l.idx) hp.sends hp.sumOut
      rw [hfaults] at hrecords
      rw [hrun] at hexec
      refine ⟨_, _, hexec, hrecords, rfl, rfl, rfl, rfl, rfl, acted_dues_of_none hp.dues, ?_⟩
      rw [acted_cell]
      exact (congrArg (fun c : Cell => bitAt c.qinPop q) hcell).trans (popQin_marks _ (Nat.mod_lt _ (by decide)))

end

end Sys2Proof.Machine
end

section
/-! PROOFS. O10: what an operation of the VX slot leaves as it was (R140, R145, R163, R164). -/
namespace Sys2Proof.Machine

/-! ### An outcome that only reads, pops input queues and makes changes due -/

/-- What of an outcome no read, no pop of an input queue, no fault and no change made due belongs to. -/
def Out.apart (o : Out) : Out :=
  { o with cell := { o.cell with qinPop := 0 }, dues := [], faults := [], popped := 0, ce := 0, ue := 0 }

section
variable (o : Out) (l : Latched) (v : VxWord) (f : Form)

theorem apart_due (n : Nat) (e : CellEffect) : (o.due n e).apart = o.apart := rfl

theorem apart_consume (u base : Nat) (b : Bad) : (o.consume u base b).1.apart = o.apart := by
  unfold Out.consume
  split <;> rfl

theorem apart_popIn (q etag u : Nat) : (o.popIn l q etag u).1.apart = o.apart := by
  unfold Out.popIn
  split
  · rfl
  · dsimp only
    split <;> split <;> rfl

theorem apart_readSrc (x : Operand) : (o.readSrc l v f x).1.apart = o.apart := by
  unfold Out.readSrc
  split
  case h_1 => split <;> rfl
  case h_2 =>
    dsimp only
    split <;> exact apart_consume ..
  case h_3 n etag =>
    have hpop := apart_popIn o l n etag unVX
    split
    · rename_i h
      rwa [h] at hpop
    · rename_i h
      rw [h] at hpop
      exact (apart_consume ..).trans hpop
  all_goals rfl

theorem apart_readIf (b : Prop) [Decidable b] (x : Operand) : (o.readIf l v f b x).1.apart = o.apart := by
  unfold Out.readIf
  split
  · exact apart_readSrc ..
  · rfl

theorem apart_readSrcs (n : Nat) : (o.readSrcs l v f n).1.apart = o.apart := by
  rw [readSrcs_fst, apart_readIf, apart_readIf, apart_readIf]

theorem apart_raiseFlags (n : Nat) (fl : Flags) : (o.raiseFlags n fl).apart = o.apart := by
  unfold Out.raiseFlags
  split <;> rfl

theorem apart_dst (lat : Nat) (r : Row) : (o.dst l v f lat r).apart = o.apart := by
  unfold Out.dst
  split <;> rfl

theorem apart_dstMask (lat : Nat) (m : W32) : (o.dstMask v lat m).apart = o.apart := by
  unfold Out.dstMask
  split
  · split <;> rfl
  · rfl

/-! ### The shapes of operations -/

theorem apart_elem (n lat : Nat) (fout : Form) (fn : LaneFn) : (o.elem l v n f fout lat fn).apart = o.apart := by
  have hread := apart_readSrcs o l v f n
  unfold Out.elem
  split
  · rename_i h
    rwa [h] at hread
  · rename_i h
    rw [h] at hread
    rw [apart_raiseFlags, apart_dst, hread]

theorem apart_compare : (o.compare l v).apart = o.apart := by
  have hread := apart_readSrcs o l v (if v.ty = 1 then .i32 else .f32) 2
  unfold Out.compare
  dsimp only
  split
  · rename_i h
    rwa [h] at hread
  · rename_i h
    rw [h] at hread
    rw [apart_raiseFlags, apart_dstMask, hread]

theorem apart_laneRed (lat : Nat) : (o.laneRed l v lat).apart = o.apart := by
  have hread := apart_readSrc o l v (if v.ty = 1 then .i32 else .f32) v.sa
  unfold Out.laneRed
  dsimp only
  split
  · rename_i h
    rwa [h] at hread
  · rename_i h
    rw [h] at hread
    rw [apart_raiseFlags, apart_dst, hread]

theorem apart_rowRed (lat : Nat) : (o.rowRed l v lat).apart = o.apart := by
  unfold Out.rowRed
  dsimp only
  split
  · rw [apart_raiseFlags, apart_dst]
  · rfl

theorem apart_vcvtRun : (vcvtRun l v o).apart = o.apart := by
  unfold vcvtRun
  split <;> exact apart_elem ..

theorem apart_vmasknRun : (vmasknRun l v o).apart = o.apart := by
  unfold vmasknRun
  split
  · exact apart_dstMask ..
  · rfl

theorem apart_vmaskbRun : (vmaskbRun l v o).apart = o.apart := by
  unfold vmaskbRun
  split
  · exact apart_dstMask ..
  · rfl

theorem apart_vmlogRun : (vmlogRun l v o).apart = o.apart := by
  unfold vmlogRun
  split
  · exact apart_dstMask ..
  · rfl

end

/-! ### The rows of the VX slot -/

/-- The row's operation, in the VX slot, only reads, pops input queues and makes changes due. -/
def LaneRow (k : CellId) (i : Instr) : Prop :=
  ∃ op run, VxRow k i op run ∧ ∀ l v o, (run l v o).apart = o.apart

section
variable {k : CellId} {i : Instr}

/-- The elementwise operations. -/
def vxElems (k : CellId) : List Instr :=
  [.vmov k, .vsel k, .vcvt k, .vand k, .vor k, .vxor k, .vandn k, .vshl k, .vshr k, .vsar k, .viadd k, .visub k,
   .vimul k, .vmax k, .vmin k, .vadd k, .vsub k, .vmul k, .vfma k, .vabs k, .vneg k, .vdiv k, .vsqrt k, .vrcp k,
   .vrsq k, .vexp2 k, .vlog2 k]

/-- The operations that write masks. -/
def vxMasks (k : CellId) : List Instr := [.vcmp k, .vmaskn k, .vmaskb k, .vmlog k]

theorem vxElem_laneRow (hi : i ∈ vxElems k) : LaneRow k i := by
  simp only [vxElems, List.mem_cons, List.not_mem_nil, or_false] at hi
  rcases hi with rfl | rfl | rfl | hi
  · exact ⟨_, vmovRun, fun _ => rfl, fun _ _ _ => apart_elem ..⟩
  · exact ⟨_, vselRun, fun _ => rfl, fun _ _ _ => apart_elem ..⟩
  · exact ⟨_, vcvtRun, fun _ => rfl, fun _ _ _ => apart_vcvtRun ..⟩
  · rcases hi with rfl | rfl | rfl | rfl | rfl | rfl | rfl | rfl | rfl | rfl | rfl | rfl | rfl | rfl | rfl | rfl |
      rfl | rfl | rfl | rfl | rfl | rfl | rfl | rfl <;>
    exact ⟨_, _, fun _ => rfl, fun _ _ _ => apart_elem ..⟩

theorem vxMask_laneRow (hi : i ∈ vxMasks k) : LaneRow k i := by
  simp only [vxMasks, List.mem_cons, List.not_mem_nil, or_false] at hi
  rcases hi with rfl | rfl | rfl | rfl
  · exact ⟨_, vcmpRun, fun _ => rfl, fun _ _ _ => apart_compare ..⟩
  · exact ⟨_, vmasknRun, fun _ => rfl, fun _ _ _ => apart_vmasknRun ..⟩
  · exact ⟨_, vmaskbRun, fun _ => rfl, fun _ _ _ => apart_vmaskbRun ..⟩
  · exact ⟨_, vmlogRun, fun _ => rfl, fun _ _ _ => apart_vmlogRun ..⟩

theorem laneRed_laneRow {e : Instr × Nat × Nat} (he : e ∈ laneReds k) : LaneRow k e.1 :=
  ⟨_, _, (laneRed_row he).2.2, fun _ _ _ => apart_laneRed ..⟩

theorem rowRed_laneRow {e : Instr × Nat × Nat} (he : e ∈ rowReds k) : LaneRow k e.1 :=
  ⟨_, _, (rowRed_row he).2.2, fun _ _ _ => apart_rowRed ..⟩

/-- The rows of the VX slot (R191). -/
def vxRows (k : CellId) : List Instr :=
  .vnop k :: (vxElems k ++ vxMasks k ++ (laneReds k).map (·.1) ++ (rowReds k).map (·.1) ++ [.vflg k])

theorem vxRow_laneRow (hi : i ∈ vxRows k) : LaneRow k i := by
  simp only [vxRows, List.mem_cons, List.mem_append, List.mem_map, List.not_mem_nil, or_false] at hi
  rcases hi with rfl | (((hi | hi) | ⟨e, he, rfl⟩) | ⟨e, he, rfl⟩) | rfl
  · exact ⟨_, vnopRun, fun _ => rfl, fun _ _ _ => rfl⟩
  · exact vxElem_laneRow hi
  · exact vxMask_laneRow hi
  · exact laneRed_laneRow he
  · exact rowRed_laneRow he
  · exact ⟨_, vflgRun, fun _ => rfl, fun _ _ _ => apart_dst ..⟩

end

/-! ### Rows that act through their slot -/

theorem onChan_cases {s t : State} {c : Chn} {f : State → State} (h : s.onChan c f = .next t) :
    t = s ∨ t = f s := by
  cases hc : s.hasChan c
  · rw [onChan_absent hc] at h
    exact .inl (Host.Outcome.next.inj h).symm
  · rw [onChan_present hc] at h
    exact .inr (Host.Outcome.next.inj h).symm

/-- A slot acts on the state with the slot marked, or not at all. -/
theorem runSlot_cases (s : State) (k : CellId) (slot : Nat) (is : Latched → Bool) (run : State → Latched → State) :
    s.runSlot k slot is run = s ∨ ∃ l, s.runSlot k slot is run = run (s.marked k slot) l := by
  unfold State.runSlot
  split
  · rename_i l _
    split
    · exact .inr ⟨l, rfl⟩
    · exact .inl rfl
  · exact .inl rfl

/-- A row of an outcome's slot leaves the state, or applies the outcome to it. -/
theorem runOut_cases (s : State) (k : CellId) (slot u : Nat) (is : Latched → Bool) (f : Env → Latched → Out → Out) :
    s.runOut k slot u is f = s ∨
      ∃ l, s.runOut k slot u is f = s.acted k slot l u (f (s.envOf k) l (s.begun k slot)) := by
  refine (runSlot_cases s k slot is _).imp id fun ⟨l, hl⟩ => ⟨l, ?_⟩
  simp only [envOf_marked] at hl
  rw [State.runOut, hl, State.marked, State.cell_setCell]
  rfl

/-! ### What applying an outcome leaves in the cells and channels -/

section
variable (s : State) (k : CellId) (l : Latched) (off u : Nat) (o : Out)

theorem applyOut_cell_other {c : Chn} {n : Nat} (h : (c, n) ≠ (k.ch, k.num)) :
    ((s.applyOut k l off u o).chan c).cell n = (s.chan c).cell n := by
  have hcells := congrArg (fun p => Smap.get Cell.reset p.1 n) (applyOut_cellPart s k l off u o c)
  refine hcells.trans ?_
  by_cases hc : c = k.ch
  · subst hc
    rw [State.chan_modChan]
    exact Smap.get_upsert_other _ _ _ _ _ fun hn => h (by rw [hn])
  · rw [State.chan_modChan_other _ _ _ _ hc]
    rfl

theorem countCell_chan_other {c : Chn} {ce ue : Nat} (hc : c ≠ k.ch) : (s.countCell k ce ue).chan c = s.chan c := by
  have hcount (i : Option Nat) : (s.modChan k.ch fun ch => ch.countCodes i ce ue).chan c = s.chan c :=
    State.chan_modChan_other _ _ _ _ hc
  unfold State.countCell
  split
  · rfl
  · dsimp only
    split <;> exact hcount _

end

section
variable {s : State} {k : CellId} {slot u : Nat} {l : Latched} {o : Out}

theorem marked_cell_other {c : Chn} {n : Nat} (h : (c, n) ≠ (k.ch, k.num)) :
    ((s.marked k slot).chan c).cell n = (s.chan c).cell n := by
  by_cases hc : c = k.ch
  · subst hc
    rw [chan_marked]
    exact Smap.get_upsert_other _ _ _ _ _ fun hn => h (by rw [hn])
  · rw [State.marked, State.setCell, State.chan_modChan_other _ _ _ _ hc]

theorem entered_chan_other {c : Chn} (hc : c ≠ k.ch) : (s.entered k slot l u o).chan c = s.chan c := by
  rw [State.entered, takeFaults_chan, State.takeOut, countCell_chan_other _ _ hc,
    State.chan_modChan_other _ _ _ _ hc]
  exact State.chan_modChan_other _ _ _ _ hc

/-- A channel but for its cells, the changes due, the ledger and the counting registers, which are those of `a`. -/
def Chan.besides (ch a : Chan) : Chan :=
  { ch with cells := a.cells, dues := a.dues, ledger := a.ledger, regs2 := a.regs2 }

/-- Entering an outcome apart from which nothing was done changes cells, changes due, ledger and counts only. -/
theorem besides_takeOut {p : Out} (h : o.apart = p.apart) (hp : p = s.begun k slot) (ch a : Chan) (cy : Nat) :
    (ch.takeOut k cy l u o).besides a = ch.besides a := by
  subst hp
  have hsum : o.sumTaken = false := (congrArg Out.sumTaken h :)
  have hchecked : o.checked = 0 := (congrArg Out.checked h :)
  have hunchecked : o.unchecked = 0 := (congrArg Out.unchecked h :)
  have hadd (x : W64) : x + w64 0 = x := BitVec.add_zero x
  simp only [Chan.takeOut, Chan.besides, Chan.ledgerAdd, hsum, hchecked, hunchecked, hadd]
  rfl

/-- What a lane operation leaves as it was. -/
theorem acted_apart (h : o.apart = (s.begun k slot).apart) :
    sameButChans s (s.acted k slot l u o) ∧ (∀ c, c ≠ k.ch → (s.acted k slot l u o).chan c = s.chan c) ∧
    (∀ n, n ≠ k.num → ((s.acted k slot l u o).chan k.ch).cell n = (s.chan k.ch).cell n) ∧
    { (s.acted k slot l u o).cell k with qinPop := (s.cell k).qinPop, seq := (s.cell k).seq } = s.cell k ∧
    ((s.acted k slot l u o).chan k.ch).besides (s.chan k.ch) = s.chan k.ch := by
  have hsends : o.sends = [] := (congrArg Out.sends h :)
  have hsum : o.sumOut = none := (congrArg Out.sumOut h :)
  have heq : s.acted k slot l u o = s.entered k slot l u o := by
    rw [acted_eq _ _ _ _ _ _ hsends, hsum]
    rfl
  refine ⟨?state, fun c hc => ?other, fun n hn => ?cells, ?cell, ?chan⟩
  case state => exact sameButChans_trans (sameButChans_modChan s k.ch _) (sameButChans_applyOut _ k l _ u o)
  case other => rw [heq, entered_chan_other hc]
  case cells =>
    have hne : (k.ch, n) ≠ (k.ch, k.num) := fun h => hn (congrArg Prod.snd h)
    exact (applyOut_cell_other _ k l _ u o hne).trans (marked_cell_other hne)
  case cell =>
    have hcell : { o.cell with qinPop := 0 } = { (s.begun k slot).cell with qinPop := 0 } := congrArg Out.cell h
    rw [acted_cell]
    exact congrArg (fun c : Cell => { c with qinPop := (s.cell k).qinPop, seq := (s.cell k).seq }) hcell
  case chan =>
    rw [heq, entered_keeps s k slot l u o (fun ch => ch.besides (s.chan k.ch)) (fun _ _ => rfl) (fun _ _ => rfl)
      fun ch => besides_takeOut h rfl ch _ _]
    rfl

/-- What a row of the VX slot leaves as it was. -/
theorem LaneRow.frame {t : State} {i : Instr} (hi : LaneRow k i) (h : exec i s = .next t) :
    sameButChans s t ∧ (∀ c, c ≠ k.ch → t.chan c = s.chan c) ∧
    (∀ n, n ≠ k.num → (t.chan k.ch).cell n = (s.chan k.ch).cell n) ∧
    { t.cell k with qinPop := (s.cell k).qinPop, seq := (s.cell k).seq } = s.cell k ∧
    (t.chan k.ch).besides (s.chan k.ch) = s.chan k.ch := by
  have hrefl : sameButChans s s ∧ (∀ c, c ≠ k.ch → s.chan c = s.chan c) ∧
      (∀ n, n ≠ k.num → (s.chan k.ch).cell n = (s.chan k.ch).cell n) ∧
      { s.cell k with qinPop := (s.cell k).qinPop, seq := (s.cell k).seq } = s.cell k ∧
      (s.chan k.ch).besides (s.chan k.ch) = s.chan k.ch := ⟨rfl, fun _ _ => rfl, fun _ _ => rfl, rfl, rfl⟩
  obtain ⟨op, run, hrow, hrun⟩ := hi
  rcases onChan_cases ((hrow s).symm.trans h) with rfl | rfl
  · exact hrefl
  · rcases runOut_cases s k slVX unVX (fun l => fldN l.vx 0 6 = op) (fun _ l o => run l (vxWord l.vx) o) with
      heq | ⟨l, heq⟩
    · rw [State.vxSlot, heq]
      exact hrefl
    · rw [State.vxSlot, heq]
      exact acted_apart (hrun l _ _)

end

end Sys2Proof.Machine
end

section
/-! PROOFS. O10: what an operation of the MX, LS, RT or CT slot leaves as it was, and the statement (R78, R110, R142,
R194, R197, R199). -/
namespace Sys2Proof

theorem Smap.get_map_values {α β : Type} (f : α → β) (d : α) {g : α → α} (hg : ∀ x, f (g x) = f x)
    (m : Smap α) (a : Nat) : f (Smap.get d (m.map fun p => (p.1, g p.2)) a) = f (Smap.get d m a) := by
  have hfind : Smap.find? (m.map fun p => (p.1, g p.2)) a = (Smap.find? m a).map g := by
    induction m with
    | nil => rfl
    | cons p m ih =>
      simp only [List.map_cons, Smap.find?]
      split
      · rfl
      · split
        · rfl
        · exact ih
  unfold Smap.get
  rw [hfind]
  cases Smap.find? m a
  · rfl
  · exact hg _

namespace Machine

/-! ### What stands in a cell, in a channel and in the state -/

/-- A cell but for its sequencer. -/
def Cell.unseq (c : Cell) : Cell := { c with seq := Seq.reset }

/-- What of a cell stays until a result falls due: all but marks of pops, push counters, banks, buffers, the array's
occupation and the sequencer. -/
def Cell.stands (c : Cell) : Cell :=
  { c with qinPop := 0, qoutPop := 0, pushCtr := Cell.reset.pushCtr, bankA := Bank.reset, bankB := Bank.reset,
           actBuf := none, scaleBuf := none, halfAt := none, seq := Seq.reset }

/-- The parts of a channel that no slot operation reaches. -/
def Chan.stands (ch : Chan) : Core × Vector StreamQ 64 × Vector DrainQ 32 × Chain × ChState × Smap Nat :=
  (ch.core, ch.sq, ch.dq, ch.chain, ch.gate.st, ch.resident)

/-- What an operation of a slot of cell `k` changes at most. -/
structure SlotFrame (k : CellId) (s t : State) : Prop where
  state : sameButChans s t
  cells : ∀ c n, (c, n) ≠ (k.ch, k.num) → ((t.chan c).cell n).unseq = ((s.chan c).cell n).unseq
  cell : (t.cell k).stands = (s.cell k).stands
  chans : ∀ c, (t.chan c).stands = (s.chan c).stands

section
variable {k : CellId} {s t u : State}

theorem SlotFrame.refl (k : CellId) (s : State) : SlotFrame k s s := ⟨rfl, fun _ _ _ => rfl, rfl, fun _ => rfl⟩

theorem SlotFrame.trans (h : SlotFrame k s t) (h' : SlotFrame k t u) : SlotFrame k s u where
  state := sameButChans_trans h.state h'.state
  cells c n hne := (h'.cells c n hne).trans (h.cells c n hne)
  cell := h'.cell.trans h.cell
  chans c := (h'.chans c).trans (h.chans c)

/-- A change of a channel that leaves every cell but its sequencer, and what no slot operation reaches. -/
theorem SlotFrame.modChan {c : Chn} {f : Chan → Chan} (hcell : ∀ ch n, ((f ch).cell n).unseq = (ch.cell n).unseq)
    (hchan : ∀ ch, (f ch).stands = ch.stands) : SlotFrame k s (s.modChan c f) := by
  have hcells (d : Chn) (n : Nat) : (((s.modChan c f).chan d).cell n).unseq = ((s.chan d).cell n).unseq :=
    State.modChan_keeps (fun ch => (ch.cell n).unseq) (fun ch => hcell ch n) s c d
  exact ⟨sameButChans_modChan s c f, fun d n _ => hcells d n, (congrArg Cell.stands (hcells k.ch k.num) :),
    fun d => State.modChan_keeps Chan.stands hchan s c d⟩

theorem SlotFrame.setCell {v : Cell} (hv : v.stands = (s.cell k).stands) : SlotFrame k s (s.setCell k v) where
  state := sameButChans_modChan s k.ch _
  cells c n hne := by
    by_cases hc : c = k.ch
    · subst hc
      rw [State.setCell, State.chan_modChan]
      exact congrArg Cell.unseq (Smap.get_upsert_other _ _ _ _ _ fun hn => hne (by rw [hn]))
    · rw [State.setCell, State.chan_modChan_other _ _ _ _ hc]
  cell := by rw [State.cell_setCell, hv]
  chans c := State.modChan_keeps Chan.stands (f := fun ch => ch.setCell k.num v) (fun _ => rfl) s k.ch c

theorem SlotFrame.marked (k : CellId) (s : State) (slot : Nat) : SlotFrame k s (s.marked k slot) := .setCell rfl

theorem SlotFrame.fault (r : FaultRec) : SlotFrame k s (s.fault r) := ⟨rfl, fun _ _ _ => rfl, rfl, fun _ => rfl⟩

theorem applyOut_chan_stands (s : State) (k : CellId) (l : Latched) (off u : Nat) (o : Out) (c : Chn) :
    ((s.applyOut k l off u o).chan c).stands = (s.chan c).stands := by
  have hsend (t : State) (e : Nat × QEntry) :
      ((t.send k s.cy off l e.1 e.2).chan c).stands = (t.chan c).stands :=
    send_keeps _ _ _ _ _ _ _ Chan.stands (fun _ _ => rfl) (fun _ _ => rfl) (fun _ _ => rfl) _
  have hdrive (t : State) (b : Option SumBeat) :
      ((t.driveOut k s.cy l off b).chan c).stands = (t.chan c).stands := by
    cases b
    · rfl
    · exact driveSum_keeps _ _ _ _ _ _ Chan.stands (fun _ _ => rfl) (fun _ _ => rfl) _
  have hsends (t : State) : ((t.sendAll k s.cy l off o.sends).chan c).stands = (t.chan c).stands :=
    foldl_keeps (fun t => (t.chan c).stands) (f := fun t (e : Nat × QEntry) => t.send k s.cy off l e.1 e.2) hsend
      o.sends t
  rw [applyOut_eq, hdrive, hsends, takeFaults_chan, State.takeOut, countCell_keeps _ _ _ _ _ Chan.stands fun _ _ => rfl]
  exact State.modChan_keeps Chan.stands (f := fun ch => ch.takeOut k s.cy l u o) (fun _ => rfl) s k.ch c

/-- An outcome whose cell stands leaves what a slot operation leaves. -/
theorem SlotFrame.applyOut (l : Latched) (off u : Nat) {o : Out} (ho : o.cell.stands = (s.cell k).stands) :
    SlotFrame k s (s.applyOut k l off u o) where
  state := sameButChans_applyOut s k l off u o
  cells c n hne := congrArg Cell.unseq (applyOut_cell_other s k l off u o hne)
  cell := by rw [applyOut_cell, ho]
  chans := applyOut_chan_stands s k l off u o

end

/-! ### Rows that leave a frame -/

/-- The row acts through its slot, and its operation leaves a slot operation's frame. -/
def FramedRow (k : CellId) (i : Instr) : Prop :=
  ∃ (slot : Nat) (is : Latched → Bool) (run : State → Latched → State),
    (∀ s, exec i s = s.onChan k.ch fun s => s.runSlot k slot is run) ∧ ∀ s l, SlotFrame k s (run s l)

section
variable {k : CellId} {i : Instr} {s t : State}

theorem FramedRow.frame (hi : FramedRow k i) (h : exec i s = .next t) : SlotFrame k s t := by
  obtain ⟨slot, is, run, hrow, hrun⟩ := hi
  rcases onChan_cases ((hrow s).symm.trans h) with rfl | rfl
  · exact .refl k _
  · rcases runSlot_cases s k slot is run with heq | ⟨l, heq⟩
    · rw [heq]
      exact .refl k s
    · rw [heq]
      exact (SlotFrame.marked k s slot).trans (hrun _ l)

/-- A row of an outcome in whose cell all stands that an operation may not change. -/
theorem FramedRow.ofOut {slot u : Nat} {is : Latched → Bool} {f : Env → Latched → Out → Out}
    (hi : ∀ s, exec i s = s.onChan k.ch fun s => s.runOut k slot u is f)
    (hf : ∀ e l o, (f e l o).cell.stands = o.cell.stands) : FramedRow k i :=
  ⟨slot, is, _, hi, fun _ l => .applyOut l _ _ (hf _ l _)⟩

end

/-! ### Operations of the MX slot -/

section
variable (e : Env) (l : Latched) (o : Out)

theorem raiseFlags_cell (n : Nat) (f : Flags) : (o.raiseFlags n f).cell = o.cell := by
  unfold Out.raiseFlags
  split <;> rfl

theorem mxcfgRun_cell : (mxcfgRun e l o).cell = o.cell := by
  have hcons (p : Out) (u base : Nat) (b : Bad) : (p.consume u base b).1.cell = p.cell := consume_cell ..
  unfold mxcfgRun
  dsimp only
  split <;> exact hcons (o.count _) _ _ _

theorem deliver_cell (g : Strand) (w : BitVec 40) (b : SumBeat) : (o.deliver l g w b).cell = o.cell := by
  unfold Out.deliver
  dsimp only
  rw [raiseFlags_cell]
  split <;> exact tally_cell o g b

theorem passes_cell (g : Strand) (row : SumBeat) : (o.passes l g row).cell = o.cell := by
  unfold Out.passes
  split
  · exact deliver_cell ..
  · rfl

theorem faultedRow_cell (g : Strand) (b : Option SumBeat) : (o.faultedRow g b).cell = o.cell := by
  unfold Out.faultedRow
  split
  · rfl
  · split <;> rfl

theorem multiplies_cell (g : Strand) (b : Option SumBeat) (bad : Bad) (oldA oldS : Option Line) (grp byte : Nat) :
    (o.multiplies l g b bad oldA oldS grp byte).cell = o.cell := by
  unfold Out.multiplies
  dsimp only
  split
  · split
    · rw [passes_cell, consume_cell, consume_cell, consume_cell]
    · rw [faultedRow_cell, consume_cell, consume_cell, consume_cell]
  · split
    · rw [passes_cell, consume_cell, consume_cell]
    · rw [faultedRow_cell, consume_cell, consume_cell]

theorem mmaRun_stands : (mmaRun e l o).cell.stands = o.cell.stands := by
  obtain ⟨half, hcell⟩ := occupies_cell (o := (o.takes e l (strandOf o.cell.cfg)).1) (g := strandOf o.cell.cfg)
    (mmaCauses e (strandOf o.cell.cfg) (o.takes e l (strandOf o.cell.cfg)).1.cell
      (o.takes e l (strandOf o.cell.cfg)).2.1) e.cy
  have hstands := (congrArg Cell.stands hcell).trans (congrArg Cell.stands (takes_cell (o := o) (e := e) (l := l)) :)
  rw [mmaRun_eq]
  dsimp only
  split
  · rw [faultedRow_cell]
    exact hstands
  · rw [multiplies_cell]
    exact hstands

theorem readCarry_cell (a : Nat) : (o.readCarry a).1.cell = o.cell := by
  unfold Out.readCarry
  dsimp only
  rw [consume_cell]
  exact consume_cell ..

theorem carryFor_cell (mode a : Nat) : (o.carryFor mode a).1.cell = o.cell := by
  unfold Out.carryFor
  split
  · rfl
  · exact readCarry_cell ..

theorem uncheckedRow_cell : (o.uncheckedRow e).cell = o.cell := by
  unfold Out.uncheckedRow
  split <;> rfl

theorem storesTotals_cell (g : Strand) (b : SumBeat) (mode : Nat) (reads : List CarryLane) :
    (o.storesTotals l g b mode reads).cell = o.cell := by
  unfold Out.storesTotals
  dsimp only
  split <;>
  · rw [raiseFlags_cell]
    exact (tallyCarry_cell ..).trans (tallyExact_cell ..)

theorem closesOn_cell (q : Out × Option (List CarryLane)) (g : Strand) (b : SumBeat) (mode : Nat) :
    (Out.closesOn q e l g b mode).cell = q.1.cell := by
  unfold Out.closesOn
  split
  · exact uncheckedRow_cell ..
  · exact storesTotals_cell ..

/-- A CLOSE with a cause to fault records its causes, and counts its row as unchecked (R139, R250). -/
theorem closeRun_faulted (hne : closeFaults e l (strandOf o.cell.cfg) ≠ []) : closeRun e l o =
    ((o.closeTakes e).1.faulted l (parityOf (e.sum.map fun b => b.receive.1))
      (closeFaults e l (strandOf o.cell.cfg))).uncheckedRow e := by
  unfold closeRun
  dsimp only
  split
  · rename_i hnil _
    rw [takeSum_beat] at hnil
    exact absurd hnil hne
  · rw [foldl_shutter, takeSum_beat]
    rfl

theorem closeRun_cell : (closeRun e l o).cell = o.cell := by
  have htakes : (o.closeTakes e).1.cell = o.cell := takeSum_cell
  by_cases hcauses : closeFaults e l (strandOf o.cell.cfg) = []
  · obtain ⟨b, hb⟩ : ∃ b, (o.closeTakes e).2.1 = some b := by
      rw [Out.closeTakes, takeSum_beat]
      refine Option.isSome_iff_exists.mp (Option.isSome_iff_ne_none.mpr fun hnone => ?_)
      have hmissing : shMISSINGSUM ∈ closeFaults e l (strandOf o.cell.cfg) :=
        mem_closeFaults.mpr (.inr (.inl ⟨rfl, Option.map_eq_none_iff.mp hnone⟩))
      rw [hcauses] at hmissing
      exact nomatch hmissing
    rw [closeRun_eq rfl hcauses hb]
    dsimp only
    split
    · rw [uncheckedRow_cell, consume_cell, htakes]
    · rw [closesOn_cell, carryFor_cell, consume_cell, htakes]
  · rw [closeRun_faulted _ _ _ hcauses, uncheckedRow_cell]
    exact htakes

/-! ### Operations of the LS slot -/

theorem popIn_stands (q etag u : Nat) : (o.popIn l q etag u).1.cell.stands = o.cell.stands :=
  (congrArg (fun p : Out => p.cell.stands) (apart_popIn o l q etag u) :)

theorem spopRun_stands : (spopRun e l o).cell.stands = o.cell.stands := by
  have hpop := popIn_stands l o (lsQ l.ls) (lsEtag l.ls) unLS
  unfold spopRun
  split
  all_goals
    rename_i h
    rw [h] at hpop
    exact hpop

theorem ixsetRun_cell : (ixsetRun e l o).cell = o.cell := by
  have hcons (p : Out) (u base : Nat) (b : Bad) : (p.consume u base b).1.cell = p.cell := consume_cell ..
  unfold ixsetRun
  dsimp only
  split <;> exact hcons _ _ _ _

theorem setBank_stands (c : Cell) (b : Bool) (v : Bank) : (c.setBank b v).stands = c.stands := by
  cases b <;> rfl

theorem shutterLoad_stands (scale : Bool) : (o.shutterLoad e l scale).cell.stands = o.cell.stands := by
  have hpop := popIn_stands l o (lsQ l.ls) (lsEtag l.ls) unLS
  unfold Out.shutterLoad
  dsimp only
  split
  · exact hpop
  · split
    · rename_i h
      rwa [h] at hpop
    · rename_i h
      rw [h] at hpop
      generalize hc : Out.consume _ _ _ _ = c
      have hcell : c.1.cell.stands = o.cell.stands := (congrArg Cell.stands (hc ▸ consume_cell ..)).trans hpop
      split
      · exact (setBank_stands ..).trans hcell
      · exact hcell

/-! ### ROUTE -/

theorem popOut_stands (q : Nat) : (o.popOut l q).1.cell.stands = o.cell.stands := by
  unfold Out.popOut
  split <;> rfl

theorem popOuts_stands (qs : List Nat) : (o.popOuts l qs).1.cell.stands = o.cell.stands := by
  induction qs generalizing o with
  | nil => rfl
  | cons q qs ih =>
    by_cases hq : namesQueue l q
    · rw [(popOuts_names hq).1, ih, popOut_stands]
    · rw [popOuts_skips hq, ih]

theorem routeRun_stands : (routeRun e l o).cell.stands = o.cell.stands := by
  rw [routeRun_eq]
  dsimp only
  rw [arriveAll_cell, popOuts_stands]

end

/-! ### Operations of the CT slot -/

section
variable (k : CellId) (s : State) (l : Latched)

/-- An operation on the sequencer of its own cell. -/
theorem SlotFrame.modSeq (f : Seq → Seq) : SlotFrame k s (s.modCell k fun c => { c with seq := f c.seq }) :=
  .setCell rfl

/-- A cell after the release of a group for which it may wait (R92). -/
def Cell.woken (c : Cell) (g cy : Nat) : Cell :=
  if c.seq.waitGroup = some g then { c with seq := { c.seq with waitGroup := none, nextAt := cy } } else c

theorem wakeCells_unseq (ch : Chan) (g cy n : Nat) :
    (Smap.get Cell.reset (wakeCells ch.cells g cy) n).unseq = (ch.cell n).unseq := by
  refine Smap.get_map_values Cell.unseq Cell.reset (g := fun c => c.woken g cy) (fun c => ?_) ch.cells n
  unfold Cell.woken
  split <;> rfl

theorem SlotFrame.releaseGroup (c : Chn) (g : Nat) : SlotFrame k s (s.releaseGroup c g) := by
  have hrelease (ch : Chan) : (∀ n, ((ch.releaseGroup g s.cy).cell n).unseq = (ch.cell n).unseq) ∧
      (ch.releaseGroup g s.cy).stands = ch.stands := by
    unfold Chan.releaseGroup
    dsimp only
    split
    · split
      · exact ⟨wakeCells_unseq ch g s.cy, rfl⟩
      · exact ⟨fun _ => rfl, rfl⟩
    · exact ⟨fun _ => rfl, rfl⟩
  exact .modChan (fun ch => (hrelease ch).1) fun ch => (hrelease ch).2

theorem SlotFrame.syncFault (cause g : Nat) : SlotFrame k s (s.syncFault k l cause g) := .fault _

theorem barrRun_frame : SlotFrame k s (barrRun k s l) := by
  rw [barrRun_cases rfl rfl]
  refine (SlotFrame.releaseGroup k s k.ch (fldN l.ct 6 12)).trans ?_
  split
  · exact .syncFault ..
  · split
    · exact .syncFault ..
    · exact .modChan (fun _ _ => rfl) fun _ => rfl

theorem bwaitRun_frame : SlotFrame k s (bwaitRun k s l) := by
  refine (SlotFrame.releaseGroup k s k.ch (fldN l.ct 6 12)).trans ?_
  unfold bwaitRun
  dsimp only
  split
  · exact .modSeq _ _ fun q => { q with waitGroup := some (fldN l.ct 6 12) }
  · exact .syncFault ..

theorem contribute_frame (on : Bool) : SlotFrame k s (contribute k s l on) := by
  unfold contribute
  dsimp only
  split
  · exact .modChan (fun _ _ => rfl) fun _ => rfl
  · exact .syncFault ..

theorem readTree_frame (and_ : Bool) : SlotFrame k s (readTree k s l and_) := by
  unfold readTree
  dsimp only
  split
  · exact .applyOut l _ _ rfl
  · exact .syncFault ..

theorem shswRun_frame : SlotFrame k s (shswRun k s l) := by
  refine .applyOut l _ _ ?_
  split <;> rfl

theorem tchkRun_frame : SlotFrame k s (tchkRun k s l) := by
  refine .applyOut l _ _ ?_
  split
  · rfl
  · split <;> rfl

end

/-! ### The rows of the four slots -/

section
variable {k : CellId} {i : Instr}

/-- The rows of the MX, LS and RT slots, LRAND apart. -/
def outRows (k : CellId) : List Instr :=
  [.mxnop k, .mxcfg k, .mma k, .close k, .lsnop k, .lpush k, .spop k, .lcopy k, .shld k, .shlds k, .ixset k, .ltide k,
   .lcyc k, .route k]

/-- The rows of the CT slot, SGNL and TAKE apart. -/
def ctRows (k : CellId) : List Instr :=
  [.cnop k, .loop k, .idle k, .bend k, .shsw k, .tchk k, .barr k, .bwait k, .fset k, .fclr k, .frdo k, .frda k]

theorem outRow_framed (hi : i ∈ outRows k) : FramedRow k i := by
  simp only [outRows, List.mem_cons, List.not_mem_nil, or_false] at hi
  rcases hi with rfl | rfl | rfl | rfl | rfl | rfl | rfl | rfl | rfl | rfl | rfl | rfl | rfl | rfl
  · exact .ofOut (f := mxnopRun) (fun _ => rfl) fun _ _ _ => rfl
  · exact .ofOut (f := mxcfgRun) (fun _ => rfl) fun e l o => congrArg Cell.stands (mxcfgRun_cell e l o)
  · exact .ofOut (f := mmaRun) (fun _ => rfl) mmaRun_stands
  · exact .ofOut (f := closeRun) (fun _ => rfl) fun e l o => congrArg Cell.stands (closeRun_cell e l o)
  · exact .ofOut (f := lsnopRun) (fun _ => rfl) fun _ _ _ => rfl
  · exact .ofOut (f := lpushRun) (fun _ => rfl) fun _ _ _ => rfl
  · exact .ofOut (f := spopRun) (fun _ => rfl) spopRun_stands
  · exact .ofOut (f := lcopyRun) (fun _ => rfl) fun _ _ _ => rfl
  · exact .ofOut (f := shldRun) (fun _ => rfl) fun e l o => shutterLoad_stands e l o false
  · exact .ofOut (f := shldsRun) (fun _ => rfl) fun e l o => shutterLoad_stands e l o true
  · exact .ofOut (f := ixsetRun) (fun _ => rfl) fun e l o => congrArg Cell.stands (ixsetRun_cell e l o)
  · exact .ofOut (f := ltideRun) (fun _ => rfl) fun _ _ _ => rfl
  · exact .ofOut (f := lcycRun) (fun _ => rfl) fun _ _ _ => rfl
  · exact .ofOut (f := routeRun) (fun _ => rfl) routeRun_stands

theorem ctRow_framed (hi : i ∈ ctRows k) : FramedRow k i := by
  simp only [ctRows, List.mem_cons, List.not_mem_nil, or_false] at hi
  rcases hi with rfl | rfl | rfl | rfl | rfl | rfl | rfl | rfl | rfl | rfl | rfl | rfl
  · exact ⟨_, _, cnopRun k, fun _ => rfl, fun s _ => .refl k s⟩
  · exact ⟨_, _, loopRun k, fun _ => rfl, fun s _ => .setCell rfl⟩
  · exact ⟨_, _, idleRun k, fun _ => rfl, fun s _ => .setCell rfl⟩
  · exact ⟨_, _, bendRun k, fun _ => rfl, fun s _ => .setCell rfl⟩
  · exact ⟨_, _, shswRun k, fun _ => rfl, shswRun_frame k⟩
  · exact ⟨_, _, tchkRun k, fun _ => rfl, tchkRun_frame k⟩
  · exact ⟨_, _, barrRun k, fun _ => rfl, barrRun_frame k⟩
  · exact ⟨_, _, bwaitRun k, fun _ => rfl, bwaitRun_frame k⟩
  · exact ⟨_, _, fsetRun k, fun _ => rfl, fun s l => contribute_frame k s l true⟩
  · exact ⟨_, _, fclrRun k, fun _ => rfl, fun s l => contribute_frame k s l false⟩
  · exact ⟨_, _, frdoRun k, fun _ => rfl, fun s l => readTree_frame k s l false⟩
  · exact ⟨_, _, frdaRun k, fun _ => rfl, fun s l => readTree_frame k s l true⟩

end

/-- Settles O10: the rows of the VX slot only read, pop and make due; the others leave a slot operation's frame. -/
theorem cellFrames : Obligations.CellFrames := by
  refine ⟨fun k s t i hi h => (vxRow_laneRow hi).frame h, fun k s t i hi h => ?_⟩
  have hrow : FramedRow k i :=
    (List.mem_append.mp (show i ∈ outRows k ++ ctRows k from hi)).elim outRow_framed ctRow_framed
  have hframe := hrow.frame h
  refine ⟨hframe.state, fun c n hne => ?_, ?_, fun c => ?_⟩
  · exact congrArg (fun x : Cell => { x with seq := ((s.chan c).cell n).seq }) (hframe.cells c n hne)
  · intro x y
    have hcell : x.stands = y.stands := hframe.cell
    simp only [Cell.stands, Cell.mk.injEq] at hcell
    tauto
  · have hchan := hframe.chans c
    simpa only [Chan.stands, Prod.mk.injEq] using hchan

end Machine
end Sys2Proof
end

section
/-! PROOFS. The signals of a gate: a channel that reports ready, a long wait, a clear asked for (R221, R228, R164). -/
namespace Sys2Proof.Machine

/-! ### No order has reached its mark -/

section
variable {s : State} {n : Nat}

theorem dueOrder_of_noMark (h : s.noMark) : s.dueOrder n = none := by
  unfold State.dueOrder
  cases ho : s.orderAt n with
  | none => rfl
  | some o =>
    have hlt := h n o ho
    simp [Nat.not_le.mpr hlt]

theorem actsNow_of_noMark {typ : Byte} (h : s.noMark) : s.actsNow n typ = none := by
  unfold State.actsNow
  rw [dueOrder_of_noMark h]

theorem applyMarks_of_noMark (h : s.noMark) : s.applyMarks = s := by
  have hhalt := List.foldl_fixed' (fun n => haltMark_none (actsNow_of_noMark (n := n) h)) (List.range 4)
  have hfreq := List.foldl_fixed' (fun n => freqMark_none (actsNow_of_noMark (n := n) h)) (List.range 4)
  have hslack := List.foldl_fixed' (fun n => slackMark_none (actsNow_of_noMark (n := n) h)) (List.range 4)
  simp only [State.applyMarks, hhalt, hfreq, hslack]

end

theorem chan_of_chans {s t : State} (h : t.chans = s.chans) (c : Chn) : t.chan c = s.chan c :=
  congrArg (Quad.get · c) h

/-! ### Readiness and long waits -/

section
variable {c l : Chn} {s : State} {b : BEntry}

theorem chnOf_val (c : Chn) : chnOf c.val = c := by simp [chnOf]

/-- A channel that may pass but for its peers is ready; its leader waits for no other joint block. -/
theorem reportReady_of_mayPass (hb : (s.chan c).gate.target = some b) (hl : beLeader b = l.val) (hne : l ≠ c)
    (hpass : s.mayPass c 0b0110111 = true) (hready : (s.chan c).gate.ready = false)
    (hjoint : ∀ e, (s.chan l).gate.target = some e → bitAt (beChset e) c.val = true → beJoint e = beJoint b) :
    s.reportReady c = s.modGate c fun g => { g with ready := true } := by
  have hleader : chnOf (beLeader b) = l := by rw [hl, chnOf_val]
  have hcond : (beLeader b < 4 && decide (l ≠ c) && s.mayPass c 0b0110111 && !(s.chan c).gate.ready) = true := by
    rw [hpass, hready, hl]
    simp [hne]
  have hpeer : (s.modGate c fun g => { g with ready := true }).chan l = s.chan l :=
    State.chan_modChan_other s c l _ hne
  unfold State.reportReady
  simp only [hb, hleader, if_pos hcond, hpeer]
  split
  · next e _ _ he =>
    refine if_neg ?_
    simpa using hjoint e he
  · rfl

theorem gateLong_of_long (hst : (s.chan c).gate.st = .gate) (hlim : (s.chan c).regs.gwLim ≠ 0)
    (hsaid : (s.chan c).gate.longSaid = false) (hlong : (s.chan c).regs.gwLim.toNat < (s.chan c).gate.openTicks) :
    ∃ d0, s.gateLong c = ((s.modGate c fun g => { g with longSaid := true }).internal 0x8001 d0
      (s.chan c).gate.seq.toNat).raise (evChan c 4) := by
  have hlim' : (s.chan c).regs.gwLim.toNat ≠ 0 := fun h => hlim (BitVec.eq_of_toNat_eq h)
  refine ⟨_, if_pos ?_⟩
  simp [hst, hlim', hsaid, hlong]

theorem gateLong_of_short (h : (s.chan c).regs.gwLim = 0 ∨ (s.chan c).gate.longSaid = true ∨
    (s.chan c).gate.openTicks ≤ (s.chan c).regs.gwLim.toNat) : s.gateLong c = s := by
  refine if_neg ?_
  rcases h with h | h | h
  · simp [h]
  · simp [h]
  · simp [Nat.not_lt.mpr h]

end

/-- Settles O23: with no mark reached each row acts on the state as it stands. -/
theorem gateSignals : Obligations.GateSignals := by
  refine fun c s hc => ⟨fun b l hb hl hne hmark hpass hready hjoint => ?_, fun hst hlim hsaid hlong => ?_,
    fun h => ?_, ?_⟩
  · have hrow : execJointReady c s = .next (s.applyMarks.reportReady c) := onChan_present hc
    exact hrow.trans (by rw [applyMarks_of_noMark hmark, reportReady_of_mayPass hb hl hne hpass hready hjoint]; rfl)
  · obtain ⟨d0, hrow⟩ := gateLong_of_long hst hlim hsaid hlong
    have hjournal := sameButJournal_internal (s.modGate c fun g => { g with longSaid := true }) 0x8001 d0
      (s.chan c).gate.seq.toNat
    have hchan : (s.gateLong c).chan c =
        { s.chan c with gate := { (s.chan c).gate with longSaid := true } } := by
      rw [hrow, State.chan_raise, chan_of_chans hjournal.chans c]
      exact State.chan_modChan ..
    have hrun : execGateWaitLong c s = .next (s.gateLong c) := onChan_present hc
    refine ⟨s.gateLong c, hrun, ?_, ?_, ?_⟩
    · rw [hchan]
    · rw [hrow, State.raise_ev, hjournal.ev]
      rfl
    · rw [hchan, ← hsaid]
  · have hrow : execGateWaitLong c s = .next (s.gateLong c) := onChan_present hc
    exact hrow.trans (congrArg _ (gateLong_of_short h))
  · have hrow : execClearNext c s = .next (s.requestClear c) := onChan_present hc
    exact hrow

end Sys2Proof.Machine
end

section
/-! PROOFS. GATE and BCAST of a control core: the block named, the fault of a bad entry, the value kept (R150, R222,
R224). -/
namespace Sys2Proof.Machine

/-! ### Holding a channel, loading its code -/

section
variable {α : Type}

/-- Code is loaded into pages of cells of one channel, or none is needed. -/
theorem loadNext_cases (s : State) (c : Chn) : s.loadNext c = s ∨ ∃ cs bands page, ∃ res : Chan → Smap Nat,
    s.loadNext c = s.modChan c fun ch => { ch.loadCode cs bands page with resident := res ch } := by
  unfold State.loadNext
  dsimp only
  split
  · exact .inl rfl
  · next b _ =>
    generalize ((s.chan c).codeReady c b || _) = ready
    split
    · exact .inl rfl
    · split
      · exact .inl rfl
      · exact .inr ⟨_, _, _, fun ch => (List.range 8).foldl (fun m band =>
          if beBand b c band then Smap.upsert m (residentKey (bePage b) band) (beCodeset b) else m) ch.resident, rfl⟩

/-- Loading code touches the cells' pages and the resident sets of one channel. -/
theorem loadNext_keeps (p : Chan → α) (hp : ∀ ch cells res, p { ch with cells := cells, resident := res } = p ch)
    (s : State) (c d : Chn) : p ((s.loadNext c).chan d) = p (s.chan d) := by
  obtain h | ⟨cs, bands, page, res, h⟩ := loadNext_cases s c
  · rw [h]
  · rw [h]
    exact State.modChan_keeps p (fun ch => hp ch _ _) s c d

theorem chan_holdChan (s : State) (c : Chn) : (s.holdChan c).chan c = { s.chan c with gate := { (s.chan c).gate with
    st := .held, phase := .none, ready := false, parts := [] } } :=
  State.chan_modChan s c fun ch => { ch with gate := { ch.gate with
    st := .held, phase := .none, ready := false, parts := [] } }

theorem raised_holdChan (s : State) (c : Chn) : (s.holdChan c).ev.raised = s.ev.raised ++ [evChan c 0] := rfl

end

/-! ### A lone fault of a control core -/

section
variable {s : State} {c : Chn} {r : FaultRec}

theorem chans_logRecord (s : State) (x : BitVec 512) : (s.logRecord x).1.chans = s.chans := by
  unfold State.logRecord
  dsimp only
  split <;> rfl

theorem raised_logRecord (s : State) (x : BitVec 512) :
    (s.logRecord x).1.ev.raised = s.ev.raised ++ [evFaultLogged] := by
  unfold State.logRecord
  dsimp only
  split <;> rfl

/-- A fault of a channel outside its cells is logged, and noted at the gate. -/
theorem recordFault_outside (hc : r.chan = c.val) (hcell : r.inCell = false) :
    ((s.recordFault r).chan c = { s.chan c with gate := (s.chan c).gate.note r (s.chan c).gate.seq }) ∧
      (s.recordFault r).ev.raised = s.ev.raised ++ [evFaultLogged] := by
  have hlt : ¬ 4 ≤ r.chan := by omega
  have hchn : chnOf r.chan = c := by rw [hc, chnOf_val]
  have hcount : ∀ ch : Chan, ch.countFault r = ch := fun ch => by simp [Chan.countFault, hcell]
  unfold State.recordFault
  simp only [if_neg hlt, hchn, hcell, Bool.false_eq_true, if_false, hcount]
  refine ⟨?_, raised_logRecord ..⟩
  rw [State.chan_modChan, chan_of_chans (chans_logRecord ..) c, State.chan_modChan]

theorem flushFaults_none (h : s.newFaults = []) : s.flushFaults = s := if_pos (by rw [h]; rfl)

theorem flushFaults_one (h : s.newFaults = [r]) :
    s.flushFaults = ({ s with newFaults := [] } : State).recordFault r := by
  have hne : ¬ s.newFaults.isEmpty = true := by simp [h]
  exact (if_neg hne).trans (by rw [h]; rfl)

/-- A fault at GATE leaves the core, faults the gate, and holds a channel whose gate waits for GATE. -/
theorem gateRefused_one (h : s.newFaults = [r]) (hc : r.chan = c.val) (hcell : r.inCell = false) :
    ((s.gateRefused c).chan c).core = (s.chan c).core ∧ ((s.gateRefused c).chan c).gate.faulted = true ∧
      evFaultLogged ∈ (s.gateRefused c).ev.raised ∧
      ((s.chan c).gate.st = .gate → (s.chan c).gate.phase = .waitGate →
        ((s.gateRefused c).chan c).gate.st = .held) := by
  obtain ⟨hchan, hev⟩ := recordFault_outside (s := { s with newFaults := [] }) hc hcell
  rw [← flushFaults_one h] at hchan hev
  have hnow : ({ s with newFaults := [] } : State).chan c = s.chan c := rfl
  rw [hnow] at hchan
  unfold State.gateRefused
  dsimp only
  split
  · simp [chan_holdChan, raised_holdChan, hchan, hev, Gate.note]
  · next hwait =>
    refine ⟨by rw [hchan], by rw [hchan]; rfl, by simp [hev], fun hst hphase => absurd ?_ hwait⟩
    simp [hst, hphase]

end

/-! ### The two outcomes of GATE -/

section
variable {c : Chn} {s : State} {w : W32}

/-- The core after GATE named a good entry: it waits for the release. -/
def State.gateNamed (s : State) (c : Chn) (w : W32) : State :=
  ((s.modGate c fun g => { g with interval := none }).coreNext c fun k =>
    { k with wait := .gate (s.sreg c (insA w)).toNat (BitVec.ofNat 5 (insD w)) }).modGate c fun g => { g with
      next := s.part.blocks[(s.sreg c (insA w)).toNat]?
      nextIdx := (s.sreg c (insA w)).toNat
      phase := if g.phase = .waitGate then .opening else g.phase }

theorem gateRow_good (hops : ∀ o ∈ s.sync.ops, o.src ≠ .endpoint c.val) (hmiss : s.intervalFaults c = [])
    (hbad : s.badEntry c (s.sreg c (insA w)) = none) : gateRow s c w = (s.gateNamed c w).loadNext c := by
  have hany : (s.sync.ops.any fun o => o.src = .endpoint c.val) = false := by simpa using hops
  have hbad' : (s.modGate c fun g => { g with interval := none }).badEntry c (s.sreg c (insA w)) = none := hbad
  unfold gateRow
  simp only [hany, Bool.false_eq_true, if_false, hmiss, List.foldl_nil, hbad', List.isEmpty_nil, if_true]
  rfl

/-- The channel after a good GATE, but for what loading its code touches. -/
theorem chan_gateNamed (s : State) (c : Chn) (w : W32) : (s.gateNamed c w).chan c = { s.chan c with
    core := ({ (s.chan c).core with
      wait := .gate (s.sreg c (insA w)).toNat (BitVec.ofNat 5 (insD w)) } : Core).advance s.cy
    gate := { (s.chan c).gate with
      interval := none
      next := s.part.blocks[(s.sreg c (insA w)).toNat]?
      nextIdx := (s.sreg c (insA w)).toNat
      phase := if (s.chan c).gate.phase = .waitGate then .opening else (s.chan c).gate.phase } } := by
  simp [State.gateNamed, State.modGate, State.coreNext, State.modCore]

/-- The state in which a GATE of a bad entry is refused. -/
def State.gateBad (s : State) (c : Chn) (w : W32) (d0 d1 : W64) : State :=
  ((s.modGate c fun g => { g with interval := none }).coreFault c clSync scBADBLOCK (s.chan c).core.pc d0 d1).coreResult
    c w ones64

theorem gateRow_bad {d0 d1 : W64} (hops : ∀ o ∈ s.sync.ops, o.src ≠ .endpoint c.val)
    (hmiss : s.intervalFaults c = []) (hbad : s.badEntry c (s.sreg c (insA w)) = some (scBADBLOCK, d0, d1)) :
    gateRow s c w = (s.gateBad c w d0 d1).gateRefused c := by
  have hany : (s.sync.ops.any fun o => o.src = .endpoint c.val) = false := by simpa using hops
  have hbad' : (s.modGate c fun g => { g with interval := none }).badEntry c (s.sreg c (insA w)) =
      some (scBADBLOCK, d0, d1) := hbad
  unfold gateRow
  simp only [hany, Bool.false_eq_true, if_false, hmiss, List.foldl_nil, hbad']
  rfl

theorem chan_gateBad (s : State) (c : Chn) (w : W32) (d0 d1 : W64) : (s.gateBad c w d0 d1).chan c = { s.chan c with
    core := ((s.chan c).core.setReg (insD w) ones64).goesOn s.cy
    gate := { (s.chan c).gate with interval := none } } := by
  simp [State.gateBad, State.modGate, State.coreResult, State.coreNext, State.modCore, State.coreFault, Core.advance,
    Core.goesOn]

theorem newFaults_gateBad {d0 d1 : W64} (h : s.newFaults = []) :
    ∃ r, (s.gateBad c w d0 d1).newFaults = [r] ∧ r.chan = c.val ∧ r.inCell = false := by
  let r : FaultRec := { FaultRec.ofChan c clSync scBADBLOCK unCcore d0 d1 with
    bundle := (s.chan c).core.pc % 65536, page := 0 }
  exact ⟨r, congrArg (· ++ [r]) h, rfl, rfl⟩

theorem badEntry_of_bad {i : W64} (h : s.part.blocks[i.toNat]? = none ∨
    ∃ b, s.part.blocks[i.toNat]? = some b ∧ crcGood 64 b.toNat = false) :
    s.badEntry c i = some (scBADBLOCK, i, ones64) := by
  unfold State.badEntry
  rcases h with h | ⟨b, h, hcrc⟩
  · rw [h]
  · rw [h]
    simp [hcrc]

end

/-! ### Reading the codeword first -/

section
variable (c : Chn) (s : State) (ce ue : Nat)

theorem countChan_aside : (s.countChan c ce ue).sync = s.sync ∧ (s.countChan c ce ue).img = s.img ∧
    (s.countChan c ce ue).newFaults = s.newFaults := by
  unfold State.countChan
  split <;> exact ⟨rfl, rfl, rfl⟩

theorem chan_countChan : ∃ r, (s.countChan c ce ue).chan c = { s.chan c with regs2 := r } := by
  unfold State.countChan
  split
  · exact ⟨_, rfl⟩
  · exact ⟨_, State.chan_modChan s c fun ch => ch.countCodes none ce ue⟩

end

/-! ### A command of a control core in its turn -/

section
variable {c : Chn} {s : State} {w : W32}

/-- The state in which an instruction acts: its codeword's corrections are counted. -/
def State.fetched (s : State) (c : Chn) : State :=
  s.countChan c (s.chan c).core.fetch.2.ce (s.chan c).core.fetch.2.ue

theorem execGate_issues (h : s.issues c .gate w) : exec (.gate c) s = .next (gateRow (s.fetched c) c w) := by
  have hrow : execGate c s = .next (s.coreRow c .gate gateRow) := onChan_present h.1
  exact hrow.trans (congrArg _ (coreRow_issues gateRow h))

theorem execBcast_issues (h : s.issues c .bcast w) : exec (.bcast c) s = .next (bcastRow (s.fetched c) c w) := by
  have hrow : execBcast c s = .next (s.coreRow c .bcast bcastRow) := onChan_present h.1
  exact hrow.trans (congrArg _ (coreRow_issues bcastRow h))

theorem core_bcastRow (s : State) (c : Chn) (w : W32) : ((bcastRow s c w).chan c).core = { (s.chan c).core with
    pc := (s.chan c).core.pc + 4, readyAt := s.cy + 1, landAt := s.cy + 40
    bcasts := (s.chan c).core.bcasts ++
      [(fldN w 8 3, if fldN w 0 8 = 0 then 0xFF else fld w 0 8, fld ((s.chan c).core.reg (fldN w 16 5)) 0 32)] } := by
  have hbands : fld w 0 8 = 0#8 ↔ fldN w 0 8 = 0 := BitVec.toNat_inj.symm.trans (by simp [fld, fldN])
  simp [bcastRow, State.coreNext, Core.advance, State.sreg, insA, hbands]

end

/-- Settles O35: the codeword's corrections touch nothing that GATE reads, and a bad entry leaves one fault. -/
theorem coreGateAndBroadcast : Obligations.CoreGateAndBroadcast := by
  intro c s w
  obtain ⟨r, hchan⟩ := chan_countChan c s (s.chan c).core.fetch.2.ce (s.chan c).core.fetch.2.ue
  obtain ⟨hsync, himg, hfaults⟩ := countChan_aside c s (s.chan c).core.fetch.2.ce (s.chan c).core.fetch.2.ue
  have hcy : (s.fetched c).cy = s.cy := cy_countChan ..
  change (s.fetched c).chan c = _ at hchan
  change (s.fetched c).sync = _ at hsync
  change (s.fetched c).img = _ at himg
  change (s.fetched c).newFaults = _ at hfaults
  have hpart : (s.fetched c).part = s.part := by rw [State.part, himg, State.part]
  have hreg : (s.fetched c).sreg c (insA w) = (s.chan c).core.reg (fldN w 16 5) := by
    rw [State.sreg, hchan]
    rfl
  refine ⟨fun hi hops hnew hmiss => ?_, fun hi => ?_⟩
  · have hmiss' : (s.fetched c).intervalFaults c = [] := by
      rw [← hmiss, State.intervalFaults, hchan]
      rfl
    rw [← hsync] at hops
    refine ⟨fun hgood => ?_, fun hbad => ?_⟩
    · have hgood' : (s.fetched c).badEntry c ((s.fetched c).sreg c (insA w)) = none := by
        rw [← hgood, hreg, State.badEntry, hpart]
        rfl
      refine ⟨_, (execGate_issues hi).trans (congrArg _ (gateRow_good hops hmiss' hgood')), ?_⟩
      have hcore := loadNext_keeps Chan.core (fun _ _ _ => rfl) ((s.fetched c).gateNamed c w) c c
      have hgate := loadNext_keeps Chan.gate (fun _ _ _ => rfl) ((s.fetched c).gateNamed c w) c c
      rw [hcore, hgate, chan_gateNamed, hchan, hcy, hpart, hreg]
      exact ⟨rfl, rfl, rfl, fun hphase => if_pos hphase, fun hphase => if_neg hphase⟩
    · have hbad' := badEntry_of_bad (c := c) (hpart ▸ hbad)
      rw [← hreg] at hbad'
      refine ⟨_, (execGate_issues hi).trans (congrArg _ (gateRow_bad hops hmiss' hbad')), ?_⟩
      obtain ⟨r, hone, hrchan, hcell⟩ := newFaults_gateBad (c := c) (w := w) (hfaults.trans hnew)
      obtain ⟨hcore, hfaulted, hev, hheld⟩ := gateRefused_one hone hrchan hcell
      rw [chan_gateBad, hchan] at hheld
      refine ⟨?_, hfaulted, hev, hheld⟩
      rw [hcore, chan_gateBad, hchan, hcy]
      rfl
  · refine ⟨_, execBcast_issues hi, ?_⟩
    rw [core_bcastRow, hchan, hcy]

end Sys2Proof.Machine
end

section
/-! PROOFS. Steps 2 to 11 of a gate: what the checks find when all is well, what is cleared, where the channel goes
(R146, R148, R164, R218, R225, R299). -/
namespace Sys2Proof.Machine

/-! ### Cells as the gate leaves them -/

section
variable {α : Type}

theorem mem_upsert {m : Smap α} {a : Nat} {w : α} {e : Nat × α} (h : e ∈ Smap.upsert m a w) :
    e = (a, w) ∨ e ∈ m := by
  induction m with
  | nil => exact .inl (List.mem_singleton.mp h)
  | cons x m ih =>
    simp only [Smap.upsert] at h
    split at h
    · exact (List.mem_cons.mp h).imp_right (List.mem_cons_of_mem x)
    · split at h
      · exact List.mem_cons.mp h
      · rcases List.mem_cons.mp h with h | h
        · exact .inr (h ▸ List.mem_cons_self ..)
        · exact (ih h).imp_right (List.mem_cons_of_mem x)

theorem get_default_or_mem (d : α) (m : Smap α) (a : Nat) : Smap.get d m a = d ∨ ∃ e ∈ m, e.2 = Smap.get d m a := by
  induction m with
  | nil => exact .inl rfl
  | cons x m ih =>
    unfold Smap.get Smap.find?
    split
    · next v hv =>
      split at hv
      · exact .inr ⟨x, List.mem_cons_self .., by simpa using hv⟩
      · split at hv
        · exact absurd hv (by simp)
        · rw [Smap.get, hv] at ih
          exact ih.imp_right fun ⟨e, he, h⟩ => ⟨e, List.mem_cons_of_mem x he, h⟩
    · exact .inl rfl

end

/-- Void tiles, all lanes unmasked, the sequencer at rest. -/
def Cell.atRest (c : Cell) : Prop :=
  c.tiles = [] ∧ c.seq = Seq.reset ∧ c.masks = Vector.replicate 8 (BitVec.allOnes 32)

/-- Every listed cell is at rest. -/
def CellsRest (m : Smap Cell) : Prop := ∀ e ∈ m, e.2.atRest

section
variable {m : Smap Cell} {c : Cell}

theorem CellsRest.get (h : CellsRest m) (n : Nat) : (Smap.get Cell.reset m n).atRest := by
  obtain hr | ⟨e, he, hr⟩ := get_default_or_mem Cell.reset m n
  · rw [hr]
    exact ⟨rfl, rfl, rfl⟩
  · exact hr ▸ h e he

theorem CellsRest.upsert (h : CellsRest m) (n : Nat) (hc : c.atRest) : CellsRest (Smap.upsert m n c) := by
  intro e he
  rcases mem_upsert he with rfl | he
  · exact hc
  · exact h e he

theorem atRest_setPage (h : c.atRest) (page : Bool) (v : Smap Bundle) : (c.setPage page v).atRest := by
  cases page <;> exact h

theorem CellsRest.landOne (h : CellsRest m) (b : Nat × Byte × W32) : CellsRest (landOne m b) := by
  refine List.foldlRecOn (motive := CellsRest) _ _ h fun m hm n _ => ?_
  split
  · exact hm.upsert n (hm.get n)
  · exact hm

theorem CellsRest.loadCode {ch : Chan} (h : CellsRest ch.cells) (cs : Smap (Smap (BitVec 256)))
    (bands : Nat → Bool) (page : Bool) : CellsRest (ch.loadCode cs bands page).cells := by
  have hcleared : CellsRest (ch.cells.map fun e =>
      if bands (e.1 / 320) then (e.1, e.2.setPage page []) else e) := by
    intro e he
    obtain ⟨x, hx, rfl⟩ := List.mem_map.mp he
    split
    · exact atRest_setPage (h x hx) page []
    · exact h x hx
  refine List.foldlRecOn (motive := CellsRest) _ _ hcleared fun m hm e _ => ?_
  split
  · exact hm.upsert _ (atRest_setPage (hm.get _) page _)
  · exact hm

end

/-- What step 5 leaves of a channel: cells at rest, no contribution in a flag tree. -/
def Chan.cleared (ch : Chan) : Prop := CellsRest ch.cells ∧ ∀ e ∈ ch.trees, e.2.set_ = []

theorem cleared_gateClear (ch : Chan) (land : Bool) : (ch.gateClear land).cleared := by
  have hcells : ∀ clear, CellsRest (ch.cells.map fun e => (e.1, e.2.gateClear clear)) := by
    intro clear e he
    obtain ⟨x, _, rfl⟩ := List.mem_map.mp he
    exact ⟨rfl, rfl, rfl⟩
  have htrees : ∀ e ∈ ch.trees.map fun t => (t.1, { t.2 with set_ := [], history := [] }), e.2.set_ = [] := by
    intro e he
    obtain ⟨x, _, rfl⟩ := List.mem_map.mp he
    rfl
  cases land with
  | false => exact ⟨hcells _, htrees⟩
  | true => exact ⟨List.foldlRecOn (motive := CellsRest) _ _ (hcells _) fun m hm b _ => hm.landOne b, htrees⟩

/-- Step 5 and 6 change no gate, no register but CLEAR_NEXT, and not what the core waits for. -/
theorem gateClear_keeps (ch : Chan) (land : Bool) : (ch.gateClear land).gate = ch.gate ∧
    (ch.gateClear land).regs2 = ch.regs2 ∧ (ch.gateClear land).regs.gateOr = ch.regs.gateOr ∧
    (ch.gateClear land).regs.stopAfter = ch.regs.stopAfter ∧ (ch.gateClear land).core.wait = ch.core.wait := by
  cases land <;> exact ⟨rfl, rfl, rfl, rfl, rfl⟩

theorem cleared_loadNext {s : State} {c : Chn} (h : (s.chan c).cleared) : ((s.loadNext c).chan c).cleared := by
  obtain hn | ⟨cs, bands, page, res, hn⟩ := loadNext_cases s c
  · rw [hn]
    exact h
  · rw [hn, State.chan_modChan]
    exact ⟨h.1.loadCode cs bands page, h.2⟩

/-! ### The checks of steps 2 to 4 -/

section
variable {c : Chn} {s : State} {b : BEntry}

theorem checkLedger_equal (h : ∀ e ∈ s.growth c b ++ s.identities c, e.2.1 = e.2.2) : s.checkLedger c b = s :=
  List.foldlRecOn (motive := (· = s)) _ _ rfl fun t ht e he => by rw [if_pos (h e he), ht]

theorem checkLatches_none (h : ∀ g ∈ (s.chan c).barriers, g.2.latched = []) : s.checkLatches c = s :=
  List.foldlRecOn (motive := (· = s)) _ _ rfl fun t ht g hg => by rw [h g hg, ht]; rfl

/-- The flag words are gathered; the coverage check writes the job and events. -/
def State.gathered (s : State) (c : Chn) (j : Job) (e : Events) : State :=
  { s.modChan c Chan.gather with job := j, ev := e }

theorem chan_gathered (s : State) (c : Chn) (j : Job) (e : Events) :
    (s.gathered c j e).chan c = (s.chan c).gather := State.chan_modChan s c Chan.gather

theorem checkCoverage_cases (s : State) (c : Chn) (b : BEntry) :
    ∃ j e, s.checkCoverage c b = { s with job := j, ev := e } := by
  unfold State.checkCoverage
  dsimp only
  split
  · exact ⟨_, _, rfl⟩
  · exact ⟨_, _, rfl⟩

/-- Gathering the flag words changes nothing that the ledger compares. -/
theorem compared_gather (s : State) (c : Chn) (b : BEntry) :
    (s.modChan c Chan.gather).growth c b ++ (s.modChan c Chan.gather).identities c =
      s.growth c b ++ s.identities c := by
  simp only [State.growth, State.identities, State.chan_modChan]
  rfl

/-- With every comparison equal and no latch set, the checks gather the flag words and find nothing. -/
theorem closeChecks_clean (hled : ∀ e ∈ s.growth c b ++ s.identities c, e.2.1 = e.2.2)
    (hlatch : ∀ g ∈ (s.chan c).barriers, g.2.latched = []) :
    ∃ j e, s.closeChecks c b = s.gathered c j e := by
  unfold State.closeChecks
  rw [checkLedger_equal (by rwa [compared_gather]), checkLatches_none (by rwa [State.chan_modChan])]
  exact checkCoverage_cases ..

end

/-! ### Step 7 -/

section
variable {c : Chn} {s : State} {b : BEntry}

theorem pairPut_frame (s : State) (c : Chn) (r : BitVec 512) : (s.pairPut c r).recov = s.recov ∧
    ∃ x, x.fwDue = (s.chan c).regs2.fwDue ∧ (s.pairPut c r).chan c = { s.chan c with regs2 := x } := by
  unfold State.pairPut
  dsimp only
  split
  · refine ⟨rfl, _, ?_, State.chan_modChan _ c _⟩
    rfl
  · exact ⟨rfl, _, rfl, rfl⟩

/-- A channel with one more record in its digest chain. -/
def Chan.withRecord (ch : Chan) (r : BitVec 512) (p : Pending) : Chan :=
  { ch with chain := ch.chain.add r p, regs2 := { ch.regs2 with digRecs := ch.regs2.digRecs + 1 } }

theorem makeRecord_frame (s : State) (c : Chn) (p : Pending) : (s.makeRecord c p).recov = s.recov ∧
    ∃ v x, x.fwDue = (s.chan c).regs2.fwDue ∧
      (s.makeRecord c p).chan c = { s.chan c with chain := v, regs2 := x } := by
  obtain ⟨hrecov, x, hx, hchan⟩ :=
    pairPut_frame (s.modChan c (·.withRecord (s.blockRecord c p) p)) c (s.blockRecord c p)
  rw [State.chan_modChan] at hx hchan
  exact ⟨hrecov, _, x, hx, hchan⟩

/-- Digests enter the chain, the job, host memory and the pair ring. -/
theorem digestGate_frame (s : State) (c : Chn) (b : BEntry) : (s.digestGate c b).recov = s.recov ∧
    ∃ v x, x.fwDue = (s.chan c).regs2.fwDue ∧
      (s.digestGate c b).chan c = { s.chan c with chain := v, regs2 := x } := by
  unfold State.digestGate
  dsimp only
  split
  · exact ⟨rfl, _, _, rfl, rfl⟩
  · split
    · exact makeRecord_frame { s with job := _ } c _
    · exact ⟨rfl, _, _, rfl, State.chan_modChan _ c _⟩

/-- The gate's fields once step 7 has passed and the channel stands at the end of step 9. -/
def Gate.passed (g : Gate) : Gate := { g with
  seq := g.seq + 1, faults := [], firsts := [], parts := [], checkedLanes := 0, uncheckedLanes := 0
  replay := none, restarted := false, phase := .slack }

theorem stepSlack_none (hfw : (s.chan c).regs2.fwDue = false) (hslack : (s.chan c).gate.slackPassed = true) :
    s.stepSlack c = (s.modGate c fun g => { g with phase := .slack }).afterSlack c := by
  have hchan : (s.modGate c fun g => { g with phase := .slack }).chan c =
      { s.chan c with gate := { (s.chan c).gate with phase := .slack } } := State.chan_modChan ..
  have hdue : (s.modGate c fun g => { g with phase := .slack }).slackDue c = false := by
    rw [State.slackDue, hchan]
    simp [hslack]
  unfold State.stepSlack
  simp only [hchan, hfw, hdue, Bool.false_eq_true, if_false]

theorem stepSave_none (hsave : s.recov.saveDue = false) :
    s.stepSave c = (s.modGate c fun g => { g with phase := .saving }).stepSlack c := by
  refine if_pos ?_
  have hsave' : (s.modGate c fun g => { g with phase := .saving }).recov.saveDue = false := hsave
  simp [State.saveStuck, State.saveWanted, hsave']

/-- With no save point, window or switch due, a gate that passes is at step 10. -/
theorem passChan_step10 (hsave : s.recov.saveDue = false) (hfw : (s.chan c).regs2.fwDue = false)
    (hslack : (s.chan c).gate.slackPassed = true) :
    ∃ (t : State) (v : Chain) (x : ChRegs2), s.passChan c b = t.afterSlack c ∧
      t.chan c = { s.chan c with chain := v, regs2 := x, gate := (s.chan c).gate.passed } := by
  obtain ⟨hrecov, v, x, hx, hchan⟩ := digestGate_frame s c b
  refine ⟨_, v, x, (stepSave_none (hrecov ▸ hsave)).trans (stepSlack_none ?_ ?_), ?_⟩
  · simp only [State.modGate, State.chan_modChan, hchan, hx, hfw]
  · simp only [State.modGate, State.chan_modChan, hchan, hslack]
  · simp only [State.modGate, State.chan_modChan, hchan, Gate.passed]

end

/-! ### Steps 10 and 11 -/

section
variable {c : Chn} {s : State}

theorem afterSlack_halted (hfault : (s.chan c).gate.faulted = false) (hreset : (s.chan c).gate.resetDue = false)
    (hhalt : (s.chan c).gate.halted = true) : s.afterSlack c = s.stopChan c 1 := by
  have hwhy : (s.chan c).stopWhy = 1 := if_pos hhalt
  simp [State.afterSlack, hfault, hreset, hwhy]

theorem afterSlack_opens (hfault : (s.chan c).gate.faulted = false) (hreset : (s.chan c).gate.resetDue = false)
    (hhalt : (s.chan c).gate.halted = false) (hafter : (s.chan c).regs.stopAfter ≠ (s.chan c).gate.seq - 1)
    (hnow : (s.chan c).gate.stopNow = false) : s.afterSlack c = s.enterOpening c := by
  have hwhy : (s.chan c).stopWhy = 0 := by
    simp only [Chan.stopWhy, hhalt, hafter, hnow, decide_false, Bool.and_false, Bool.false_eq_true, if_false]
  simp [State.afterSlack, hfault, hreset, hwhy]

theorem chan_stopChan (s : State) (c : Chn) (cause : BitVec 3) : (s.stopChan c cause).chan c = { s.chan c with
    gate := { (s.chan c).gate with
      st := .stopped, phase := .none, ready := false, stopCause := cause, halted := false, stopNow := false } } := by
  have hnote : ∀ t : State, (t.noteStop c).chans = t.chans := by
    intro t
    unfold State.noteStop
    dsimp only
    split <;> rfl
  rw [State.stopChan, State.chan_raise, chan_of_chans (hnote _) c]
  exact State.chan_modChan ..

/-- The gate of a channel that waits for GATE, or for the conditions of its block. -/
theorem gate_enterOpening (s : State) (c : Chn) : ((s.enterOpening c).chan c).gate = { (s.chan c).gate with
    st := .gate
    phase := if (s.chan c).core.wait.isGate || (s.chan c).gate.restarted then .opening else .waitGate
    openTicks := 0, longSaid := false } := by
  unfold State.enterOpening
  dsimp only
  rw [loadNext_keeps Chan.gate (fun _ _ _ => rfl)]
  exact congrArg Chan.gate (State.chan_modChan ..)

theorem regs_enterOpening (s : State) (c : Chn) : ((s.enterOpening c).chan c).regs = (s.chan c).regs := by
  unfold State.enterOpening
  dsimp only
  rw [loadNext_keeps Chan.regs (fun _ _ _ => rfl), State.modGate, State.chan_modChan]

theorem cleared_enterOpening (h : (s.chan c).cleared) : ((s.enterOpening c).chan c).cleared := by
  unfold State.enterOpening
  refine cleared_loadNext ?_
  rw [State.modGate, State.chan_modChan]
  exact h

end

/-! ### A replay keeps the flag words gathered -/

section
variable (s : State) (c : Chn)

theorem regs_cancelSq (q : Nat) : ((s.cancelSq c q).chan c).regs = (s.chan c).regs := by
  simp only [State.cancelSq, State.ledger, State.modSq, State.chan_modChan]
  rfl

theorem regs_modSq (q : Nat) (f : StreamQ → StreamQ) : ((s.modSq c q f).chan c).regs = (s.chan c).regs := by
  rw [State.modSq, State.chan_modChan]
  rfl

theorem regs_modDq (q : Nat) (f : DrainQ → DrainQ) : ((s.modDq c q f).chan c).regs = (s.chan c).regs := by
  rw [State.modDq, State.chan_modChan]
  rfl

theorem regs_reopen (sq dq : List (List Strm)) : ((s.reopen c sq dq).chan c).regs = (s.chan c).regs := by
  unfold State.reopen
  refine (foldl_keeps (fun s : State => (s.chan c).regs) ?_ _ _).trans
    (foldl_keeps (fun s : State => (s.chan c).regs) ?_ _ _)
  · exact fun s e => regs_modDq s c e.2 _
  · exact fun s e => regs_modSq s c e.2 _

theorem regs_unwind (r : Replay) : ((s.unwind c r).chan c).regs = (s.chan c).regs := by
  unfold State.unwind
  simp only [State.chan_modChan, regs_reopen]
  exact foldl_keeps (fun s : State => (s.chan c).regs) (fun s q => regs_cancelSq s c q) _ s

theorem regs_replayChan : ((s.replayChan c).chan c).regs = (s.chan c).regs := by
  unfold State.replayChan
  dsimp only
  rw [State.chan_raise, regs_enterOpening, State.chan_modChan]
  dsimp only
  split
  · exact regs_unwind s c _
  · rfl

end

/-! ### The gate of a block of one channel -/

section
variable {c : Chn} {s : State} {b : BEntry}

/-- The state after the checks and step 5. -/
def State.gateCleared (s : State) (c : Chn) (j : Job) (e : Events) (land : Bool) : State :=
  (s.gathered c j e).modChan c fun ch => ch.gateClear land

theorem chan_gateCleared (s : State) (c : Chn) (j : Job) (e : Events) (land : Bool) :
    (s.gateCleared c j e land).chan c = (s.chan c).gather.gateClear land := by
  rw [State.gateCleared, State.chan_modChan, chan_gathered]

theorem gate_gateCleared (s : State) (c : Chn) (j : Job) (e : Events) (land : Bool) :
    ((s.gateCleared c j e land).chan c).gate = (s.chan c).gate := by
  rw [chan_gateCleared]
  exact (gateClear_keeps _ land).1

theorem gateOr_gateCleared (s : State) (c : Chn) (j : Job) (e : Events) (land : Bool) :
    ((s.gateCleared c j e land).chan c).regs.gateOr = (s.chan c).cells.foldl (fun acc e => acc ||| e.2.flags) 0 := by
  rw [chan_gateCleared]
  exact (gateClear_keeps _ land).2.2.1

theorem mayReplay_gathered (s : State) (c : Chn) (j : Job) (e : Events) :
    (s.gathered c j e).mayReplay [c] = s.mayReplay [c] := by
  simp only [State.mayReplay, List.all_cons, chan_gathered]
  rfl

/-- Where a gate goes from step 7: a replay, held, or on. -/
def State.gateTurn (s : State) (c : Chn) (b : BEntry) (replay bad : Bool) : State :=
  if replay then s.replayChan c else if bad then s.holdChan c else s.passChan c b

/-- With all comparisons equal, no latch and no reset, a closed channel's gate goes on from step 5. -/
theorem closeGate_clean (hnew : s.newFaults = []) (hblock : (s.chan c).gate.block = some b) (hset : s.setOf b = [c])
    (hclosed : s.closed c = true) (hled : ∀ e ∈ s.growth c b ++ s.identities c, e.2.1 = e.2.2)
    (hlatch : ∀ g ∈ (s.chan c).barriers, g.2.latched = []) (hreset : (s.chan c).gate.resetDue = false) :
    ∃ j e, s.closeGate c = (s.gateCleared c j e (!((s.chan c).gate.faulted && s.mayReplay [c]))).gateTurn c b
      ((s.chan c).gate.faulted && s.mayReplay [c]) (s.chan c).gate.faulted := by
  obtain ⟨j, e, hchecks⟩ := closeChecks_clean hled hlatch
  have hflush : (s.gathered c j e).flushFaults = s.gathered c j e := flushFaults_none hnew
  have hfaulted : ((s.gathered c j e).chan c).gate.faulted = (s.chan c).gate.faulted := by
    rw [chan_gathered]
    rfl
  refine ⟨j, e, ?_⟩
  generalize hland : (!((s.chan c).gate.faulted && s.mayReplay [c])) = land
  have hcleared : (s.gathered c j e).modChan c (·.gateClear land) = s.gateCleared c j e land := rfl
  have hheld : (((s.gateCleared c j e land).holdChan c).chan c).gate.resetDue = false := by
    rw [chan_holdChan, gate_gateCleared, hreset]
  unfold State.closeGate State.gateTurn
  simp only [flushFaults_none hnew, hblock, hset, hclosed, List.all_cons, List.all_nil, Bool.and_true, if_true,
    List.foldl_cons, List.foldl_nil, Option.getD_some, hchecks, hflush, hfaulted, List.any_cons, List.any_nil,
    Bool.or_false, mayReplay_gathered, hland, hcleared, hheld, gate_gateCleared, Bool.false_and, Bool.false_eq_true,
    if_false]

/-- A gate that passes step 7 goes up by one and stops for a halt, else waits in step 11. -/
theorem passChan_clean (hclear : (s.chan c).cleared) (hsave : s.recov.saveDue = false)
    (hfw : (s.chan c).regs2.fwDue = false) (hslack : (s.chan c).gate.slackPassed = true)
    (hfault : (s.chan c).gate.faulted = false) (hreset : (s.chan c).gate.resetDue = false)
    (hafter : (s.chan c).regs.stopAfter ≠ (s.chan c).gate.seq) (hnow : (s.chan c).gate.stopNow = false) :
    ((s.passChan c b).chan c).cleared ∧ ((s.passChan c b).chan c).regs = (s.chan c).regs ∧
      ((s.passChan c b).chan c).gate.seq = (s.chan c).gate.seq + 1 ∧
      ((s.chan c).gate.halted = true → ((s.passChan c b).chan c).gate.st = .stopped ∧
        ((s.passChan c b).chan c).gate.stopCause = 1) ∧
      ((s.chan c).gate.halted = false → ((s.passChan c b).chan c).gate.st = .gate ∧
        ((s.passChan c b).chan c).gate.phase =
          (if (s.chan c).core.wait.isGate then .opening else .waitGate)) := by
  obtain ⟨t, v, x, ht, hchan⟩ := passChan_step10 (b := b) hsave hfw hslack
  have hclear' : (t.chan c).cleared := by
    rw [hchan]
    exact hclear
  have hfault' : (t.chan c).gate.faulted = false := by rw [hchan]; exact hfault
  have hreset' : (t.chan c).gate.resetDue = false := by rw [hchan]; exact hreset
  rw [ht]
  cases hhalt : (s.chan c).gate.halted with
  | true =>
    have hhalt' : (t.chan c).gate.halted = true := by rw [hchan]; exact hhalt
    rw [afterSlack_halted hfault' hreset' hhalt', chan_stopChan]
    refine ⟨hclear', ?_, ?_, fun _ => ⟨rfl, rfl⟩, fun h => absurd h.symm Bool.false_ne_true⟩
    · rw [hchan]
    · rw [hchan]
      rfl
  | false =>
    have hhalt' : (t.chan c).gate.halted = false := by rw [hchan]; exact hhalt
    have hafter' : (t.chan c).regs.stopAfter ≠ (t.chan c).gate.seq - 1 := by
      rw [hchan]
      simpa [Gate.passed] using hafter
    have hnow' : (t.chan c).gate.stopNow = false := by rw [hchan]; exact hnow
    rw [afterSlack_opens hfault' hreset' hhalt' hafter' hnow', gate_enterOpening, regs_enterOpening]
    refine ⟨cleared_enterOpening hclear', ?_, ?_, fun h => absurd h Bool.false_ne_true, fun _ => ⟨rfl, ?_⟩⟩
    · rw [hchan]
    · rw [hchan]
      rfl
    · rw [hchan]
      simp [Gate.passed]

end

/-- Settles O22: the checks find nothing, so the gate's own fault flag decides between a replay, a hold and the passage
of steps 7 to 11. -/
theorem gateCloses : Obligations.GateCloses := by
  intro c s b hc hnew hblock hset hclosed hled hlatch hmark hsave hslack hreset hfw hafter hnow
  obtain ⟨j, e, hclose⟩ := closeGate_clean hnew hblock hset hclosed hled hlatch hreset
  have hrow : execGateClose c s = .next (s.applyMarks.closeGate c) := onChan_present hc
  rw [applyMarks_of_noMark hmark] at hrow
  refine ⟨s.closeGate c, hrow, ?_⟩
  rw [hclose]
  generalize hland : (!((s.chan c).gate.faulted && s.mayReplay [c])) = land
  have hgate := gate_gateCleared s c j e land
  have hor := gateOr_gateCleared s c j e land
  have hchan := chan_gateCleared s c j e land
  obtain ⟨-, hregs2, -, hstop, hwait⟩ := gateClear_keeps (s.chan c).gather land
  rw [← hchan] at hregs2 hstop hwait
  cases hfault : (s.chan c).gate.faulted with
  | false =>
    obtain ⟨⟨hcells, htrees⟩, hregs, hseq, hhalted, hopens⟩ := passChan_clean (b := b)
      (s := s.gateCleared c j e land) (c := c)
      (hchan ▸ cleared_gateClear _ land) hsave (by rw [hregs2]; exact hfw) (by rw [hgate, hslack])
      (by rw [hgate, hfault]) (by rw [hgate, hreset]) (by rw [hgate, hstop]; exact hafter) (by rw [hgate, hnow])
    rw [hgate] at hseq hhalted hopens
    rw [hwait] at hopens
    exact ⟨hregs ▸ hor, fun _ => ⟨hseq, hcells, htrees, hhalted, hopens⟩,
      fun h => absurd h Bool.false_ne_true⟩
  | true =>
    cases s.mayReplay [c] with
    | true =>
      exact ⟨(congrArg ChRegs.gateOr (regs_replayChan _ c)).trans hor, fun h => absurd h.symm Bool.false_ne_true,
        fun _ h => absurd h.symm Bool.false_ne_true⟩
    | false =>
      have hheld : (s.gateCleared c j e land).gateTurn c b (true && false) true =
        (s.gateCleared c j e land).holdChan c := rfl
      rw [hheld, chan_holdChan, hgate, raised_holdChan]
      refine ⟨hor, fun h => absurd h.symm Bool.false_ne_true, fun _ _ => ⟨rfl, rfl, ?_⟩⟩
      exact List.mem_append_right _ (List.mem_singleton.mpr rfl)

end Sys2Proof.Machine
end

section
/-! PROOFS. O16: bundle after bundle through the body of a counted loop (R180, R181). -/
namespace Sys2Proof.Machine

/-- Where issue stands after `m` bundles, from an address and the loops open there. -/
def issueTimes (m : Nat) (st : Nat × List Loop) : Nat × List Loop :=
  Nat.iterate (fun st : Nat × List Loop => nextIssue st.1 st.2) m st

section
variable {a b n x : Nat} {ps : List Loop}

theorem issueTimes_add (m k : Nat) (st : Nat × List Loop) :
    issueTimes (m + k) st = issueTimes k (issueTimes m st) := by
  rw [Nat.add_comm, issueTimes, Function.iterate_add_apply]
  rfl

theorem issueTimes_succ (m : Nat) (st : Nat × List Loop) :
    issueTimes (m + 1) st = nextIssue (issueTimes m st).1 (issueTimes m st).2 :=
  Function.iterate_succ_apply' ..

/-- Away from the last bundle of the innermost loop the next bundle is the one after. -/
theorem nextIssue_inside {p : Loop} (h : a ≠ p.last) : nextIssue a (p :: ps) = ((a + 1) % 512, p :: ps) :=
  if_neg h

/-- At a bundle that ends no open loop the next bundle is the one after. -/
theorem nextIssue_outside (h : ∀ p ∈ ps, p.last ≠ a) : nextIssue a ps = ((a + 1) % 512, ps) := by
  cases ps with
  | nil => rfl
  | cons p ps => exact nextIssue_inside (h p List.mem_cons_self).symm

/-- At the last bundle of a body with iterations to come the loop runs again, with its index advanced. -/
theorem nextIssue_again : nextIssue (a + b - 1) (⟨a, a + b - 1, n + 1, x⟩ :: ps) =
    (a, ⟨a, a + b - 1, n, x + 1⟩ :: ps) := by
  simp [nextIssue]

/-- At the last bundle of the last iteration the loop closes, and those around it are asked. -/
theorem nextIssue_close : nextIssue (a + b - 1) (⟨a, a + b - 1, 0, x⟩ :: ps) = nextIssue (a + b - 1) ps := by
  simp [nextIssue]

/-- Within the body issue goes from bundle to bundle. -/
theorem issueTimes_body (h : a + b ≤ 512) {m : Nat} (hm : m < b) :
    issueTimes m (a, ⟨a, a + b - 1, n, x⟩ :: ps) = (a + m, ⟨a, a + b - 1, n, x⟩ :: ps) := by
  induction m with
  | zero => rfl
  | succ m ih =>
    have hlast : a + m ≠ a + b - 1 := by omega
    have hwrap : (a + m + 1) % 512 = a + (m + 1) := by omega
    rw [issueTimes_succ, ih (by omega), nextIssue_inside hlast, hwrap]

/-- A whole body ends with the next address after its last bundle. -/
theorem issueTimes_iteration (hb : 1 ≤ b) (h : a + b ≤ 512) : issueTimes b (a, ⟨a, a + b - 1, n, x⟩ :: ps) =
    nextIssue (a + b - 1) (⟨a, a + b - 1, n, x⟩ :: ps) := by
  obtain ⟨m, rfl⟩ : ∃ m, b = m + 1 := ⟨b - 1, by omega⟩
  rw [issueTimes_succ, issueTimes_body h (Nat.lt_succ_self m)]
  rfl

/-- After j iterations of those to come, issue stands at the first bundle with the index advanced by j. -/
theorem issueTimes_iterations (hb : 1 ≤ b) (h : a + b ≤ 512) {j : Nat} (hj : j ≤ n) :
    issueTimes (j * b) (a, ⟨a, a + b - 1, n, x⟩ :: ps) = (a, ⟨a, a + b - 1, n - j, x + j⟩ :: ps) := by
  induction j with
  | zero => rw [Nat.zero_mul]; rfl
  | succ j ih =>
    have hleft : n - j = n - (j + 1) + 1 := by omega
    rw [Nat.succ_mul, issueTimes_add, ih (by omega), issueTimes_iteration hb h, hleft, nextIssue_again]
    rfl

end

/-- Settles O16: the iterations to come return to the first bundle, and the last one closes the loop. -/
theorem loopIterates : Obligations.LoopIterates := by
  intro a b n x ps hb h hps
  refine ⟨fun j hj => issueTimes_iterations hb h hj, ?_⟩
  have hwrap : a + b - 1 + 1 = a + b := by omega
  calc issueTimes ((n + 1) * b) (a, ⟨a, a + b - 1, n, x⟩ :: ps)
      = issueTimes b (a, ⟨a, a + b - 1, 0, x + n⟩ :: ps) := by
        rw [Nat.succ_mul, issueTimes_add, issueTimes_iterations hb h le_rfl, Nat.sub_self]
    _ = nextIssue (a + b - 1) ps := by rw [issueTimes_iteration hb h, nextIssue_close]
    _ = ((a + b) % 512, ps) := by rw [nextIssue_outside hps, hwrap]

end Sys2Proof.Machine
end

section
/-! PROOFS. O17: LOOP, IDLE, the end of its hold, and BEND (R180, R182, R184, R199). -/
namespace Sys2Proof

theorem Quad.set_set_same {α : Type} (q : Quad α) (c : Chn) (v w : α) : (q.set c v).set c w = q.set c w := by
  match c with
  | 0 | 1 | 2 | 3 => rfl

theorem Smap.upsert_upsert {α : Type} (m : Smap α) (a : Nat) (v w : α) :
    Smap.upsert (Smap.upsert m a v) a w = Smap.upsert m a w := by
  induction m with
  | nil => simp [Smap.upsert]
  | cons e m ih =>
    obtain ⟨n, x⟩ := e
    rcases lt_trichotomy a n with h | h | h
    · simp [Smap.upsert, h, h.ne]
    · simp [Smap.upsert, h]
    · simp [Smap.upsert, h.ne', h.not_gt, ih]

namespace Machine

section
variable {s : State} {k : CellId} {l : Latched}

/-- A cell written twice is as the second write has it. -/
theorem State.setCell_setCell_same (s : State) (k : CellId) (v w : Cell) :
    (s.setCell k v).setCell k w = s.setCell k w := by
  have hch (ch : Chan) : (ch.setCell k.num v).setCell k.num w = ch.setCell k.num w := by
    simp only [Chan.setCell, Smap.upsert_upsert]
  simp only [State.setCell, State.modChan, State.chan_setChan, hch]
  simp only [State.setChan, Quad.set_set_same]

/-- An operation on its own cell acts on the cell with its slot marked. -/
theorem ctRow_modCell {i : Instr} {op : Nat} {run : CellId → State → Latched → State} {f : Cell → Cell}
    (hexec : exec i s = s.onChan k.ch fun s => s.ctSlot k op run)
    (hrun : run k (s.marked k slCT) l = (s.marked k slCT).modCell k f) (h : s.flies k slCT l) (hop : ctOp l.ct = op) :
    exec i s = .next (s.setCell k (f ((s.cell k).markDone slCT))) := by
  rw [exec_ct hexec h hop, hrun, State.modCell, State.marked, State.cell_setCell, State.setCell_setCell_same]

/-- The loop that LOOP opens covers the B bundles after its own (R180). -/
theorem loopRun_eq (s : State) (k : CellId) (l : Latched) : loopRun k s l =
    s.modCell k fun c => { c with seq := { c.seq with
      addr := (l.addr + 1) % 512
      loops := ⟨l.addr + 1, l.addr + 1 + fldN l.ct 18 9, fldN l.ct 6 12, 0⟩ :: c.seq.loops } } := by
  have hlast : l.addr + 1 + fldN l.ct 18 9 = l.addr + (fldN l.ct 18 9 + 1) := by omega
  rw [hlast]
  rfl

theorem idleEnd_row (hc : s.hasChan k.ch = true) : exec (.idleEnd k) s = .next (s.endIdle k) :=
  onChan_present (f := fun s => s.endIdle k) hc

/-- The hold of an IDLE ends when its cycle has come (R182). -/
theorem endIdle_due (hidle : (s.cell k).seq.idle = true) (hat : (s.cell k).seq.nextAt ≤ s.cy) :
    s.endIdle k = s.setCell k { s.cell k with seq := { (s.cell k).seq with idle := false } } :=
  if_pos (by simp [hidle, hat])

theorem endIdle_early (hat : s.cy < (s.cell k).seq.nextAt) : s.endIdle k = s :=
  if_neg (by simp [Nat.not_le.mpr hat])

end

/-- Settles O17: each row is a change of the sequencer of the cell with its slot marked. -/
theorem sequencerControl : Obligations.SequencerControl := by
  refine fun k s l => ⟨fun h => ⟨fun hop => ?_, ?_, ?_⟩, fun hc hidle hat => ?_, fun hc hat => ?_⟩
  · exact ctRow_modCell rfl (loopRun_eq _ k l) h hop
  · exact ctRow_modCell (run := idleRun) rfl rfl h
  · exact ctRow_modCell (run := bendRun) rfl rfl h
  · rw [idleEnd_row hc, endIdle_due hidle hat]
  · rw [idleEnd_row hc, endIdle_early hat]

end Machine
end Sys2Proof
end

section
/-! PROOFS. O19: TCHK, SGNL and TAKE (R199, R201, R279, R282). -/
namespace Sys2Proof.Machine

section
variable {s : State} {k : CellId} {l : Latched}

/-- The queue that a TCHK looks at, and the tag that it expects there (R177). -/
def tchkQueue (l : Latched) : Nat := fldN l.ct 6 3
def Cell.tchkTag (c : Cell) (l : Latched) : Nat := expTag c.index l (tchkQueue l) (fldN l.ct 9 3)

/-- The outcome of TCHK for the oldest beat of its queue. -/
def tchkOut (c : Cell) (l : Latched) : Out :=
  match c.qin.getD (tchkQueue l) [] with
  | [] => (Out.none_ c).fault clQueue 1 unCT (w64 (tchkQueue l)) l.idx
  | e :: _ => if c.tchkTag l = e.tag.toNat then Out.none_ c
    else (Out.none_ c).fault clTag 2 unCT (tagDetail (c.tchkTag l) e.tag.toNat (tchkQueue l)) l.idx

theorem tchkOut_empty {c : Cell} (h : c.qin.getD (tchkQueue l) [] = []) :
    tchkOut c l = (Out.none_ c).fault clQueue 1 unCT (w64 (tchkQueue l)) l.idx := by
  rw [tchkOut, h]

theorem tchkOut_expected {c : Cell} {e : QEntry} {es : List QEntry} (h : c.qin.getD (tchkQueue l) [] = e :: es)
    (ht : e.tag.toNat = c.tchkTag l) : tchkOut c l = Out.none_ c := by
  rw [tchkOut, h]
  exact if_pos ht.symm

theorem tchkOut_other {c : Cell} {e : QEntry} {es : List QEntry} (h : c.qin.getD (tchkQueue l) [] = e :: es)
    (ht : e.tag.toNat ≠ c.tchkTag l) : tchkOut c l =
      (Out.none_ c).fault clTag 2 unCT (tagDetail (c.tchkTag l) e.tag.toNat (tchkQueue l)) l.idx := by
  rw [tchkOut, h]
  exact if_neg ht.symm

/-- TCHK changes nothing of its cell, sends nothing and drives nothing. -/
theorem tchkOut_keeps (c : Cell) (l : Latched) :
    (tchkOut c l).cell = c ∧ (tchkOut c l).sends = [] ∧ (tchkOut c l).sumOut = none := by
  unfold tchkOut
  split
  · exact ⟨rfl, rfl, rfl⟩
  · split <;> exact ⟨rfl, rfl, rfl⟩

theorem tchk_row (h : s.flies k slCT l) (hop : ctOp l.ct = 0x05) :
    exec (.tchk k) s = .next (s.acted k slCT l unCT (tchkOut ((s.cell k).markDone slCT) l)) := by
  have hrun : tchkRun k (s.marked k slCT) l = s.acted k slCT l unCT (tchkOut ((s.marked k slCT).cell k) l) := by
    rw [tchkRun, envOf_marked]
    rfl
  rw [exec_ct rfl h hop, hrun, State.marked, State.cell_setCell]

/-- SGNL and TAKE: the operation leaves, and arrives after the latency to its counter (R282). -/
theorem sendSync_row {i : Instr} {op : Nat} {kind : SyncKind}
    (hexec : exec i s = s.onChan k.ch fun s => s.ctSlot k op fun k s l => sendSync k s l kind)
    (h : s.flies k slCT l) (hop : ctOp l.ct = op) :
    ∃ (t : State) (o : SyncOp), exec i s = .next t ∧ t.sync.ops = s.sync.ops ++ [o] ∧
      t.sync.counts = s.sync.counts ∧ o.counter = fldN l.ct 6 17 ∧ o.kind = kind ∧ o.n = fldN l.ct 23 9 + 1 ∧
      o.src = .cell k.ch.val k.num ∧ o.at_ = s.cy + syncLatency k.ch (fldN l.ct 6 17) :=
  ⟨_, _, exec_ct hexec h hop, rfl, rfl, rfl, rfl, rfl, rfl, rfl⟩

end

/-- Settles O19: TCHK by the oldest beat of its queue, SGNL and TAKE by what they send. -/
theorem tagCheckAndSignals : Obligations.TagCheckAndSignals := by
  refine fun k s l h => ⟨fun hop => ?_, fun i op kind hi hop => ?_⟩
  · obtain ⟨hcell, hsends, hsum⟩ := tchkOut_keeps ((s.cell k).markDone slCT) l
    have hleft := (acted_cell s k slCT l unCT _).trans hcell
    have hnew := acted_records_quiet (s := s) (k := k) (slot := slCT) (l := l) (u := unCT) hsends hsum
    refine ⟨_, tchk_row h hop, by rw [hleft]; rfl, by rw [hleft]; rfl, fun e es hq ht => ?_, fun e es hq ht => ?_,
      fun hq => ?_⟩
    · rw [hnew, tchkOut_expected (c := (s.cell k).markDone slCT) hq ht]
      exact List.append_nil _
    · rw [hnew, tchkOut_other (c := (s.cell k).markDone slCT) hq ht]
      exact ⟨_, rfl, rfl, rfl, rfl⟩
    · rw [hnew, tchkOut_empty (c := (s.cell k).markDone slCT) hq]
      exact ⟨_, rfl, rfl, rfl, rfl⟩
  · simp only [List.mem_cons, Prod.mk.injEq, List.not_mem_nil, or_false] at hi
    obtain ⟨rfl, rfl, rfl⟩ | ⟨rfl, rfl, rfl⟩ := hi
    · exact sendSync_row rfl h hop
    · exact sendSync_row rfl h hop

end Sys2Proof.Machine
end

section
/-! PROOFS. O15: the issue of a bundle (R169, R170, R174, R202). -/
namespace Sys2Proof.Machine

/-- The bundle at the sequencer's address, checked. -/
def Cell.fetched (c : Cell) : Bundle × Checked := Coded.check (c.bundle c.seq.page c.seq.addr)

/-- The bundle as it is latched: its reserved slots are no-operations (R174). -/
def Cell.latched (c : Cell) (row0 : Bool) (cy : Nat) : Latched :=
  latchOf c.seq (clearSlots c.fetched.1.data (badSlots row0 c.fetched.1.data)) cy

/-- The cell after it has issued the bundle. -/
def Cell.issued (c : Cell) (row0 : Bool) (cy : Nat) : Cell := { c with seq := { c.seq with
  addr := (nextIssue c.seq.addr c.seq.loops).1
  loops := (nextIssue c.seq.addr c.seq.loops).2
  nextAt := cy + 1
  cur := some (c.latched row0 cy) } }

/-- The fault of a reserved slot of the bundle. -/
def Cell.slotFault (c : Cell) : Flt :=
  ⟨clCode, 3, unSeq, w64 (1024 * boolBit c.seq.page + 2 * c.seq.addr), ones64⟩

section
variable {s : State} {k : CellId}

theorem cy_countCell (s : State) (k : CellId) (ce ue : Nat) : (s.countCell k ce ue).cy = s.cy :=
  (congrArg State.cy (sameButChans_countCell s k ce ue) :)

/-- The state in which a fetched bundle acts: its codewords' corrections are counted. -/
def State.bundleFetched (s : State) (k : CellId) : State :=
  s.countCell k (s.cell k).fetched.2.ce (s.cell k).fetched.2.ue

theorem issue_good (hst : (s.chan k.ch).gate.st = .running) (hcan : (s.cell k).seq.canIssue s.cy = true)
    (hgood : (s.cell k).fetched.2.bad = none)
    (hchk : fldN (s.cell k).fetched.1.data 252 4 = (s.cell k).seq.addr % 16) :
    s.issue k = ((s.bundleFetched k).setCell k ((s.cell k).issued (k.y.val = 0) s.cy)).takeFaults k
      ((s.cell k).latched (k.y.val = 0) s.cy) (s.cy - (s.chan k.ch).gate.releaseCy)
      ((badSlots (k.y.val = 0) (s.cell k).fetched.1.data).map fun _ => (s.cell k).slotFault) := by
  have hcan' : ((s.chan k.ch).gate.st = .running && (s.cell k).seq.canIssue s.cy) = true := by simp [hst, hcan]
  unfold Cell.fetched at hgood hchk
  have hcy : (s.bundleFetched k).cy = s.cy := cy_countCell ..
  unfold State.bundleFetched Cell.fetched at hcy
  rw [State.takeFaults, List.foldl_map, State.issue]
  simp only [if_pos hcan', hgood, hchk, ne_eq, not_true_eq_false, if_false, hcy]
  rfl

/-- Each reserved slot of a good bundle raises one CODE record (R174). -/
theorem reservedSlots_records (t : State) (l : Latched) (off : Nat) (f : Flt) (bad : List (Nat × Nat)) :
    ∃ rs, (t.takeFaults k l off (bad.map fun _ => f)).newFaults = t.newFaults ++ rs ∧ rs.length = bad.length ∧
      ∀ x ∈ rs, x.cls = f.cls ∧ x.cause = f.cause ∧ x.unit_ = f.unit_ := by
  refine ⟨_, takeFaults_records .., by simp, fun x hx => ?_⟩
  simp only [List.map_map, List.mem_map] at hx
  obtain ⟨-, -, rfl⟩ := hx
  exact ⟨rfl, rfl, rfl⟩

/-- At a bundle that fails its checks the cell stops, with one CODE record (R169, R202). -/
theorem issue_bad (hst : (s.chan k.ch).gate.st = .running) (hcan : (s.cell k).seq.canIssue s.cy = true)
    (hbad : (s.cell k).fetched.2.bad ≠ none ∨
      fldN (s.cell k).fetched.1.data 252 4 ≠ (s.cell k).seq.addr % 16) :
    ∃ x : FaultRec, s.issue k = ((s.bundleFetched k).setCell k (s.cell k).stopSeq).fault x ∧
      x.cls = clCode ∧ x.unit_ = unSeq := by
  have hcan' : ((s.chan k.ch).gate.st = .running && (s.cell k).seq.canIssue s.cy) = true := by simp [hst, hcan]
  unfold Cell.fetched at hbad
  rw [State.issue]
  simp only [if_pos hcan']
  split
  · exact ⟨_, rfl, rfl, rfl⟩
  · rename_i hgood
    rw [if_pos (hbad.resolve_left fun h => h hgood)]
    exact ⟨_, rfl, rfl, rfl⟩

end

/-- Settles O15: a good bundle is latched, one that fails its checks stops the cell. -/
theorem bundleIssue : Obligations.BundleIssue := by
  intro k s hc hst q hcan r
  have hrow : exec (.bundleIssue k) s = .next (s.issue k) := onChan_present (f := fun s => s.issue k) hc
  refine ⟨fun hgood hchk => ?_, fun hbad => ?_⟩
  · have hissue := issue_good hst hcan hgood hchk
    have hcell : (s.issue k).cell k = (s.cell k).issued (k.y.val = 0) s.cy := by
      rw [hissue, State.cell, takeFaults_chan]
      exact State.cell_setCell ..
    obtain ⟨rs, hnew, hlen, hrs⟩ := reservedSlots_records (k := k) ((s.bundleFetched k).setCell k _)
      ((s.cell k).latched (k.y.val = 0) s.cy) (s.cy - (s.chan k.ch).gate.releaseCy) (s.cell k).slotFault
      (badSlots (k.y.val = 0) (s.cell k).fetched.1.data)
    rw [← hissue] at hnew
    refine ⟨s.issue k, rs, hrow, by rw [hcell]; rfl, by rw [hcell]; rfl, by rw [hcell]; rfl, by rw [hcell]; rfl,
      hnew.trans (congrArg (· ++ rs) (countCell_newFaults ..)), hlen, hrs⟩
  · obtain ⟨x, hissue, hcls, hunit⟩ := issue_bad hst hcan hbad
    have hcell : (s.issue k).cell k = (s.cell k).stopSeq := by
      rw [hissue]
      exact State.cell_setCell ..
    refine ⟨s.issue k, x, hrow, ?_, hcls, hunit, by rw [hcell]; rfl, by rw [hcell]; rfl, by rw [hcell]; rfl⟩
    rw [hissue]
    exact congrArg (· ++ [x]) (countCell_newFaults ..)

end Sys2Proof.Machine
end

section
/-! PROOFS. The rows of a control core: the state in which an instruction acts, instructions that write a result and go
on, and where a transfer of control leads (R205, R207, R542). -/
namespace Sys2Proof.Machine

/-! ### The state in which an instruction acts -/

section
variable {c : Chn} {s : State} {w : W32} {i : Instr} {kind : CoreKind} {run : State → Chn → W32 → State}

@[simp] theorem core_fetched (s : State) (c d : Chn) : ((s.fetched c).chan d).core = (s.chan d).core :=
  core_countChan ..

@[simp] theorem cy_fetched (s : State) (c : Chn) : (s.fetched c).cy = s.cy := cy_countChan ..

@[simp] theorem sreg_fetched (s : State) (c : Chn) (n : Nat) : (s.fetched c).sreg c n = (s.chan c).core.reg n := by
  rw [State.sreg, core_fetched]

@[simp] theorem newFaults_fetched (s : State) (c : Chn) : (s.fetched c).newFaults = s.newFaults :=
  (countChan_aside c s _ _).2.2

theorem coreKind_of_issues (h : s.issues c kind w) : coreKind w = some kind := by
  obtain ⟨-, -, -, -, -, hkind⟩ := h
  exact hkind

/-- A row of a control core runs its instruction once the codeword's corrections are counted. -/
theorem coreRow_exec (hexec : exec i s = s.onChan c fun s => s.coreRow c kind run) (h : s.issues c kind w) :
    exec i s = .next (run (s.fetched c) c w) :=
  hexec.trans ((onChan_present h.1).trans (congrArg _ (coreRow_issues run h)))

/-- An instruction that writes a result into s(d) and goes on. -/
theorem result_row {v : W64} (hexec : exec i s = s.onChan c fun s => s.coreRow c kind run) (h : s.issues c kind w)
    (hrun : run (s.fetched c) c w = (s.fetched c).coreResult c w v) :
    ∃ t : State, exec i s = .next t ∧ (t.chan c).core = ((s.chan c).core.setReg (fldN w 21 5) v).goesOn s.cy := by
  refine ⟨_, (coreRow_exec hexec h).trans (congrArg _ hrun), ?_⟩
  rw [coreResult_core, core_fetched, cy_fetched]
  rfl

/-- Going on without a result. -/
theorem core_coreNext (s : State) (c : Chn) (f : Core → Core) :
    ((s.coreNext c f).chan c).core = (f (s.chan c).core).goesOn s.cy := by
  simp [State.coreNext, Core.advance, Core.goesOn]

theorem newFaults_coreNext (s : State) (c : Chn) (f : Core → Core) : (s.coreNext c f).newFaults = s.newFaults := rfl

theorem core_coreFault (s : State) (c d : Chn) (cls cause pc : Nat) (d0 d1 : W64) :
    ((s.coreFault c cls cause pc d0 d1).chan d).core = (s.chan d).core := rfl

end

/-! ### A port that closes -/

section
variable (s : State) (c : Chn) (i : Nat)

theorem core_ledger (d : Chn) (code n : Nat) : ((s.ledger d code n).chan c).core = (s.chan c).core :=
  State.modChan_keeps Chan.core (fun ch => Chan.ledgerAdd_core ch code n) s d c

theorem core_countDisc (n : Nat) : ((s.countDisc i n).chan c).core = (s.chan c).core := by
  unfold State.countDisc
  split
  · rw [core_ledger, core_ledger]
  · rfl

theorem core_discHeld (n : Nat) : ((s.discHeld i n).chan c).core = (s.chan c).core := by
  unfold State.discHeld
  split
  · rw [core_ledger]
  · rfl

theorem core_closePort : ((s.closePort i).chan c).core = (s.chan c).core := by
  have hport (t : State) (f : MsgPort → MsgPort) : (t.modPort i f).chan c = t.chan c := rfl
  unfold State.closePort
  dsimp only
  rw [hport]
  split
  · rw [core_countDisc, core_discHeld]
  · rw [core_discHeld]

theorem isOpen_closePort (hi : i < 8) : ((s.closePort i).port i).isOpen = false := by
  unfold State.closePort State.modPort State.port
  dsimp only
  rw [getD_set!, if_pos ⟨rfl, hi⟩]

end

/-! ### Transfers of control (R542) -/

section
variable {c : Chn} {s : State} {pc : Nat} {tgt : W64} {f : Core → Core}

/-- The state in which control is about to go to its target. -/
def State.jumping (s : State) (c : Chn) (f : Core → Core) : State :=
  s.modCore c fun k => { f k with readyAt := s.cy + 1 }

/-- The state once values that the spec leaves free have been drawn. -/
def State.setDraw (s : State) (n : Nat) : State := { s with draw := n }

@[simp] theorem chan_setDraw (s : State) (n : Nat) (d : Chn) : (s.setDraw n).chan d = s.chan d := rfl

theorem coreJump_inside (h : tgt.toNat < 0x10000) (h4 : tgt.toNat % 4 = 0) :
    s.coreJump c pc tgt f = (s.jumping c f).modCore c fun k => { k with pc := tgt.toNat } := by
  unfold State.coreJump returnAddr
  dsimp only
  rw [if_neg (by omega), if_neg (by omega), if_pos h4]
  rfl

theorem coreJump_unaligned (h : tgt.toNat < 0x10000) (h4 : tgt.toNat % 4 ≠ 0) :
    s.coreJump c pc tgt f = ((s.jumping c f).modCore c fun k =>
      { k with pc := (Config.freeValue s.draw).toNat % 16384 * 4 }).setDraw (s.draw + 1) := by
  unfold State.coreJump returnAddr
  dsimp only
  rw [if_neg (by omega), if_neg (by omega), if_neg h4]
  rfl

theorem coreJump_return (h : tgt.toNat = 0x10000) : s.coreJump c pc tgt f =
    ((s.jumping c f).modCore c fun k => { k with pc := 0x10000, returned := true }).closePort c.val :=
  if_pos h

theorem coreJump_beyond (h : 0x10000 < tgt.toNat) : s.coreJump c pc tgt f =
    ((s.jumping c f).modCore c fun k => { k with dead := true }).coreFault c clCode 2 pc (w64 (tgt.toNat / 16))
      ones64 := by
  unfold State.coreJump returnAddr
  dsimp only
  rw [if_neg (by omega), if_pos h]
  rfl

theorem core_jumping (g : Core → Core) : (((s.jumping c f).modCore c g).chan c).core =
    g { f (s.chan c).core with readyAt := s.cy + 1 } := by
  rw [State.core_modCore, State.jumping, State.core_modCore]

theorem newFaults_jumping {g : Core → Core} : ((s.jumping c f).modCore c g).newFaults = s.newFaults := by
  rw [State.modCore, State.modChan_newFaults, State.jumping, State.modCore, State.modChan_newFaults]

/-- A transfer goes to an instruction, to a free place, back from the entry point, or nowhere. -/
theorem jump_row {w : W32} {i : Instr} {kind : CoreKind} {run : State → Chn → W32 → State}
    (hexec : exec i s = s.onChan c fun s => s.coreRow c kind run) (h : s.issues c kind w)
    (hrun : run (s.fetched c) c w = (s.fetched c).coreJump c pc tgt f) :
    let k' : Core := { f (s.chan c).core with readyAt := s.cy + 1 }
    ∃ t : State, exec i s = .next t ∧
      (tgt.toNat < 0x10000 → tgt.toNat % 4 = 0 → (t.chan c).core = { k' with pc := tgt.toNat } ∧
        t.newFaults = s.newFaults) ∧
      (tgt.toNat < 0x10000 → tgt.toNat % 4 ≠ 0 →
        { (t.chan c).core with pc := (s.chan c).core.pc } = { k' with pc := (s.chan c).core.pc }) ∧
      (tgt.toNat = 0x10000 → (t.chan c).core = { k' with pc := 0x10000, returned := true } ∧
        (t.port c.val).isOpen = false) ∧
      (0x10000 < tgt.toNat → (t.chan c).core = { k' with dead := true } ∧
        ∃ r, t.newFaults = s.newFaults ++ [r] ∧ r.cls = 7 ∧ r.cause = 2 ∧ r.unit_ = 9) := by
  intro k'
  have hcore (g : Core → Core) : ((((s.fetched c).jumping c f).modCore c g).chan c).core = g k' := by
    rw [core_jumping, core_fetched, cy_fetched]
  refine ⟨_, (coreRow_exec hexec h).trans (congrArg _ hrun), fun hlt h4 => ?_, fun hlt h4 => ?_, fun heq => ?_,
    fun hgt => ?_⟩
  · rw [coreJump_inside hlt h4]
    exact ⟨hcore _, newFaults_jumping.trans (newFaults_fetched s c)⟩
  · rw [coreJump_unaligned hlt h4, chan_setDraw, hcore]
  · rw [coreJump_return heq, core_closePort, isOpen_closePort _ _ (by omega)]
    exact ⟨hcore _, rfl⟩
  · rw [coreJump_beyond hgt, State.coreFault, State.chan_fault, State.fault_newFaults, newFaults_jumping,
      newFaults_fetched, hcore]
    exact ⟨rfl, _, rfl, rfl, rfl, rfl⟩

end

end Sys2Proof.Machine
end

section
/-! PROOFS. O31: arithmetic and transfers of the control core (R205 to R207, R542). -/
namespace Sys2Proof.Machine

/-! ### Results -/

section
variable (a b : W64) (n : Nat)

theorem sshiftRight_eq_div : a.sshiftRight n = BitVec.ofInt 64 (a.toInt / 2 ^ n) := by
  rw [BitVec.sshiftRight, Int.shiftRight_eq_div_pow]
  norm_cast

theorem w64_boolBit (p : Bool) : w64 (boolBit p) = if p then 1 else 0 := by
  cases p <;> rfl

theorem ofInt_tdiv : BitVec.ofInt 64 (a.toInt.tdiv b.toInt) = a.sdiv b := by
  apply BitVec.eq_of_toInt_eq
  rw [BitVec.toInt_ofInt, BitVec.toInt_sdiv]

theorem ofInt_tmod : BitVec.ofInt 64 (a.toInt.tmod b.toInt) = a.srem b := by
  rw [← BitVec.toInt_srem, BitVec.ofInt_toInt]

theorem w64_div : w64 (a.toNat / b.toNat) = a / b := by
  apply BitVec.eq_of_toNat_eq
  rw [BitVec.toNat_udiv, w64, BitVec.toNat_ofNat, Nat.mod_eq_of_lt]
  exact (Nat.div_le_self ..).trans_lt a.isLt

theorem w64_mod : w64 (a.toNat % b.toNat) = a % b := by
  apply BitVec.eq_of_toNat_eq
  rw [BitVec.toNat_umod, w64, BitVec.toNat_ofNat, Nat.mod_eq_of_lt]
  exact (Nat.mod_le ..).trans_lt a.isLt

/-- The functions of ALU by their numbers (R207). -/
def aluTable (a b : W64) : List (Nat × W64) :=
  [(0x000, a + b), (0x001, a - b), (0x002, a &&& b), (0x003, a ||| b), (0x004, a ^^^ b),
    (0x005, a <<< (b.toNat % 64)), (0x006, a >>> (b.toNat % 64)),
    (0x007, BitVec.ofInt 64 (a.toInt / 2 ^ (b.toNat % 64))),
    (0x008, if a = b then 1 else 0), (0x009, if a.slt b then 1 else 0), (0x00A, if a.ult b then 1 else 0),
    (0x00B, BitVec.ofNat 64 (a.toNat * b.toNat)),
    (0x00C, BitVec.ofInt 64 (a.toInt * b.toInt / 2 ^ 64)),
    (0x00D, BitVec.ofNat 64 (a.toNat * b.toNat / 2 ^ 64)),
    (0x00E, if b = 0 then 0 else a.sdiv b), (0x00F, if b = 0 then 0 else a / b),
    (0x010, if b = 0 then 0 else a.srem b), (0x011, if b = 0 then 0 else a % b),
    (0x012, if a.slt b then a else b), (0x013, if a.slt b then b else a)]

theorem aluOp_table : ∀ e ∈ aluTable a b, aluOp e.1 a b = e.2 := by
  have hslt (x y : W64) : (if a.slt b then x else y) = if a.toInt < b.toInt then x else y := by
    simp only [BitVec.slt_iff_toInt_lt]
  simp only [aluTable, List.forall_mem_cons, hslt]
  refine ⟨rfl, rfl, rfl, rfl, rfl, rfl, rfl, sshiftRight_eq_div a _, ?_, ?_, ?_, ?_, rfl, rfl, ?_, ?_, ?_, ?_, rfl, rfl,
    List.forall_mem_nil _⟩
  · exact (w64_boolBit _).trans (by simp)
  · exact (w64_boolBit _).trans (by simp)
  · exact (w64_boolBit _).trans rfl
  · exact BitVec.eq_of_toNat_eq (by simp [aluOp])
  · exact congrArg (ite _ _) (ofInt_tdiv a b)
  · exact congrArg (ite _ _) (w64_div a b)
  · exact congrArg (ite _ _) (ofInt_tmod a b)
  · exact congrArg (ite _ _) (w64_mod a b)

/-- SHINS shifts a half-word in from the right. -/
theorem shins_eq (h : n < 2 ^ 16) : a * 65536#64 + w64 n = (a <<< 16) ||| BitVec.ofNat 64 n := by
  have hshift : a * 65536#64 = a <<< 16 := (BitVec.shiftLeft_eq_mul_twoPow a 16).symm
  have hdisjoint : a <<< 16 &&& w64 n = 0#64 := by
    ext i hi
    by_cases hlow : i < 16
    · simp [hlow]
    · have hzero : n.testBit i = false :=
        Nat.testBit_lt_two_pow (h.trans_le (Nat.pow_le_pow_right (by omega) (by omega)))
      simp [w64, ← BitVec.getLsbD_eq_getElem, BitVec.getLsbD_ofNat, hzero]
  rw [hshift, BitVec.add_eq_or_of_and_eq_zero _ _ hdisjoint, w64]

theorem insK16_lt (w : W32) : insK16 w < 2 ^ 16 := Nat.mod_lt _ (by decide)

/-- The constant of an instruction keeps its value when it is extended to 64 bits. -/
theorem toInt_insK16s (w : W32) : (BitVec.ofInt 64 (insK16s w)).toInt = insK16s w := by
  have hlo := BitVec.le_toInt (w.extractLsb' 0 16)
  have hhi := BitVec.toInt_lt (x := w.extractLsb' 0 16)
  rw [BitVec.toInt_ofInt, insK16s, fldI]
  exact Int.bmod_eq_of_le (by omega) (by omega)

end

section
variable (s : State) (c : Chn) (w : W32)

theorem shiftkRow_eq : shiftkRow s c w = s.coreResult c w (if fldN w 6 2 = 0 then s.sreg c (insA w) <<< fldN w 0 6
    else if fldN w 6 2 = 1 then s.sreg c (insA w) >>> fldN w 0 6
    else BitVec.ofInt 64 ((s.sreg c (insA w)).toInt / 2 ^ fldN w 0 6)) := by
  unfold shiftkRow
  dsimp only
  split
  · rename_i h
    rw [if_pos h]
  · rename_i h
    rw [if_neg (by omega), if_pos h]
  · rename_i h0 h1
    rw [if_neg h0, if_neg h1, sshiftRight_eq_div]

theorem cltskRow_eq : cltskRow s c w = s.coreResult c w
    (if (s.sreg c (insA w)).slt (BitVec.ofInt 64 (insK16s w)) then 1 else 0) := by
  rw [cltskRow, w64_boolBit, BitVec.slt, toInt_insK16s]

theorem cltukRow_eq : cltukRow s c w = s.coreResult c w
    (if (s.sreg c (insA w)).ult (BitVec.ofInt 64 (insK16s w)) then 1 else 0) := by
  rw [cltukRow, w64_boolBit]
  rfl

end

/-! ### Branches -/

/-- The condition of a branch (R207). -/
def branchHolds (cond : Nat) (v : W64) : Prop :=
  (cond = 0 ∧ v = 0) ∨ (cond = 1 ∧ v ≠ 0) ∨ (cond = 2 ∧ v.toInt < 0) ∨ (cond = 3 ∧ 0 ≤ v.toInt) ∨
    (cond = 4 ∧ 0 < v.toInt) ∨ (cond = 5 ∧ v.toInt ≤ 0)

theorem branchTaken_iff {cond : Nat} {v : W64} (h : cond ≤ 5) : branchTaken cond v = true ↔ branchHolds cond v := by
  unfold branchHolds
  interval_cases cond <;> simp [branchTaken]

/-- A branch instruction has one of the six conditions. -/
theorem insCond_le_of_branch {w : W32} (h : coreKind w = some .branch) : insCond w ≤ 5 := by
  unfold coreKind at h
  split at h
  case h_13 => exact (ite_eq_iff.mp h).elim And.left fun h => nomatch h.2
  case h_16 | h_17 | h_20 | h_21 | h_22 => split at h <;> cases h
  all_goals simp at h

theorem branch_stays {c : Chn} {s : State} {w : W32} (h : s.issues c .branch w)
    (hnot : ¬ branchHolds (insCond w) ((s.chan c).core.reg (insD w))) :
    ∃ t : State, exec (.branch c) s = .next t ∧ (t.chan c).core = (s.chan c).core.goesOn s.cy := by
  have hcond : branchTaken (insCond w) ((s.fetched c).sreg c (insD w)) ≠ true := by
    rw [sreg_fetched, ne_eq, branchTaken_iff (insCond_le_of_branch (coreKind_of_issues h))]
    exact hnot
  have hrun : branchRow (s.fetched c) c w = (s.fetched c).coreNext c id := if_neg hcond
  refine ⟨_, (coreRow_exec rfl h).trans (congrArg _ hrun), ?_⟩
  rw [core_coreNext, core_fetched, cy_fetched]
  rfl

theorem branch_goes {c : Chn} {s : State} {w : W32} (h : s.issues c .branch w)
    (htaken : branchHolds (insCond w) ((s.chan c).core.reg (insD w))) : branchRow (s.fetched c) c w =
      (s.fetched c).coreJump c (s.chan c).core.pc
        (w64 (s.chan c).core.pc + BitVec.ofInt 64 (4 * insOfs18 w)) id := by
  have hcond : branchTaken (insCond w) ((s.fetched c).sreg c (insD w)) = true := by
    rw [sreg_fetched, branchTaken_iff (insCond_le_of_branch (coreKind_of_issues h))]
    exact htaken
  rw [branchRow, core_fetched]
  exact if_pos hcond

/-- CALL and JREG leave the address of the next instruction in s(d). -/
theorem call_goes (s : State) (c : Chn) (w : W32) : callRow (s.fetched c) c w =
    (s.fetched c).coreJump c (s.chan c).core.pc (w64 (s.chan c).core.pc + BitVec.ofInt 64 (4 * insK21s w))
      fun k => k.setReg (insD w) (w64 ((s.chan c).core.pc + 4)) := by
  rw [callRow, core_fetched]

theorem jreg_goes (s : State) (c : Chn) (w : W32) : jregRow (s.fetched c) c w =
    (s.fetched c).coreJump c (s.chan c).core.pc
      ((s.chan c).core.reg (insA w) + BitVec.ofInt 64 (4 * insK16s w))
      fun k => k.setReg (insD w) (w64 ((s.chan c).core.pc + 4)) := by
  rw [jregRow, core_fetched, sreg_fetched]

/-- Settles O31: each result by its value, each transfer by its target. -/
theorem coreArithmetic : Obligations.CoreArithmetic := by
  refine ⟨fun c s w => ?_, fun c s w => ?_⟩
  · intro k a b k16 u16
    refine ⟨fun e he h hfn => ?_, ?_⟩
    · refine result_row (run := aluRow) rfl h ?_
      rw [aluRow, sreg_fetched, sreg_fetched, ← aluOp_table a b e he, ← hfn]
      rfl
    · simp only [List.forall_mem_cons]
      refine ⟨fun h => result_row (run := iaddkRow) rfl h ?_, fun h => result_row (run := bandkRow) rfl h ?_,
        fun h => result_row (run := borkRow) rfl h ?_, fun h => result_row (run := bxorkRow) rfl h ?_,
        fun h => result_row (run := shiftkRow) rfl h ?_, fun h => result_row (run := cltskRow) rfl h ?_,
        fun h => result_row (run := cltukRow) rfl h ?_, fun h => result_row (run := ldkRow) rfl h ?_,
        fun h => result_row (run := shinsRow) rfl h ?_, List.forall_mem_nil _⟩
      · rw [iaddkRow, sreg_fetched]; rfl
      · rw [bandkRow, sreg_fetched]; rfl
      · rw [borkRow, sreg_fetched]; rfl
      · rw [bxorkRow, sreg_fetched]; rfl
      · rw [shiftkRow_eq, sreg_fetched]; rfl
      · rw [cltskRow_eq, sreg_fetched]; rfl
      · rw [cltukRow_eq, sreg_fetched]; rfl
      · rfl
      · rw [shinsRow, sreg_fetched, shins_eq _ _ (insK16_lt w)]; rfl
  · intro k v taken
    refine ⟨branch_stays, fun i kind tgt link hi h htaken => ?_⟩
    simp only [List.mem_cons, Prod.mk.injEq, List.not_mem_nil, or_false] at hi
    obtain ⟨rfl, rfl, rfl, rfl⟩ | ⟨rfl, rfl, rfl, rfl⟩ | ⟨rfl, rfl, rfl, rfl⟩ := hi
    · exact (jump_row (i := .branch c) (run := branchRow) rfl h (branch_goes h (htaken rfl)) :)
    · exact (jump_row (i := .call c) (run := callRow) rfl h (call_goes s c w) :)
    · exact (jump_row (i := .jreg c) (run := jregRow) rfl h (jreg_goes s c w) :)

end Sys2Proof.Machine
end

section
/-! PROOFS. Bytes of a memory without bad codewords: what is read and what a write leaves (R306, R350). -/
namespace Sys2Proof

/-! ### Bytes of a number, and bytes in a row of a map -/

theorem bytesLE_eq_map (n v : Nat) : bytesLE n v = (List.range n).map fun j => BitVec.ofNat 8 (v / 256 ^ j) := by
  induction n generalizing v with
  | zero => rfl
  | succ n ih =>
    have hshift (j : Nat) : (v >>> 8) / 256 ^ j = v / 256 ^ (j + 1) := by
      rw [Nat.shiftRight_eq_div_pow, Nat.div_div_eq_div_mul, pow_succ' 256 j]
    rw [bytesLE, ih, List.range_succ_eq_map, List.map_cons, List.map_map]
    simp only [hshift, pow_zero, Nat.div_one, Function.comp_def]

/-- The bytes `f 0`, `f 1`, … put one after the other at the places `p 0`, `p 1`, … -/
def Smap.putRow (m : Smap Byte) (n : Nat) (p : Nat → Nat) (f : Nat → Byte) : Smap Byte :=
  (List.range n).foldl (fun m j => Smap.put 0 m (p j) (f j)) m

section
variable (m : Smap Byte) (n q : Nat) (p : Nat → Nat) (f : Nat → Byte)

theorem Smap.putRow_succ : Smap.putRow m (n + 1) p f = Smap.put 0 (Smap.putRow m n p f) (p n) (f n) := by
  simp [Smap.putRow, List.range_succ]

theorem Smap.putRow_cons : Smap.putRow m (n + 1) p f =
    Smap.putRow (Smap.put 0 m (p 0) (f 0)) n (fun j => p (j + 1)) fun j => f (j + 1) := by
  simp [Smap.putRow, List.range_succ_eq_map, List.foldl_map]

theorem Smap.putRow_add : Smap.putRow m (n + q) p f =
    Smap.putRow (Smap.putRow m n p f) q (fun j => p (n + j)) fun j => f (n + j) := by
  simp [Smap.putRow, List.range_add, List.foldl_map]

variable {m n p f}

theorem Smap.putRow_congr {p' : Nat → Nat} {f' : Nat → Byte} (h : ∀ j < n, p j = p' j ∧ f j = f' j) :
    Smap.putRow m n p f = Smap.putRow m n p' f' := by
  induction n with
  | zero => rfl
  | succ n ih =>
    obtain ⟨hp, hf⟩ := h n (Nat.lt_succ_self n)
    rw [Smap.putRow_succ, Smap.putRow_succ, ih fun j hj => h j (Nat.lt_succ_of_lt hj), hp, hf]

theorem Smap.wf_putRow (h : Smap.wf 0 m = true) : Smap.wf 0 (Smap.putRow m n p f) = true := by
  induction n with
  | zero => exact h
  | succ n ih =>
    rw [Smap.putRow_succ]
    exact Smap.wf_put _ _ _ _ ih

end

/-- Bytes put from `a` on, around a ring of 2^18 places, are found where they were put. -/
theorem Smap.get_putRow_ring {m : Smap Byte} (h : Smap.wf 0 m = true) (f : Nat → Byte) {a n x : Nat}
    (ha : a < 2 ^ 18) (hn : n ≤ 2 ^ 18) (hx : x < 2 ^ 18) :
    Smap.get 0 (Smap.putRow m n (fun j => (a + j) % 2 ^ 18) f) x =
      if (x + 2 ^ 18 - a) % 2 ^ 18 < n then f ((x + 2 ^ 18 - a) % 2 ^ 18) else Smap.get 0 m x := by
  induction n with
  | zero => exact (if_neg (Nat.not_lt_zero _)).symm
  | succ n ih =>
    rw [Smap.putRow_succ]
    by_cases hlast : x = (a + n) % 2 ^ 18
    · have hplace : (x + 2 ^ 18 - a) % 2 ^ 18 = n := by omega
      rw [hlast, Smap.get_put_same _ _ _ _ (Smap.wf_putRow h), ← hlast, hplace, if_pos (Nat.lt_succ_self n)]
    · have hplace : (x + 2 ^ 18 - a) % 2 ^ 18 < n + 1 ↔ (x + 2 ^ 18 - a) % 2 ^ 18 < n := by omega
      rw [Smap.get_put_other _ _ _ _ _ (Smap.wf_putRow h) hlast, ih (by omega)]
      simp only [hplace]

namespace Machine

/-! ### Memories without bad codewords -/

section
variable {m : Mem} {a n i : Nat}

theorem cw_clean (h : m.allGood) : (m.cw i).clean = true := by
  obtain ⟨hresid, hpoison⟩ := h
  simp [Coded.clean, Mem.cw, hresid, hpoison, Smap.get, Smap.find?]

theorem settle_good (h : m.allGood) : m.settle i = m := if_pos (cw_clean h)

theorem checkSpan_good (h : m.allGood) : m.checkSpan a n = ⟨0, 0, none⟩ := by
  refine List.foldl_fixed' (fun i => ?_) _
  have hcheck : (m.cw i).check = (m.cw i, ⟨0, 0, none⟩) := if_pos (cw_clean h)
  rw [hcheck]
  rfl

theorem readChecked_good (h : m.allGood) : m.readChecked a n = (m.read a n, ⟨0, 0, none⟩) := by
  rw [Mem.readChecked, checkSpan_good h, List.foldl_fixed' fun i => settle_good h]

theorem read_eq_map (m : Mem) (a n : Nat) : m.read a n = (List.range n).map fun j => m.byte (a + j) := by
  induction n generalizing a with
  | zero => rfl
  | succ n ih =>
    rw [Mem.read, ih, List.range_succ_eq_map, List.map_cons, List.map_map]
    simp only [Function.comp_def, Nat.add_right_comm a 1, Nat.add_zero, Nat.succ_eq_add_one, Nat.add_assoc]

/-- A memory with bytes put in a row. -/
def Mem.putRow (m : Mem) (n : Nat) (p : Nat → Nat) (f : Nat → Byte) : Mem :=
  { m with bytes := Smap.putRow m.bytes n p f }

theorem allGood_putRow (h : m.allGood) (p : Nat → Nat) (f : Nat → Byte) : (m.putRow n p f).allGood := h

theorem writeByte_good (h : m.allGood) (b : Byte) : m.writeByte a b = { m with bytes := Smap.put 0 m.bytes a b } := by
  obtain ⟨hresid, -⟩ := id h
  rw [Mem.writeByte, settle_good h]
  simp [hresid, Smap.put, Smap.erase]

theorem writeEach_good (h : m.allGood) (f : Nat → Byte) :
    m.writeEach a ((List.range n).map f) = m.putRow n (a + ·) f := by
  induction n generalizing m a f with
  | zero => rfl
  | succ n ih =>
    have hgood : ({ m with bytes := Smap.put 0 m.bytes a (f 0) } : Mem).allGood := h
    rw [List.range_succ_eq_map, List.map_cons, List.map_map, Mem.writeEach, writeByte_good h, ih hgood, Mem.putRow,
      Mem.putRow, Smap.putRow_cons]
    simp only [Function.comp_def, Nat.add_zero, Nat.add_assoc, Nat.add_comm 1, Nat.succ_eq_add_one]

theorem setPoison_good (h : m.allGood) : m.setPoison i false = m := by
  obtain ⟨bytes, resid, poison⟩ := m
  obtain ⟨rfl, rfl⟩ := h
  rfl

theorem write_good (h : m.allGood) (f : Nat → Byte) :
    m.write a ((List.range n).map f) = m.putRow n (a + ·) f := by
  rw [Mem.write, writeEach_good h]
  exact List.foldl_fixed' (fun i => setPoison_good (allGood_putRow h ..)) _

theorem write_nothing (m : Mem) (a : Nat) : m.write a [] = m := by
  have hnone : (a + 0) / 16 - (a + 15) / 16 = 0 := by omega
  rw [Mem.write, wholeCws, List.length_nil, hnone]
  rfl

end

/-! ### Data memory, around its end (R205) -/

section
variable {k : Core} {a n : Nat}

theorem dread_good (h : k.dmem.allGood) (ha : a < 2 ^ 18) (hn : n ≤ 2 ^ 18) : k.dread a n =
    ((List.range n).map fun j => k.dmem.byte ((a + j) % 2 ^ 18), ⟨0, 0, none⟩) := by
  have hbytes : k.dmem.read a (min n (2 ^ 18 - a)) ++ k.dmem.read 0 (n - min n (2 ^ 18 - a)) =
      (List.range n).map fun j => k.dmem.byte ((a + j) % 2 ^ 18) := by
    obtain ⟨p, q, hp, hn', hq⟩ : ∃ p q, min n (2 ^ 18 - a) = p ∧ n = p + q ∧ n - p = q :=
      ⟨_, _, rfl, by omega, rfl⟩
    rw [hp, hq, hn', List.range_add, List.map_append, List.map_map, read_eq_map, read_eq_map]
    congr 1
    · refine List.map_congr_left fun j hj => ?_
      have hlt := List.mem_range.mp hj
      rw [Nat.mod_eq_of_lt (by omega)]
    · refine List.map_congr_left fun j hj => ?_
      have hlt := List.mem_range.mp hj
      have hwrap : (a + (p + j)) % 2 ^ 18 = 0 + j := by omega
      rw [Function.comp_apply, hwrap]
  unfold Core.dread dmemSize
  dsimp only
  rw [readChecked_good h, readChecked_good h, Nat.mod_eq_of_lt ha, hbytes]
  rfl

theorem dwrite_good (h : k.dmem.allGood) (ha : a < 2 ^ 18) (hn : n ≤ 2 ^ 18) (f : Nat → Byte) :
    k.dwrite a ((List.range n).map f) = { k with dmem := k.dmem.putRow n (fun j => (a + j) % 2 ^ 18) f } := by
  unfold Core.dwrite dmemSize
  dsimp only
  rw [Nat.mod_eq_of_lt ha]
  rcases Nat.le_total n (2 ^ 18 - a) with hfits | hwraps
  · have hplaces : Smap.putRow k.dmem.bytes n (a + ·) f = Smap.putRow k.dmem.bytes n (fun j => (a + j) % 2 ^ 18) f :=
      Smap.putRow_congr fun j hj => ⟨(Nat.mod_eq_of_lt (by omega)).symm, rfl⟩
    rw [List.take_of_length_le (by simpa using hfits), List.drop_of_length_le (by simpa using hfits), write_good h,
      write_nothing, Mem.putRow, hplaces]
    rfl
  · obtain ⟨q, rfl⟩ := Nat.exists_eq_add_of_le hwraps
    have hgood := allGood_putRow (n := 2 ^ 18 - a) h (a + ·) f
    have hlow : Smap.putRow k.dmem.bytes (2 ^ 18 - a) (a + ·) f =
        Smap.putRow k.dmem.bytes (2 ^ 18 - a) (fun j => (a + j) % 2 ^ 18) f :=
      Smap.putRow_congr fun j hj => ⟨(Nat.mod_eq_of_lt (by omega)).symm, rfl⟩
    have hhigh (m : Smap Byte) : Smap.putRow m q (0 + ·) (fun j => f (2 ^ 18 - a + j)) =
        Smap.putRow m q (fun j => (a + (2 ^ 18 - a + j)) % 2 ^ 18) fun j => f (2 ^ 18 - a + j) :=
      Smap.putRow_congr fun j hj => ⟨by omega, rfl⟩
    rw [List.range_add, List.map_append, List.map_map, List.take_left' (by simp), List.drop_left' (by simp), write_good h,
      Function.comp_def, write_good hgood, Mem.putRow, Mem.putRow, Mem.putRow, Smap.putRow_add, hlow, hhigh]

end

end Machine
end Sys2Proof
end

section
/-! PROOFS. O32: LOAD and STORE of the control core (R205 to R207, R353). -/
namespace Sys2Proof.Machine

section
variable {c : Chn} {s : State} {w : W32} {n a : Nat}

/-- The address of a LOAD or STORE (R206). -/
def Core.accessAddr (k : Core) (w : W32) : Nat :=
  (k.reg (insA w) + BitVec.ofInt 64 (insOfs13 w * (sizeBytes (insSize w) : Int))).toNat % 2 ^ 18

theorem dataAddr_fetched (s : State) (c : Chn) (w : W32) :
    (s.fetched c).dataAddr c w = (s.chan c).core.accessAddr w := by
  rw [State.dataAddr, sreg_fetched]
  rfl

theorem accessAddr_lt (k : Core) (w : W32) : k.accessAddr w < 2 ^ 18 := Nat.mod_lt _ (by decide)

theorem sizeBytes_le (size : Nat) : sizeBytes size ≤ 2 ^ 18 :=
  Nat.pow_le_pow_right (by decide) (by omega)

theorem load_good (hgood : (s.chan c).core.dmem.allGood) :
    loadRow (s.fetched c) c w = (s.fetched c).coreResult c w
      (let n := sizeBytes (insSize w)
       let v := ofBytesLE ((List.range n).map fun j =>
        (s.chan c).core.dmem.byte (((s.chan c).core.accessAddr w + j) % 2 ^ 18))
       if 4 ≤ insSize w then BitVec.ofInt 64 (BitVec.ofNat (8 * n) v).toInt else w64 v) := by
  have hread := dread_good hgood (accessAddr_lt (s.chan c).core w) (sizeBytes_le (insSize w))
  unfold loadRow
  dsimp only
  rw [core_fetched, dataAddr_fetched, hread]
  rfl

/-- A bad codeword that an instruction consumes leaves one CODE record, and the core goes on (R353). -/
theorem coreBad_goesOn {t : State} (b : Nat × Bool × Nat) (hcore : (t.chan c).core = (s.chan c).core)
    (hcy : t.cy = s.cy) (hnew : t.newFaults = s.newFaults) :
    (((t.coreBad c b).coreNext c id).chan c).core = (s.chan c).core.goesOn s.cy ∧
      ∃ r : FaultRec, ((t.coreBad c b).coreNext c id).newFaults = s.newFaults ++ [r] ∧ r.cls = 7 ∧ r.unit_ = 9 ∧
        r.chan = c.val ∧ r.bundle = (s.chan c).core.pc % 65536 := by
  rw [core_coreNext, newFaults_coreNext, State.coreBad, State.coreFault, State.chan_fault, State.fault_cy, State.fault_newFaults,
    hcore, hcy, hnew]
  exact ⟨rfl, _, rfl, rfl, rfl, rfl, rfl⟩

theorem loadRow_bad {b : Nat × Bool × Nat}
    (hbad : ((s.chan c).core.dread ((s.chan c).core.accessAddr w) (sizeBytes (insSize w))).2.bad = some b) :
    ∃ ce ue, loadRow (s.fetched c) c w = (((s.fetched c).countChan c ce ue).coreBad c b).coreNext c id := by
  unfold loadRow
  dsimp only
  rw [core_fetched, dataAddr_fetched, hbad]
  exact ⟨_, _, rfl⟩

/-- A LOAD that meets a bad codeword writes no register (R353). -/
theorem load_bad (h : s.issues c .load w)
    (hbad : ((s.chan c).core.dread ((s.chan c).core.accessAddr w) (sizeBytes (insSize w))).2.bad ≠ none) :
    ∃ (t : State) (r : FaultRec), exec (.load c) s = .next t ∧ (t.chan c).core = (s.chan c).core.goesOn s.cy ∧
      t.newFaults = s.newFaults ++ [r] ∧ r.cls = 7 ∧ r.unit_ = 9 ∧ r.chan = c.val ∧
      r.bundle = (s.chan c).core.pc % 65536 := by
  obtain ⟨b, hb⟩ := Option.ne_none_iff_exists'.mp hbad
  obtain ⟨ce, ue, hrun⟩ := loadRow_bad hb
  obtain ⟨-, -, hnew⟩ := countChan_aside c (s.fetched c) ce ue
  obtain ⟨hcore, r, hrecord⟩ := coreBad_goesOn (s := s) (t := (s.fetched c).countChan c ce ue) b
    ((core_countChan ..).trans (core_fetched ..)) ((cy_countChan ..).trans (cy_fetched ..))
    (hnew.trans (newFaults_fetched ..))
  exact ⟨_, r, (coreRow_exec rfl h).trans (congrArg _ hrun), hcore, hrecord⟩

/-- The core whose data memory has taken the low bytes of s(d), the lowest first. -/
def Core.stored (k : Core) (w : W32) : Core := { k with
  dmem := k.dmem.putRow (sizeBytes (insSize w)) (fun j => (k.accessAddr w + j) % 2 ^ 18)
    fun j => BitVec.ofNat 8 ((k.reg (insD w)).toNat / 256 ^ j) }

/-- STORE puts the low bytes of s(d) into data memory, the lowest first. -/
theorem store_row (h : s.issues c .store w) (hgood : (s.chan c).core.dmem.allGood) :
    ∃ t : State, exec (.store c) s = .next t ∧
      (t.chan c).core = ((s.chan c).core.stored w).goesOn s.cy := by
  refine ⟨_, coreRow_exec (run := storeRow) rfl h, ?_⟩
  unfold storeRow
  dsimp only
  rw [core_coreNext, core_fetched, dataAddr_fetched, sreg_fetched, cy_fetched, bytesLE_eq_map,
    dwrite_good hgood (accessAddr_lt ..) (sizeBytes_le _)]
  rfl

end

/-- Settles O32: a memory without bad codewords is read and written byte by byte. -/
theorem coreMemory : Obligations.CoreMemory := by
  intro c s w k n a v
  refine ⟨fun h hgood => ?_, fun h hbad => ?_, fun h hgood => ?_⟩
  · exact result_row (run := loadRow) rfl h (load_good hgood)
  · exact load_bad h hbad
  · obtain ⟨t, hexec, hcore⟩ := store_row h hgood
    refine ⟨t, hexec, ?_, ?_, ?_, fun hwf x hx => ?_⟩
    · rw [hcore]
      rfl
    · rw [hcore]
      exact hgood
    · rw [hcore]
      rfl
    · rw [hcore]
      exact Smap.get_putRow_ring hwf _ (accessAddr_lt k w) (sizeBytes_le _) hx

end Sys2Proof.Machine
end

section
/-! PROOFS. O36: SYS instructions, and instructions that cannot issue (R164, R174, R205, R353, R421, R487, R488, R543). -/
namespace Sys2Proof.Machine

/-! ### Instructions that cannot issue -/

section
variable {c : Chn} {s : State}

theorem insFault_row (hc : s.hasChan c = true) : exec (.ccoreInstructionFault c) s = .next (s.insFault c) :=
  onChan_present (f := fun s => s.insFault c) hc

/-- A core past the end of instruction memory issues no more. -/
theorem insFault_past (hready : s.coreReady c = true) (hpc : 0x10000 ≤ (s.chan c).core.pc) :
    s.insFault c = (s.modCore c fun k => { k with dead := true }).coreFault c clCode 2 (s.chan c).core.pc
      (w64 ((s.chan c).core.pc / 16)) ones64 := by
  unfold State.insFault
  rw [if_pos hready]
  exact if_pos hpc

/-- A core whose codeword is bad issues no more (R353). -/
theorem insFault_bad {b : Nat × Bool × Nat} (hready : s.coreReady c = true) (hpc : (s.chan c).core.pc < 0x10000)
    (hbad : (s.chan c).core.fetch.2.bad = some b) :
    s.insFault c = ((s.fetched c).modCore c fun k => { k with dead := true }).coreFault c clCode
      (if b.2.1 then 1 else 4) (s.chan c).core.pc (w64 ((s.chan c).core.pc / 16)) (w64 b.2.2) := by
  unfold State.insFault
  have hin : ¬ returnAddr ≤ (s.chan c).core.pc := Nat.not_le.mpr hpc
  simp only [if_pos hready, if_neg hin, hbad]
  rfl

/-- An instruction that is good but reserved acts as nothing (R174). -/
theorem insFault_good (hready : s.coreReady c = true) (hpc : (s.chan c).core.pc < 0x10000)
    (hgood : (s.chan c).core.fetch.2.bad = none) :
    s.insFault c = if (coreKind (s.chan c).core.word).isNone then
      (s.coreNext c id).coreFault c clCode 3 (s.chan c).core.pc (w64 ((s.chan c).core.pc / 16)) ones64 else s := by
  unfold State.insFault
  have hin : ¬ returnAddr ≤ (s.chan c).core.pc := Nat.not_le.mpr hpc
  simp only [if_pos hready, if_neg hin, hgood]

theorem coreReady_of_dead (h : (s.chan c).core.dead = true) : s.coreReady c = false := by
  simp [State.coreReady, h]

/-- The core that issues no more keeps the rest, with one CODE record of its next instruction. -/
theorem insFault_stops (hready : s.coreReady c = true)
    (h : 0x10000 ≤ (s.chan c).core.pc ∨ (s.chan c).core.fetch.2.bad ≠ none) :
    ((s.insFault c).chan c).core = { (s.chan c).core with dead := true } ∧
      ∃ r : FaultRec, (s.insFault c).newFaults = s.newFaults ++ [r] ∧ r.cls = 7 ∧ r.unit_ = 9 := by
  by_cases hpc : 0x10000 ≤ (s.chan c).core.pc
  · rw [insFault_past hready hpc, core_coreFault, State.core_modCore]
    exact ⟨rfl, _, rfl, rfl, rfl⟩
  · obtain ⟨b, hbad⟩ := Option.ne_none_iff_exists'.mp (h.resolve_left hpc)
    rw [insFault_bad hready (Nat.lt_of_not_le hpc) hbad, core_coreFault, State.core_modCore, core_fetched]
    exact ⟨rfl, _, congrArg (· ++ [_]) (newFaults_fetched s c), rfl, rfl⟩

end

/-! ### The state in which an instruction acts -/

section
variable (s : State) (c : Chn)

theorem regs_fetched : ((s.fetched c).chan c).regs = (s.chan c).regs := by
  obtain ⟨r, hchan⟩ := chan_countChan c s (s.chan c).core.fetch.2.ce (s.chan c).core.fetch.2.ue
  rw [State.fetched, hchan]

/-- Nothing of the part but channels and events changes as codewords are counted. -/
theorem fetched_aside : { s.fetched c with chans := s.chans, ev := s.ev } = s := by
  unfold State.fetched State.countChan
  split <;> rfl

theorem sec_fetched : (s.fetched c).sec = s.sec := (congrArg State.sec (fetched_aside s c) :)
theorem draw_fetched : (s.fetched c).draw = s.draw := (congrArg State.draw (fetched_aside s c) :)
theorem tide_fetched : (s.fetched c).tide = s.tide := (congrArg State.tide (fetched_aside s c) :)

/-- A codeword found uncorrectable is bad (R349). -/
theorem ue_of_checkWord {k : Nat} {x : Coded k} {i : Nat} (h : (checkWord x i).2.bad = none) :
    (checkWord x i).2.ue = 0 := by
  unfold checkWord at h ⊢
  dsimp only at h ⊢
  split
  · rfl
  · next hpoison =>
    rw [if_neg hpoison] at h
    split
    · rfl
    · next hresid =>
      rw [if_neg hresid] at h
      split
      · rfl
      · next herror =>
        rw [herror] at h
        cases h

theorem ue_of_checkWords {k n : Nat} {x : Coded k} (h : (checkWords n x).2.bad = none) :
    (checkWords n x).2.ue = 0 := by
  induction n with
  | zero => rfl
  | succ n ih =>
    rw [checkWords] at h ⊢
    dsimp only at h ⊢
    split at h
    · cases h
    · next hfirst => rw [ih hfirst, ue_of_checkWord h]

theorem ue_of_check {k : Nat} {x : Coded k} (h : x.check.2.bad = none) : x.check.2.ue = 0 := by
  unfold Coded.check at h ⊢
  split
  · rfl
  · next hclean =>
    rw [if_neg hclean] at h
    exact ue_of_checkWords h

variable {s c}

/-- An instruction whose codeword is good raises no event of its fetch. -/
theorem ev_fetched (h : (s.chan c).core.fetch.2.bad = none) : (s.fetched c).ev = s.ev := by
  have hue : (s.chan c).core.fetch.2.ue = 0 := ue_of_check h
  rw [State.fetched, hue, State.countChan]
  split
  · rfl
  · rw [State.raiseN_ev, State.modChan_ev, List.replicate_zero, List.append_nil]

end

/-! ### The SYS instructions -/

section
variable {c : Chn} {s : State} {w : W32}

theorem ev_coreNext (s : State) (c : Chn) (f : Core → Core) : (s.coreNext c f).ev = s.ev := rfl

theorem chan_coreNext (s : State) (c : Chn) (f : Core → Core) :
    (s.coreNext c f).chan c = { s.chan c with core := (f (s.chan c).core).goesOn s.cy } :=
  State.chan_modChan ..

/-- CSRR (R543). -/
theorem csrr_row (h : s.issues c .csrr w) : ∃ t : State, exec (.csrr c) s = .next t ∧
    (fldN w 0 12 = 0 → (t.chan c).core = ((s.chan c).core.setReg (fldN w 21 5) (w64 c.val)).goesOn s.cy) ∧
    (fldN w 0 12 = 1 →
      (t.chan c).core = ((s.chan c).core.setReg (fldN w 21 5) (s.chan c).regs.gateMark).goesOn s.cy) ∧
    (fldN w 0 12 = 2 → (t.chan c).core =
      { ((s.chan c).core.setReg (fldN w 21 5) ((s.chan c).core.evin.setWidth 64)).goesOn s.cy with evin := 0 }) ∧
    (2 < fldN w 0 12 → (t.chan c).core = ((s.chan c).core.setReg (fldN w 21 5) 0).goesOn s.cy ∧
      ∃ r : FaultRec, t.newFaults = s.newFaults ++ [r] ∧ r.cls = 7 ∧ r.cause = 3 ∧ r.unit_ = 9) := by
  refine ⟨_, coreRow_exec rfl h, ?_⟩
  have hcore (v : W64) : (((s.fetched c).coreResult c w v).chan c).core =
      ((s.chan c).core.setReg (fldN w 21 5) v).goesOn s.cy := by
    rw [coreResult_core, core_fetched, cy_fetched]
    rfl
  unfold csrrRow
  dsimp only
  split
  · next h0 => exact ⟨fun _ => hcore _, by omega, by omega, by omega⟩
  · next h0 => exact ⟨by omega, fun _ => by rw [hcore, regs_fetched], by omega, by omega⟩
  · next h0 => exact ⟨by omega, by omega, fun _ => by rw [State.core_modCore, hcore, core_fetched], by omega⟩
  · next h0 h1 h2 =>
    refine ⟨fun h => absurd h h0, fun h => absurd h h1, fun h => absurd h h2, fun _ => ?_⟩
    rw [core_coreFault, hcore, State.coreFault, State.fault_newFaults, State.coreResult, newFaults_coreNext,
      newFaults_fetched]
    exact ⟨rfl, _, rfl, rfl, rfl, rfl⟩

/-- CSRW (R543). -/
theorem csrw_row (h : s.issues c .csrw w) : ∃ t : State, exec (.csrw c) s = .next t ∧
    (t.chan c).core = (s.chan c).core.goesOn s.cy ∧
    (fldN w 0 12 = 1 →
      (t.chan c).regs = { (s.chan c).regs with gateMark := (s.chan c).core.reg (fldN w 16 5) } ∧
      t.newFaults = s.newFaults) ∧
    (fldN w 0 12 ≠ 1 → (t.chan c).regs = (s.chan c).regs ∧
      ∃ r : FaultRec, t.newFaults = s.newFaults ++ [r] ∧ r.cls = 7 ∧ r.cause = 3 ∧ r.unit_ = 9) := by
  refine ⟨_, coreRow_exec rfl h, ?_⟩
  unfold csrwRow
  dsimp only
  split
  · next h1 =>
    rw [chan_coreNext, newFaults_coreNext, State.chan_modChan, State.modChan_cy, State.modChan_newFaults, core_fetched,
      cy_fetched, regs_fetched, newFaults_fetched]
    exact ⟨rfl, fun _ => ⟨rfl, rfl⟩, fun h => absurd h1 h⟩
  · next h1 =>
    rw [State.coreFault, State.chan_fault, State.fault_newFaults, chan_coreNext, newFaults_coreNext, core_fetched,
      cy_fetched, regs_fetched, newFaults_fetched]
    exact ⟨rfl, fun h => absurd h h1, fun _ => ⟨rfl, _, rfl, rfl, rfl, rfl⟩⟩

/-- A healthy generator with draws left counts the draw (R488). -/
theorem drbgDraw_used {n : Nat} (hn : n < 5) (hhealthy : (s.sec.drbgs.getD n ⟨0, false⟩).unhealthy = false)
    (hused : (s.sec.drbgs.getD n ⟨0, false⟩).used < 65536) :
    ((s.drbgDraw n).1.sec.drbgs.getD n ⟨0, false⟩).used = (s.sec.drbgs.getD n ⟨0, false⟩).used + 1 := by
  unfold State.drbgDraw
  simp only [hhealthy, hused, decide_true, Bool.false_or, if_true, Bool.false_eq_true, if_false, getD_set!, true_and,
    if_pos hn]

/-- A draw touches the security core and the count of draws only. -/
theorem drbgDraw_keeps (s : State) (n : Nat) : (s.drbgDraw n).1.chans = s.chans ∧ (s.drbgDraw n).1.cy = s.cy ∧
    (s.drbgDraw n).1.newFaults = s.newFaults := by
  unfold State.drbgDraw
  dsimp only
  generalize (if ((s.sec.drbgs.getD n ⟨0, false⟩).unhealthy || _) = true then _ else _ : Drbg) = d
  split <;> exact ⟨rfl, rfl, rfl⟩

theorem sec_coreResult (s : State) (c : Chn) (w : W32) (v : W64) : (s.coreResult c w v).sec = s.sec := rfl

/-- RDRAND (R488). -/
theorem rdrand_row (h : s.issues c .rdrand w) : ∃ t : State, exec (.rdrand c) s = .next t ∧
    ((s.sec.drbgs.getD c.val ⟨0, false⟩).unhealthy = false →
      (s.sec.drbgs.getD c.val ⟨0, false⟩).used < 65536 →
      (t.chan c).core = ((s.chan c).core.setReg (fldN w 21 5) (fld (Config.entropy s.draw) 0 64)).goesOn s.cy ∧
        (t.sec.drbgs.getD c.val ⟨0, false⟩).used = (s.sec.drbgs.getD c.val ⟨0, false⟩).used + 1) ∧
    ((s.sec.drbgs.getD c.val ⟨0, false⟩).unhealthy = true → (t.chan c).core = (s.chan c).core.goesOn s.cy ∧
      ∃ r : FaultRec, t.newFaults = s.newFaults ++ [r] ∧ r.cls = 7 ∧ r.cause = 4 ∧ r.unit_ = 9) := by
  refine ⟨_, coreRow_exec rfl h, ?_⟩
  obtain ⟨hchans, hcy, hnew⟩ := drbgDraw_keeps (s.fetched c) c.val
  have hchan := chan_of_chans hchans c
  rw [cy_fetched] at hcy
  rw [newFaults_fetched] at hnew
  rw [← sec_fetched s c, ← draw_fetched s c]
  unfold rdrandRow
  dsimp only
  refine ⟨fun hhealthy hused => ?_, fun hbad => ?_⟩
  · obtain ⟨sec, hdraw⟩ := drbgDraw_gives hhealthy hused
    rw [(congrArg Prod.snd hdraw :)]
    rw [coreResult_core, sec_coreResult, hchan, hcy, core_fetched]
    exact ⟨rfl, drbgDraw_used (by omega) hhealthy hused⟩
  · obtain ⟨sec, hdraw⟩ := drbgDraw_unhealthy hbad
    rw [(congrArg Prod.snd hdraw :)]
    dsimp only
    rw [core_coreNext, core_coreFault, newFaults_coreNext, State.coreFault, State.fault_cy, State.fault_newFaults, hchan,
      core_fetched, hcy, hnew]
    exact ⟨rfl, _, rfl, rfl, rfl, rfl⟩

/-- FLGCLR (R164). -/
theorem flgclr_row (h : s.issues c .flgclr w) : ∃ t : State, exec (.flgclr c) s = .next t ∧
    (t.chan c).core = (s.chan c).core.goesOn s.cy ∧
    (t.chan c).regs = { (s.chan c).regs with clearNext := true } := by
  refine ⟨_, coreRow_exec rfl h, ?_⟩
  rw [flgclrRow, chan_coreNext, State.chan_modChan, State.modChan_cy, regs_fetched, core_fetched, cy_fetched]
  exact ⟨rfl, rfl⟩

/-- EVSIG (R421). -/
theorem evsig_row (h : s.issues c .evsig w) : ∃ t : State, exec (.evsig c) s = .next t ∧
    (t.chan c).core = (s.chan c).core.goesOn s.cy ∧
    t.ev.signals = s.ev.signals ++ [0x100 + 0x40 * c.val + fldN w 0 6] ∧ t.ev.raised = s.ev.raised := by
  obtain ⟨-, -, hgood, -⟩ := id h
  have hev := ev_fetched hgood
  refine ⟨_, coreRow_exec rfl h, ?_⟩
  rw [evsigRow, core_coreNext, ev_coreNext, hev]
  have hcore := core_fetched s c c
  have hcy := cy_fetched s c
  exact ⟨congrArg₂ Core.goesOn hcore hcy, rfl, rfl⟩

end

/-- Settles O36: the instruction that cannot issue by why it cannot, the SYS instructions row by row. -/
theorem coreSystem : Obligations.CoreSystem := by
  refine ⟨fun c s hc hready => ⟨fun hpc hgood hkind => ?_, fun hpc hgood hkind => ?_, fun hbad => ?_⟩, fun c s w =>
    ⟨csrr_row, csrw_row, fun h => result_row (run := rdtideRow) rfl h ?_, fun h => result_row (run := rdfwaitRow) rfl h ?_,
      fun h => result_row (run := rdcycRow) rfl h ?_, rdrand_row, flgclr_row, evsig_row⟩⟩
  · have hins := insFault_good hready hpc hgood
    rw [if_pos (by rw [hkind]; rfl)] at hins
    refine ⟨_, _, (insFault_row hc).trans (congrArg _ hins), ?_, State.fault_newFaults .., rfl, rfl, rfl, rfl⟩
    rw [core_coreFault, core_coreNext]
    rfl
  · rw [insFault_row hc, insFault_good hready hpc hgood, if_neg (by simpa using hkind)]
  · obtain ⟨hcore, r, hnew, hcls, hunit⟩ := insFault_stops hready hbad
    exact ⟨_, r, insFault_row hc, hcore, hnew, hcls, hunit, coreReady_of_dead (by rw [hcore])⟩
  · rw [rdtideRow, tide_fetched]
  · rw [rdfwaitRow, regs_fetched]
  · rw [rdcycRow, regs_fetched]

end Sys2Proof.Machine
end

section
/-! PROOFS. O37: what an instruction of the control core leaves as it was (R205, R207). -/
namespace Sys2Proof.Machine

/-- What an instruction of a control core stores in: its registers and its two memories. -/
def Core.stores (k : Core) : Vector W64 32 × Mem × Mem := (k.regs, k.imem, k.dmem)

/-- From `s` to `t` the core of channel `c` has come to hold what `k` holds; besides, its channel's counts and what
faults, events, ports and free values add to have changed at most. -/
structure CoreFrame (c : Chn) (k : Core) (s t : State) : Prop where
  state : { t with chans := s.chans, newFaults := s.newFaults, ev := s.ev, ports := s.ports, draw := s.draw } = s
  chans : ∀ d, d ≠ c → t.chan d = s.chan d
  chan : { t.chan c with
    core := (s.chan c).core, regs2 := (s.chan c).regs2, ledger := (s.chan c).ledger } = s.chan c
  stores : (t.chan c).core.stores = k.stores

section
variable {c : Chn} {k k' : Core} {s t u : State}

theorem CoreFrame.refl (c : Chn) (s : State) : CoreFrame c (s.chan c).core s s := ⟨rfl, fun _ _ => rfl, rfl, rfl⟩

theorem CoreFrame.trans (h : CoreFrame c k s t) (h' : CoreFrame c k' t u) : CoreFrame c k' s u where
  state := (congrArg (fun x : State => ({ x with
    chans := s.chans, newFaults := s.newFaults, ev := s.ev, ports := s.ports, draw := s.draw } : State)) h'.state).trans
    h.state
  chans d hd := (h'.chans d hd).trans (h.chans d hd)
  chan := (congrArg (fun x : Chan => ({ x with
    core := (s.chan c).core, regs2 := (s.chan c).regs2, ledger := (s.chan c).ledger } : Chan)) h'.chan).trans h.chan
  stores := h'.stores

/-- What follows leaves the core's registers and memories. -/
theorem CoreFrame.aside (h : CoreFrame c k s t) (h' : CoreFrame c (t.chan c).core t u) : CoreFrame c k s u :=
  { h.trans h' with stores := h'.stores.trans h.stores }

/-! ### Operations of the rows -/

/-- A change of the channel's core and counts. -/
theorem CoreFrame.modChan {f : Chan → Chan} (hf : { f (s.chan c) with
    core := (s.chan c).core, regs2 := (s.chan c).regs2, ledger := (s.chan c).ledger } = s.chan c)
    (hk : (f (s.chan c)).core.stores = k.stores) : CoreFrame c k s (s.modChan c f) where
  state := rfl
  chans d hd := State.chan_modChan_other s c d f hd
  chan := by rw [State.chan_modChan, hf]
  stores := by rw [State.chan_modChan, hk]

theorem CoreFrame.modCore {f : Core → Core} (hf : (f (s.chan c).core).stores = k.stores) :
    CoreFrame c k s (s.modCore c f) := .modChan rfl hf

theorem CoreFrame.coreNext {f : Core → Core} (hf : (f (s.chan c).core).stores = k.stores) :
    CoreFrame c k s (s.coreNext c f) := .modCore hf

theorem CoreFrame.coreResult (w : W32) (v : W64) :
    CoreFrame c ((s.chan c).core.setReg (insD w) v) s (s.coreResult c w v) := .coreNext rfl

variable (c s)

theorem CoreFrame.raiseN (e n : Nat) : CoreFrame c (s.chan c).core s (s.raiseN e n) := ⟨rfl, fun _ _ => rfl, rfl, rfl⟩

theorem CoreFrame.countChan (ce ue : Nat) : CoreFrame c (s.chan c).core s (s.countChan c ce ue) := by
  unfold State.countChan
  split
  · exact .refl c s
  · refine CoreFrame.aside (CoreFrame.modChan ?_ ?_) (.raiseN c _ ..)
    · rfl
    · rfl

theorem CoreFrame.coreFault (cls cause pc : Nat) (d0 d1 : W64) :
    CoreFrame c (s.chan c).core s (s.coreFault c cls cause pc d0 d1) := ⟨rfl, fun _ _ => rfl, rfl, rfl⟩

theorem CoreFrame.setDraw (n : Nat) : CoreFrame c (s.chan c).core s (s.setDraw n) := ⟨rfl, fun _ _ => rfl, rfl, rfl⟩

theorem CoreFrame.modPort (i : Nat) (f : MsgPort → MsgPort) : CoreFrame c (s.chan c).core s (s.modPort i f) :=
  ⟨rfl, fun _ _ => rfl, rfl, rfl⟩

theorem CoreFrame.ledger (code n : Nat) : CoreFrame c (s.chan c).core s (s.ledger c code n) := .modChan rfl rfl

/-- The messages absorbed as the port of a channel closes enter its ledger. -/
theorem CoreFrame.closePort : CoreFrame c (s.chan c).core s (s.closePort c.val) := by
  have hc : c.val < 4 := c.isLt
  have hheld : CoreFrame c (s.chan c).core s (s.discHeld c.val (s.port c.val).inbox.length) := by
    rw [State.discHeld, if_pos hc, chnOf_val]
    exact .ledger c s ..
  have hdisc (t : State) : CoreFrame c (t.chan c).core t (t.countDisc c.val 1) := by
    rw [State.countDisc, if_pos hc, chnOf_val]
    exact (CoreFrame.ledger c t ..).aside (.ledger c _ ..)
  unfold State.closePort
  dsimp only
  split
  · exact (hheld.aside (hdisc _)).aside (.modPort c _ ..)
  · exact hheld.aside (.modPort c _ ..)

theorem CoreFrame.jumping (f : Core → Core) : CoreFrame c (f (s.chan c).core) s (s.jumping c f) := .modCore rfl

/-- A transfer of control leaves the registers and memories that it began with. -/
theorem CoreFrame.coreJump (pc : Nat) (tgt : W64) (f : Core → Core) :
    CoreFrame c (f (s.chan c).core) s (s.coreJump c pc tgt f) := by
  have hjump (g : Core → Core) (hg : ∀ k, (g k).stores = k.stores) :
      CoreFrame c (f (s.chan c).core) s ((s.jumping c f).modCore c g) :=
    (CoreFrame.jumping c s f).aside (.modCore (hg _))
  rcases lt_trichotomy tgt.toNat 0x10000 with h | h | h
  · by_cases h4 : tgt.toNat % 4 = 0
    · rw [coreJump_inside h h4]
      exact hjump _ fun _ => rfl
    · rw [coreJump_unaligned h h4]
      refine (hjump _ ?_).aside (.setDraw c _ _)
      exact fun _ => rfl
  · rw [coreJump_return h]
    refine (hjump _ ?_).aside (.closePort c _)
    exact fun _ => rfl
  · rw [coreJump_beyond h]
    refine (hjump _ ?_).aside (.coreFault c _ ..)
    exact fun _ => rfl

end

/-! ### Rows -/

/-- The row runs an instruction in channel `c`, after which the core holds what `P` allows it to hold. -/
def FramedCoreRow (c : Chn) (P : W32 → Core → Core → Prop) (i : Instr) : Prop :=
  ∃ (kind : CoreKind) (run : State → Chn → W32 → State),
    (∀ s, exec i s = s.onChan c fun s => s.coreRow c kind run) ∧
      ∀ s w, ∃ k, CoreFrame c k s (run s c w) ∧ P w (s.chan c).core k

/-- The core writes the register that its instruction names, or nothing. -/
def Core.writesReg (w : W32) (k k' : Core) : Prop := k' = k ∨ ∃ v, k' = k.setReg (insD w) v

/-- The core writes nothing. -/
def Core.writesNone (_ : W32) (k k' : Core) : Prop := k' = k

/-- The core writes to its data memory, or nothing. -/
def Core.writesData (_ : W32) (k k' : Core) : Prop := k' = k ∨ ∃ a bs, k' = k.dwrite a bs

section
variable {c : Chn} {P : W32 → Core → Core → Prop} {i : Instr} {s t : State} {kind : CoreKind}
  {run : State → Chn → W32 → State}

theorem coreRow_cases (s : State) (c : Chn) (kind : CoreKind) (run : State → Chn → W32 → State) :
    s.coreRow c kind run = s ∨ s.coreRow c kind run = run (s.fetched c) c (s.chan c).core.word := by
  unfold State.coreRow
  dsimp only
  split
  · split
    · exact .inr rfl
    · exact .inl rfl
  · exact .inl rfl

theorem FramedCoreRow.frame (hi : FramedCoreRow c P i) (hP : ∀ w k, P w k k) (h : exec i s = .next t) :
    ∃ k, CoreFrame c k s t ∧ P (s.chan c).core.word (s.chan c).core k := by
  obtain ⟨kind, run, hrow, hrun⟩ := hi
  have hsame : ∃ k, CoreFrame c k s s ∧ P (s.chan c).core.word (s.chan c).core k := ⟨_, .refl c s, hP _ _⟩
  rcases onChan_cases ((hrow s).symm.trans h) with rfl | rfl
  · exact hsame
  · rcases coreRow_cases s c kind run with heq | heq
    · rwa [heq]
    · obtain ⟨k, hframe, hk⟩ := hrun (s.fetched c) (s.chan c).core.word
      rw [core_fetched] at hk
      rw [heq]
      exact ⟨k, (CoreFrame.countChan c s _ _).trans hframe, hk⟩

theorem FramedCoreRow.result (hi : ∀ s, exec i s = s.onChan c fun s => s.coreRow c kind run)
    (hrun : ∀ s w, ∃ v, run s c w = s.coreResult c w v) : FramedCoreRow c Core.writesReg i := by
  refine ⟨kind, run, hi, fun s w => ?_⟩
  obtain ⟨v, hv⟩ := hrun s w
  exact ⟨_, hv ▸ .coreResult w v, .inr ⟨v, rfl⟩⟩

theorem FramedCoreRow.link (hi : ∀ s, exec i s = s.onChan c fun s => s.coreRow c kind run)
    (hrun : ∀ s w, ∃ pc tgt v, run s c w = s.coreJump c pc tgt fun k => k.setReg (insD w) v) :
    FramedCoreRow c Core.writesReg i := by
  refine ⟨kind, run, hi, fun s w => ?_⟩
  obtain ⟨pc, tgt, v, hv⟩ := hrun s w
  exact ⟨_, hv ▸ .coreJump c s pc tgt fun k => k.setReg (insD w) v, .inr ⟨v, rfl⟩⟩

theorem csrr_framed : FramedCoreRow c Core.writesReg (.csrr c) := by
  refine ⟨.csrr, csrrRow, fun _ => rfl, fun s w => ?_⟩
  unfold csrrRow
  dsimp only
  split
  · exact ⟨_, .coreResult w _, .inr ⟨_, rfl⟩⟩
  · exact ⟨_, .coreResult w _, .inr ⟨_, rfl⟩⟩
  · exact ⟨_, (CoreFrame.coreResult w _).aside (.modCore rfl), .inr ⟨_, rfl⟩⟩
  · exact ⟨_, (CoreFrame.coreResult w _).aside (.coreFault c _ ..), .inr ⟨_, rfl⟩⟩

theorem load_framed : FramedCoreRow c Core.writesReg (.load c) := by
  refine ⟨.load, loadRow, fun _ => rfl, fun s w => ?_⟩
  unfold loadRow
  dsimp only
  generalize (s.chan c).core.dread (s.dataAddr c w) (sizeBytes (insSize w)) = r
  have hcount := CoreFrame.countChan c s r.2.ce r.2.ue
  split
  · exact ⟨_, (hcount.aside (.coreFault c _ ..)).aside (.coreNext rfl), .inl rfl⟩
  · refine ⟨_, hcount.trans (.coreResult w _), .inr ?_⟩
    rw [core_countChan]
    exact ⟨_, rfl⟩

theorem store_framed : FramedCoreRow c Core.writesData (.store c) :=
  ⟨.store, storeRow, fun _ => rfl, fun _ _ => ⟨_, .coreNext rfl, .inr ⟨_, _, rfl⟩⟩⟩

theorem branch_framed : FramedCoreRow c Core.writesNone (.branch c) := by
  refine ⟨.branch, branchRow, fun _ => rfl, fun s w => ⟨_, ?_, rfl⟩⟩
  unfold branchRow
  dsimp only
  split
  · exact .coreJump c s _ _ id
  · exact .coreNext rfl

/-- The instructions of the frame that may write the register s(d). -/
def regWriters (c : Chn) : List Instr := [.alu c, .iaddk c, .bandk c, .bork c, .bxork c, .shiftk c, .cltsk c,
  .cltuk c, .ldk c, .shins c, .load c, .call c, .jreg c, .csrr c, .rdtide c, .rdfwait c, .rdcyc c, .sdepth c, .mpoll c]

theorem regWriters_framed (c : Chn) : ∀ i ∈ regWriters c, FramedCoreRow c Core.writesReg i := by
  simp only [regWriters, List.forall_mem_cons]
  exact ⟨.result (run := aluRow) (fun _ => rfl) fun _ _ => ⟨_, rfl⟩,
    .result (run := iaddkRow) (fun _ => rfl) fun _ _ => ⟨_, rfl⟩,
    .result (run := bandkRow) (fun _ => rfl) fun _ _ => ⟨_, rfl⟩,
    .result (run := borkRow) (fun _ => rfl) fun _ _ => ⟨_, rfl⟩,
    .result (run := bxorkRow) (fun _ => rfl) fun _ _ => ⟨_, rfl⟩,
    .result (run := shiftkRow) (fun _ => rfl) fun _ _ => ⟨_, rfl⟩,
    .result (run := cltskRow) (fun _ => rfl) fun _ _ => ⟨_, rfl⟩,
    .result (run := cltukRow) (fun _ => rfl) fun _ _ => ⟨_, rfl⟩,
    .result (run := ldkRow) (fun _ => rfl) fun _ _ => ⟨_, rfl⟩,
    .result (run := shinsRow) (fun _ => rfl) fun _ _ => ⟨_, rfl⟩, load_framed,
    .link (run := callRow) (fun _ => rfl) fun _ _ => ⟨_, _, _, rfl⟩,
    .link (run := jregRow) (fun _ => rfl) fun _ _ => ⟨_, _, _, rfl⟩, csrr_framed,
    .result (run := rdtideRow) (fun _ => rfl) fun _ _ => ⟨_, rfl⟩,
    .result (run := rdfwaitRow) (fun _ => rfl) fun _ _ => ⟨_, rfl⟩,
    .result (run := rdcycRow) (fun _ => rfl) fun _ _ => ⟨_, rfl⟩,
    .result (run := sdepthRow) (fun _ => rfl) fun _ _ => ⟨_, rfl⟩,
    .result (run := mpollRow) (fun _ => rfl) fun _ _ => ⟨_, rfl⟩, List.forall_mem_nil _⟩

/-! ### What the core holds then -/

theorem reg_of_stores {k k' : Core} (h : k'.stores = k.stores) (r : Nat) : k'.reg r = k.reg r := by
  have hregs : k'.regs = k.regs := congrArg Prod.fst h
  rw [Core.reg, hregs, Core.reg]

theorem mems_of_stores {k k' : Core} (h : k'.stores = k.stores) :
    k'.regs = k.regs ∧ k'.imem = k.imem ∧ k'.dmem = k.dmem := by
  simpa [Core.stores] using h

/-- What an instruction that writes at most s(d) keeps of the core. -/
theorem writesReg_keeps {w : W32} {k k' : Core} (h : Core.writesReg w k k') :
    k'.imem = k.imem ∧ k'.dmem = k.dmem ∧ ∀ r, r ≠ insD w → k'.reg r = k.reg r := by
  rcases h with rfl | ⟨v, rfl⟩
  · exact ⟨rfl, rfl, fun _ _ => rfl⟩
  · exact ⟨Core.setReg_imem .., Core.setReg_dmem .., fun r hr => Core.reg_setReg_other _ _ _ _ hr⟩

/-- What an instruction that writes at most data memory keeps of the core. -/
theorem writesData_keeps {w : W32} {k k' : Core} (h : Core.writesData w k k') :
    k'.imem = k.imem ∧ k'.regs = k.regs := by
  rcases h with rfl | ⟨a, bs, rfl⟩ <;> exact ⟨rfl, rfl⟩

end

/-- Settles O37: the rows that write at most s(d), the store, and the branch. -/
theorem coreFrame : Obligations.CoreFrame := by
  intro c s t i hi h
  by_cases hstore : i = .store c
  · subst hstore
    obtain ⟨k, ⟨hstate, hchans, hchan, hstores⟩, hk⟩ := store_framed.frame (fun _ _ => .inl rfl) h
    obtain ⟨himem, hregs⟩ := writesData_keeps hk
    obtain ⟨hregs', himem', -⟩ := mems_of_stores hstores
    have hsame := hregs'.trans hregs
    exact ⟨hstate, hchans, hchan, himem'.trans himem, fun h => absurd rfl h,
      fun r _ => by rw [Core.reg, hsame, Core.reg], fun _ => hsame⟩
  by_cases hbranch : i = .branch c
  · subst hbranch
    obtain ⟨k, ⟨hstate, hchans, hchan, hstores⟩, hk⟩ := branch_framed.frame (fun _ _ => rfl) h
    rw [hk] at hstores
    obtain ⟨hregs, himem, hdmem⟩ := mems_of_stores hstores
    exact ⟨hstate, hchans, hchan, himem, fun _ => hdmem, fun r _ => reg_of_stores hstores r, fun _ => hregs⟩
  · have hwriter : i ∈ regWriters c := by
      simpa only [List.mem_cons, regWriters, hstore, hbranch, false_or] using hi
    obtain ⟨k, ⟨hstate, hchans, hchan, hstores⟩, hk⟩ := (regWriters_framed c i hwriter).frame (fun _ _ => .inl rfl) h
    obtain ⟨himem, hdmem, hregs⟩ := writesReg_keeps hk
    obtain ⟨-, himem', hdmem'⟩ := mems_of_stores hstores
    exact ⟨hstate, hchans, hchan, himem'.trans himem, fun _ => hdmem'.trans hdmem,
      fun r hr => (reg_of_stores hstores r).trans (hregs r hr), fun h => (h.elim hstore hbranch).elim⟩

end Sys2Proof.Machine
end

section
/-! PROOFS. How many fault records the host has not consumed (R357, R358), and steps that leave their count. -/
namespace Sys2Proof.Machine

/-- The fault records that the host has not consumed: FLT_PROD less FLT_CONS (R357, R358). -/
def FltRegs.unread (f : FltRegs) : W64 := f.prod - f.cons

/-- The fault records of the state that the host has not consumed. -/
def State.unread (s : State) : W64 := s.flt.unread

theorem unread_of_flt {s t : State} (h : t.flt = s.flt) : t.unread = s.unread := by rw [State.unread, h, State.unread]

@[simp] theorem ite_unread (p : Prop) [Decidable p] (s t : State) :
    (if p then s else t).unread = if p then s.unread else t.unread := apply_ite State.unread p s t

theorem foldl_unread {α : Type} {f : State → α → State} (hf : ∀ s x, (f s x).unread = s.unread) (l : List α)
    (s : State) : (l.foldl f s).unread = s.unread := foldl_keeps State.unread hf l s

@[simp] theorem unread_flt (s : State) : s.flt.unread = s.unread := rfl

/-- The count is read from the fault registers alone, so an update of any other field leaves it. -/
@[simp] theorem State.unread_mk (a b c d e f g h i j k l m n o p q r t u v w x) :
    (State.mk a b c d e f g h i j k l m n o p q r t u v w x).unread = l.unread := rfl

theorem ite_keeps {p : Prop} [Decidable p] {s t : State} {x : W64} (hs : s.unread = x) (ht : t.unread = x) :
    (if p then s else t).unread = x := by
  split
  · exact hs
  · exact ht

theorem sameButOrders.unread {s t : State} (h : sameButOrders s t) : t.unread = s.unread :=
  unread_of_flt (congrArg State.flt h.same :)

end Sys2Proof.Machine
end

section
/-! PROOFS. The count of unconsumed records: the cells, their slots and the sync counters leave it as it is. -/
namespace Sys2Proof.Machine

@[simp] theorem setChan_unread (s : State) (c : Chn) (v : Chan) : (s.setChan c v).unread = s.unread := rfl

@[simp] theorem modChan_unread (s : State) (c : Chn) (f : Chan → Chan) : (s.modChan c f).unread = s.unread := rfl

@[simp] theorem setCell_unread (s : State) (k : CellId) (v : Cell) : (s.setCell k v).unread = s.unread := rfl

@[simp] theorem raise_unread (s : State) (e : Nat) : (s.raise e).unread = s.unread := rfl

@[simp] theorem fault_unread (s : State) (r : FaultRec) : (s.fault r).unread = s.unread := rfl

@[simp] theorem raiseN_unread (s : State) (e n : Nat) : (s.raiseN e n).unread = s.unread := rfl

@[simp] theorem countCell_unread (s : State) (k : CellId) (ce ue : Nat) : (s.countCell k ce ue).unread = s.unread := by
  simp [State.countCell]

@[simp] theorem countChan_unread (s : State) (c : Chn) (ce ue : Nat) : (s.countChan c ce ue).unread = s.unread := by
  simp [State.countChan]

@[simp] theorem applyOut_unread (s : State) (k : CellId) (l : Latched) (off u : Nat) (o : Out) :
    (s.applyOut k l off u o).unread = s.unread :=
  unread_of_flt (congrArg State.flt (sameButChans_applyOut s k l off u o) :)

@[simp] theorem drbgDraw_unread (s : State) (i : Nat) : (s.drbgDraw i).1.unread = s.unread := by
  unfold State.drbgDraw
  dsimp only
  repeat' split
  all_goals simp

theorem runSlot_unread (s : State) (k : CellId) (slot : Nat) (is : Latched → Bool) {run : State → Latched → State}
    (hrun : ∀ s l, (run s l).unread = s.unread) : (s.runSlot k slot is run).unread = s.unread := by
  rcases runSlot_cases s k slot is run with h | ⟨l, h⟩
  · rw [h]
  · rw [h, hrun]
    rfl

@[simp] theorem runOut_unread (s : State) (k : CellId) (slot u : Nat) (is : Latched → Bool)
    (f : Env → Latched → Out → Out) : (s.runOut k slot u is f).unread = s.unread :=
  runSlot_unread s k slot is fun _ _ => applyOut_unread ..

@[simp] theorem vxSlot_unread (s : State) (k : CellId) (op : Nat) (run : Latched → VxWord → Out → Out) :
    (s.vxSlot k op run).unread = s.unread := by simp [State.vxSlot]

@[simp] theorem mxSlot_unread (s : State) (k : CellId) (op : Nat) (run : Env → Latched → Out → Out) :
    (s.mxSlot k op run).unread = s.unread := by simp [State.mxSlot]

@[simp] theorem lsSlot_unread (s : State) (k : CellId) (op : Nat) (run : Env → Latched → Out → Out) :
    (s.lsSlot k op run).unread = s.unread := by simp [State.lsSlot]

@[simp] theorem lrandSlot_unread (s : State) (k : CellId) : (s.lrandSlot k).unread = s.unread :=
  runSlot_unread s k slLS _ fun _ _ => (applyOut_unread ..).trans (drbgDraw_unread ..)

@[simp] theorem issue_unread (s : State) (k : CellId) : (s.issue k).unread = s.unread := by
  unfold State.issue
  dsimp only
  split
  · split
    · simp
    · split
      · simp
      · exact (foldl_unread (fun _ _ => by rfl) _ _).trans (by simp)
  · rfl

@[simp] theorem modCell_unread (s : State) (k : CellId) (f : Cell → Cell) : (s.modCell k f).unread = s.unread := rfl

@[simp] theorem cnopRun_unread (x : CellId) (s : State) (xx : Latched) : (cnopRun x s xx).unread = s.unread := rfl

@[simp] theorem loopRun_unread (k : CellId) (s : State) (l : Latched) : (loopRun k s l).unread = s.unread := rfl

@[simp] theorem idleRun_unread (k : CellId) (s : State) (l : Latched) : (idleRun k s l).unread = s.unread := rfl

@[simp] theorem bendRun_unread (k : CellId) (s : State) (x : Latched) : (bendRun k s x).unread = s.unread := rfl

@[simp] theorem endIdle_unread (s : State) (k : CellId) : (s.endIdle k).unread = s.unread := by simp [State.endIdle]

@[simp] theorem shswRun_unread (k : CellId) (s : State) (l : Latched) : (shswRun k s l).unread = s.unread := by
  simp [shswRun]

@[simp] theorem tchkRun_unread (k : CellId) (s : State) (l : Latched) : (tchkRun k s l).unread = s.unread := by
  simp [tchkRun]

@[simp] theorem releaseGroup_unread (s : State) (c : Chn) (g : Nat) : (s.releaseGroup c g).unread = s.unread := rfl

@[simp] theorem syncFault_unread (s : State) (k : CellId) (l : Latched) (cause g : Nat) :
    (s.syncFault k l cause g).unread = s.unread := rfl

@[simp] theorem barrRun_unread (k : CellId) (s : State) (l : Latched) : (barrRun k s l).unread = s.unread := by
  simp [barrRun]

@[simp] theorem bwaitRun_unread (k : CellId) (s : State) (l : Latched) : (bwaitRun k s l).unread = s.unread := by
  simp [bwaitRun]

@[simp] theorem contribute_unread (k : CellId) (s : State) (l : Latched) (on : Bool) :
    (contribute k s l on).unread = s.unread := by simp [contribute]

@[simp] theorem fsetRun_unread (k : CellId) (s : State) (l : Latched) : (fsetRun k s l).unread = s.unread := by
  simp [fsetRun]

@[simp] theorem fclrRun_unread (k : CellId) (s : State) (l : Latched) : (fclrRun k s l).unread = s.unread := by
  simp [fclrRun]

@[simp] theorem readTree_unread (k : CellId) (s : State) (l : Latched) (and_ : Bool) :
    (readTree k s l and_).unread = s.unread := by simp [readTree]

@[simp] theorem frdoRun_unread (k : CellId) (s : State) (l : Latched) : (frdoRun k s l).unread = s.unread := by
  simp [frdoRun]

@[simp] theorem frdaRun_unread (k : CellId) (s : State) (l : Latched) : (frdaRun k s l).unread = s.unread := by
  simp [frdaRun]

@[simp] theorem sgnlRun_unread (k : CellId) (s : State) (l : Latched) : (sgnlRun k s l).unread = s.unread := rfl

@[simp] theorem takeRun_unread (k : CellId) (s : State) (l : Latched) : (takeRun k s l).unread = s.unread := rfl

@[simp] theorem ctRun_unread (op : Nat) (a : CellId) (ax : State) (axx : Latched) :
    (ctRun op a ax axx).unread = ax.unread := by
  unfold ctRun
  split <;> simp

@[simp] theorem modCore_unread (s : State) (c : Chn) (f : Core → Core) : (s.modCore c f).unread = s.unread := rfl

@[simp] theorem modPort_unread (s : State) (i : Nat) (f : MsgPort → MsgPort) : (s.modPort i f).unread = s.unread :=
  rfl

@[simp] theorem ledger_unread (s : State) (c : Chn) (code n : Nat) : (s.ledger c code n).unread = s.unread := rfl

@[simp] theorem coreFault_unread (s : State) (c : Chn) (cls cause pc : Nat) (d0 d1 : W64) :
    (s.coreFault c cls cause pc d0 d1).unread = s.unread := rfl

@[simp] theorem modMgmt_unread (s : State) (e : Nat) (f : MgmtCore → MgmtCore) : (s.modMgmt e f).unread = s.unread :=
  rfl

@[simp] theorem mgmtFault_unread (s : State) (cls cause pc : Nat) (d0 d1 : W64) :
    (s.mgmtFault cls cause pc d0 d1).unread = s.unread := rfl

@[simp] theorem setCount_unread (s : State) (n : Nat) (v : W32) : (s.setCount n v).unread = s.unread := rfl

@[simp] theorem opFault_unread (s : State) (o : SyncOp) (cause : Nat) (d1 : W64) :
    (s.opFault o cause d1).unread = s.unread := by
  unfold State.opFault
  split <;> simp

@[simp] theorem countTokens_unread (s : State) (o : SyncOp) (take : Bool) :
    (s.countTokens o take).unread = s.unread := by
  unfold State.countTokens
  split <;> simp

@[simp] theorem actOp_unread (s : State) (o : SyncOp) : (s.actOp o).unread = s.unread := by
  unfold State.actOp
  dsimp only
  cases o.kind with
  | set w => rfl
  | signal => simp only [ite_unread, countTokens_unread, setCount_unread, opFault_unread, ite_self]
  | take => simp only [ite_unread, countTokens_unread, setCount_unread, opFault_unread, ite_self]
  | read d => rfl
  | wait => rfl

@[simp] theorem endWait_unread (s : State) (e t : Nat) : (s.endWait e t).unread = s.unread := by simp [State.endWait]

@[simp] theorem sendBack_unread (s : State) (e : Nat) (d : BitVec 5) (v : W64) (t : Nat) :
    (s.sendBack e d v t).unread = s.unread := by simp [State.sendBack]

@[simp] theorem serve_unread (s : State) (w : SyncWait) : (s.serve w).unread = s.unread := by simp [State.serve]

@[simp] theorem serveWaits_unread (s : State) (n : Nat) : (s.serveWaits n).unread = s.unread := by
  unfold State.serveWaits
  exact foldl_unread (fun t x => by simp) _ _

@[simp] theorem actRead_unread (s : State) (o : SyncOp) : (s.actRead o).unread = s.unread := by
  unfold State.actRead
  split <;> simp

@[simp] theorem absentOp_unread (s : State) (o : SyncOp) : (s.absentOp o).unread = s.unread := by
  unfold State.absentOp
  split <;> simp

@[simp] theorem arriveAt_unread (s : State) (n : Nat) : (s.arriveAt n).unread = s.unread := by
  unfold State.arriveAt
  dsimp only
  split
  · rfl
  · split
    · exact foldl_unread absentOp_unread _ _
    · exact (serveWaits_unread ..).trans (foldl_unread (fun t o => by simp) _ _)

@[simp] theorem countDisc_unread (s : State) (i n : Nat) : (s.countDisc i n).unread = s.unread := by
  simp [State.countDisc]

@[simp] theorem discHeld_unread (s : State) (i n : Nat) : (s.discHeld i n).unread = s.unread := by
  simp [State.discHeld]

@[simp] theorem closePort_unread (s : State) (i : Nat) : (s.closePort i).unread = s.unread := by
  simp [State.closePort]

@[simp] theorem openPort_unread (s : State) (i : Nat) : (s.openPort i).unread = s.unread := rfl

@[simp] theorem refill_unread (s : State) (i : Nat) : (s.refill i).unread = s.unread := by
  unfold State.refill
  dsimp only
  split <;> simp

@[simp] theorem enterPort_unread (s : State) (c : Chn) (m : Msg) : (s.enterPort c m).unread = s.unread := by
  simp [State.enterPort]

@[simp] theorem mgmtSend_unread (s : State) (i : Nat) : (s.mgmtSend i).unread = s.unread := by
  unfold State.mgmtSend
  dsimp only
  repeat' split
  all_goals simp

@[simp] theorem deliver_unread (s : State) (src dst : Byte) : (s.deliver src dst).unread = s.unread := by
  unfold State.deliver
  dsimp only
  repeat' split
  all_goals simp

@[simp] theorem sendStall_unread (s : State) (c : Chn) : (s.sendStall c).unread = s.unread := by
  unfold State.sendStall
  dsimp only
  split <;> simp

@[simp] theorem mgmtStall_unread (s : State) (n : Fin 4) : (s.mgmtStall n).unread = s.unread := by
  unfold State.mgmtStall
  dsimp only
  split <;> simp

@[simp] theorem waitLong_unread (s : State) (c : Chn) : (s.waitLong c).unread = s.unread := by simp [State.waitLong]

end Sys2Proof.Machine
end

section
/-! PROOFS. The count of unconsumed records: control cores, memory, streams and firmware leave it as it is. -/
namespace Sys2Proof.Machine

theorem coreRow_unread (s : State) (c : Chn) (kind : CoreKind) {run : State → Chn → W32 → State}
    (hrun : ∀ s w, (run s c w).unread = s.unread) : (s.coreRow c kind run).unread = s.unread := by
  rcases coreRow_cases s c kind run with h | h
  · rw [h]
  · rw [h, hrun]
    exact countChan_unread s c _ _

@[simp] theorem coreNext_unread (s : State) (c : Chn) (f : Core → Core) : (s.coreNext c f).unread = s.unread := rfl

@[simp] theorem coreResult_unread (s : State) (c : Chn) (w : W32) (v : W64) :
    (s.coreResult c w v).unread = s.unread := rfl

@[simp] theorem aluRow_unread (s : State) (c : Chn) (w : W32) : (aluRow s c w).unread = s.unread := rfl

@[simp] theorem iaddkRow_unread (s : State) (c : Chn) (w : W32) : (iaddkRow s c w).unread = s.unread := rfl

@[simp] theorem bandkRow_unread (s : State) (c : Chn) (w : W32) : (bandkRow s c w).unread = s.unread := rfl

@[simp] theorem borkRow_unread (s : State) (c : Chn) (w : W32) : (borkRow s c w).unread = s.unread := rfl

@[simp] theorem bxorkRow_unread (s : State) (c : Chn) (w : W32) : (bxorkRow s c w).unread = s.unread := rfl

@[simp] theorem shiftkRow_unread (s : State) (c : Chn) (w : W32) : (shiftkRow s c w).unread = s.unread := rfl

@[simp] theorem cltskRow_unread (s : State) (c : Chn) (w : W32) : (cltskRow s c w).unread = s.unread := rfl

@[simp] theorem cltukRow_unread (s : State) (c : Chn) (w : W32) : (cltukRow s c w).unread = s.unread := rfl

@[simp] theorem ldkRow_unread (s : State) (c : Chn) (w : W32) : (ldkRow s c w).unread = s.unread := rfl

@[simp] theorem shinsRow_unread (s : State) (c : Chn) (w : W32) : (shinsRow s c w).unread = s.unread := rfl

@[simp] theorem coreBad_unread (s : State) (c : Chn) (b : Nat × Bool × Nat) : (s.coreBad c b).unread = s.unread := rfl

@[simp] theorem loadRow_unread (s : State) (c : Chn) (w : W32) : (loadRow s c w).unread = s.unread := by
  unfold loadRow
  dsimp only
  split <;> simp

@[simp] theorem storeRow_unread (s : State) (c : Chn) (w : W32) : (storeRow s c w).unread = s.unread := rfl

@[simp] theorem coreJump_unread (s : State) (c : Chn) (pc : Nat) (t : W64) (f : Core → Core) :
    (s.coreJump c pc t f).unread = s.unread := by simp [State.coreJump]

@[simp] theorem branchRow_unread (s : State) (c : Chn) (w : W32) : (branchRow s c w).unread = s.unread := by
  simp [branchRow]

@[simp] theorem callRow_unread (s : State) (c : Chn) (w : W32) : (callRow s c w).unread = s.unread := by
  simp [callRow]

@[simp] theorem jregRow_unread (s : State) (c : Chn) (w : W32) : (jregRow s c w).unread = s.unread := by
  simp [jregRow]

@[simp] theorem ssigRow_unread (s : State) (c : Chn) (w : W32) : (ssigRow s c w).unread = s.unread := rfl

@[simp] theorem stakeRow_unread (s : State) (c : Chn) (w : W32) : (stakeRow s c w).unread = s.unread := rfl

@[simp] theorem ssetRow_unread (s : State) (c : Chn) (w : W32) : (ssetRow s c w).unread = s.unread := rfl

@[simp] theorem swaitRow_unread (s : State) (c : Chn) (w : W32) : (swaitRow s c w).unread = s.unread := rfl

@[simp] theorem srdRow_unread (s : State) (c : Chn) (w : W32) : (srdRow s c w).unread = s.unread := rfl

@[simp] theorem msendRow_unread (s : State) (c : Chn) (w : W32) : (msendRow s c w).unread = s.unread := by
  simp [msendRow]

@[simp] theorem msendComplete_unread (s : State) (c : Chn) : (s.msendComplete c).unread = s.unread := by
  unfold State.msendComplete
  split <;> simp

theorem receive_unread {s t : State} {c : Chn} {addr : Nat} {filter : W64} {d : Nat}
    (h : s.receive c addr filter d = some t) : t.unread = s.unread := by
  unfold State.receive at h
  split at h
  · cases h
  · cases h
    simp

@[simp] theorem mrecvRow_unread (s : State) (c : Chn) (w : W32) : (mrecvRow s c w).unread = s.unread := by
  unfold mrecvRow
  dsimp only
  split
  · rename_i h
    exact (receive_unread h).trans (coreNext_unread s c id)
  · rfl

@[simp] theorem mrecvComplete_unread (s : State) (c : Chn) : (s.mrecvComplete c).unread = s.unread := by
  unfold State.mrecvComplete
  split
  · rename_i a f d _
    cases h : s.receive c a f d.toNat with
    | none => rfl
    | some t => exact receive_unread h
  · rfl

@[simp] theorem mpollRow_unread (s : State) (c : Chn) (w : W32) : (mpollRow s c w).unread = s.unread := rfl

@[simp] theorem bcastRow_unread (s : State) (c : Chn) (w : W32) : (bcastRow s c w).unread = s.unread := rfl

@[simp] theorem csrrRow_unread (s : State) (c : Chn) (w : W32) : (csrrRow s c w).unread = s.unread := by
  unfold csrrRow
  split <;> simp

@[simp] theorem csrwRow_unread (s : State) (c : Chn) (w : W32) : (csrwRow s c w).unread = s.unread := by
  simp [csrwRow]

@[simp] theorem rdtideRow_unread (s : State) (c : Chn) (w : W32) : (rdtideRow s c w).unread = s.unread := rfl

@[simp] theorem rdfwaitRow_unread (s : State) (c : Chn) (w : W32) : (rdfwaitRow s c w).unread = s.unread := rfl

@[simp] theorem rdcycRow_unread (s : State) (c : Chn) (w : W32) : (rdcycRow s c w).unread = s.unread := rfl

@[simp] theorem rdrandRow_unread (s : State) (c : Chn) (w : W32) : (rdrandRow s c w).unread = s.unread := by
  unfold rdrandRow
  dsimp only
  split <;> simp

@[simp] theorem flgclrRow_unread (s : State) (c : Chn) (x : W32) : (flgclrRow s c x).unread = s.unread := rfl

@[simp] theorem evsigRow_unread (s : State) (c : Chn) (w : W32) : (evsigRow s c w).unread = s.unread := rfl

@[simp] theorem insFault_unread (s : State) (c : Chn) : (s.insFault c).unread = s.unread := by
  unfold State.insFault
  dsimp only
  repeat' split
  all_goals simp

@[simp] theorem modMsd_unread (s : State) (n : Nat) (f : MsdRegs → MsdRegs) : (s.modMsd n f).unread = s.unread := rfl

@[simp] theorem countMsd_unread (s : State) (n ce ue : Nat) : (s.countMsd n ce ue).unread = s.unread := by
  simp [State.countMsd]

@[simp] theorem countIod_unread (s : State) (ce ue : Nat) : (s.countIod ce ue).unread = s.unread := rfl

@[simp] theorem bwReads_unread (s : State) (shared : Bool) (addrs : List Nat) :
    (s.bwReads shared addrs).unread = s.unread := by
  unfold State.bwReads
  exact foldl_unread (fun t x => by simp) _ _

@[simp] theorem bwWrites_unread (s : State) (addrs : List Nat) : (s.bwWrites addrs).unread = s.unread := by
  unfold State.bwWrites
  exact foldl_unread (fun t x => by simp) _ _

@[simp] theorem checkHdm_unread (s : State) (addrs : List Nat) : (s.checkHdm addrs).unread = s.unread := by
  unfold State.checkHdm
  exact foldl_unread (fun t x => by simp) _ _

@[simp] theorem land_unread (s : State) (ws : List ByteWrite) : (s.land ws).unread = s.unread := by simp [State.land]

@[simp] theorem freeSnoop_unread (s : State) (line : Nat) : (s.freeSnoop line).unread = s.unread := rfl

@[simp] theorem issueSnoop_unread (s : State) (line : Nat) : (s.issueSnoop line).unread = s.unread := by
  simp [State.issueSnoop]

@[simp] theorem snoopFor_unread (s : State) (ws : List ByteWrite) : (s.snoopFor ws).unread = s.unread := by
  unfold State.snoopFor
  exact foldl_unread (fun t x => by simp) _ _

@[simp] theorem partWrite_unread (s : State) (owner : Nat) (ws : List ByteWrite) :
    (s.partWrite owner ws).unread = s.unread := unread_of_flt (sameButJournal_partWrite s owner ws).flt

@[simp] theorem countJournal_unread (s : State) : s.countJournal.unread = s.unread := rfl

@[simp] theorem landReady_unread (s : State) : s.landReady.unread = s.unread := by
  unfold State.landReady
  exact foldl_unread (fun t x => by simp) _ _

@[simp] theorem endFlush_unread (s : State) : s.endFlush.unread = s.unread := by simp [State.endFlush]

@[simp] theorem snoopAnswer_unread (s : State) (line : Nat) (dirty : Option (BitVec 512)) :
    (s.snoopAnswer line dirty).unread = s.unread := by
  unfold State.snoopAnswer
  dsimp only
  repeat' split
  all_goals simp

@[simp] theorem hdmError_unread (s : State) (off : Nat) : (s.hdmError off).unread = s.unread := rfl

@[simp] theorem answerLine_unread (s : State) (data : Nat) (poison : Bool) :
    (s.answerLine data poison).unread = s.unread := by simp [State.answerLine]

@[simp] theorem hostRead_unread (s : State) (off : Nat) (cacheable : Bool) :
    (s.hostRead off cacheable).unread = s.unread := by simp [State.hostRead]

@[simp] theorem translate_unread (s : State) (die eng va : Nat) (write : Bool) :
    (s.translate die eng va write).1.unread = s.unread := by
  unfold State.translate
  dsimp only
  split <;> simp

@[simp] theorem writeEntry_unread (s : State) (i : Nat) (part : WordPart) (w : W64) :
    (s.writeEntry i part w).unread = s.unread := by simp [State.writeEntry]

@[simp] theorem flushTable_unread (s : State) : s.flushTable.unread = s.unread := by simp [State.flushTable]

@[simp] theorem enableBw_unread (s : State) (n : Nat) (on : Bool) : (s.enableBw n on).unread = s.unread := rfl

@[simp] theorem invalidateBw_unread (s : State) (n : Nat) : (s.invalidateBw n).unread = s.unread := rfl

@[simp] theorem retryHbm_unread (s : State) (n : Nat) (wdata exhausted : Bool) :
    (s.retryHbm n wdata exhausted).unread = s.unread := by simp [State.retryHbm]

@[simp] theorem scrubLine_unread (s : State) (n line : Nat) : (s.scrubLine n line).unread = s.unread := by
  unfold State.scrubLine
  split
  · refine foldl_unread (fun t j => ?_) _ s
    simp only [countMsd_unread, State.unread_mk, unread_flt]
  · rfl

@[simp] theorem vaBytes_unread (s : State) (die eng va n : Nat) (write : Bool) :
    (s.vaBytes die eng va n write).1.unread = s.unread := by
  unfold State.vaBytes
  dsimp only
  repeat' split
  all_goals simp

@[simp] theorem indexValue_unread (s : State) (die eng : Nat) (it : TDesc) (p : Nat) :
    (s.indexValue die eng it p).1.unread = s.unread := by simp [State.indexValue]

@[simp] theorem placeAt_unread (s : State) (die eng : Nat) (t : TDesc) (write : Bool) (logical : Nat)
    (cs : List Nat) (poison : Bool) :
    (s.placeAt die eng t write logical cs poison).1.unread = s.unread := by
  unfold State.placeAt
  dsimp only
  split <;> simp

@[simp] theorem placeElem_unread (s : State) (die eng : Nat) (t : TDesc) (write : Bool) (j : Nat) :
    (s.placeElem die eng t write j).1.unread = s.unread := by
  have hread := indexValue_unread s die eng (s.tensor (tdIndex t))
    ((tdCoords t (s.tdShape t) j).getD (tdIdim t) 0)
  unfold State.placeElem
  dsimp only
  split
  · simp
  · split
    · rename_i heq
      rw [heq] at hread
      exact hread
    · rename_i heq
      rw [heq] at hread
      split
      · rw [placeAt_unread]
        exact hread
      · exact hread

@[simp] theorem placeBeat_unread (s : State) (die eng : Nat) (t : TDesc) (write : Bool) (beat : Nat) :
    (s.placeBeat die eng t write beat).1.unread = s.unread := by
  unfold State.placeBeat
  refine List.foldlRecOn (motive := fun acc : State × List (Loc × Nat) × Option Placed => acc.1.unread = s.unread)
    _ _ rfl fun acc hacc i _ => ?_
  split
  · exact hacc
  · have hplace := placeElem_unread acc.1 die eng t write (beat * (128 / fmtNibbles (tdFmt t)) + i)
    split <;> rename_i heq <;> rw [heq] at hplace <;> exact hplace.trans hacc

@[simp] theorem modSq_unread (s : State) (c : Chn) (q : Nat) (f : StreamQ → StreamQ) :
    (s.modSq c q f).unread = s.unread := rfl

@[simp] theorem modDq_unread (s : State) (c : Chn) (q : Nat) (f : DrainQ → DrainQ) :
    (s.modDq c q f).unread = s.unread := rfl

@[simp] theorem descFault_unread (s : State) (c : Chn) (cause die unit_ handle desc q : Nat) (drain : Bool)
    (other : Nat) (d1 : W64) :
    (s.descFault c cause die unit_ handle desc q drain other d1).unread = s.unread := rfl

@[simp] theorem sopenRow_unread (s : State) (c : Chn) (w : W32) : (sopenRow s c w).unread = s.unread := rfl

@[simp] theorem coreFree_unread (s : State) (c : Chn) : (s.coreFree c).unread = s.unread := rfl

@[simp] theorem openStream_unread (s : State) (c : Chn) (d : SDesc) (st : Strm) :
    (s.openStream c d st).unread = s.unread := by simp [State.openStream]

@[simp] theorem sopenDone_unread (s : State) (c : Chn) : (s.sopenDone c).unread = s.unread := by
  unfold State.sopenDone
  repeat' split
  all_goals simp

@[simp] theorem indexReads_unread (s : State) (die : Nat) (shared : Bool) (addrs : List Nat) :
    (s.indexReads die shared addrs).unread = s.unread := by simp [State.indexReads]

@[simp] theorem haltSq_unread (s : State) (c : Chn) (q cause va : Nat) : (s.haltSq c q cause va).unread = s.unread :=
  rfl

@[simp] theorem haltDq_unread (s : State) (c : Chn) (q cause va : Nat) : (s.haltDq c q cause va).unread = s.unread :=
  rfl

@[simp] theorem fetchBeat_unread (s : State) (c : Chn) (q : Nat) : (s.fetchBeat c q).unread = s.unread := by
  unfold State.fetchBeat
  cases (s.sqOf c q).cur with
  | none => rfl
  | some st =>
    refine ite_keeps rfl ?_
    extract_lets s1
    split <;> rename_i heq <;>
      have hplace := (congrArg (fun x => x.1.unread) heq).symm.trans
        ((placeBeat_unread _ _ _ _ _ _).trans (indexReads_unread s _ _ _))
    · exact (ledger_unread _ c _ _).trans ((modMsd_unread _ _ _).trans ((modSq_unread _ c q _).trans hplace))
    · exact (haltSq_unread _ c q _ _).trans hplace
    · exact (descFault_unread ..).trans ((modSq_unread _ c q _).trans hplace)
    · exact hplace

@[simp] theorem readBack_unread (s : State) (c : Chn) (q pos : Nat) : (s.readBack c q pos).unread = s.unread := by
  unfold State.readBack
  split <;> simp

@[simp] theorem hostWrites_unread (s : State) (ws : List ByteWrite) : (s.hostWrites ws).unread = s.unread := rfl

@[simp] theorem digestBeat_unread (s : State) (c : Chn) (q handle : Nat) (beat : Beat) (nibbles : Nat)
    (locs : List (Loc × Nat)) :
    (s.digestBeat c q handle beat nibbles locs).unread = s.unread := by
  unfold State.digestBeat
  dsimp only
  split <;> simp

@[simp] theorem hostCheck_unread (s : State) (c : Chn) (q : Nat) (beat : Beat) (ws : List ByteWrite) :
    (s.hostCheck c q beat ws).unread = s.unread := by
  unfold State.hostCheck
  dsimp only
  repeat' split
  all_goals simp

@[simp] theorem drainBeat_unread (s : State) (c : Chn) (q : Nat) : (s.drainBeat c q).unread = s.unread := by
  have hmoved (die : Nat) (f : DrainQ → DrainQ) (g : MsdRegs → MsdRegs) {u : State} (hu : u.unread = s.unread) :
      ((u.modDq c q f).modMsd die g).unread = s.unread :=
    (modMsd_unread _ die g).trans ((modDq_unread u c q f).trans hu)
  unfold State.drainBeat
  extract_lets x
  split
  · refine ite_keeps rfl ?_
    extract_lets _ s1
    split <;> rename_i heq <;>
      have hplace := (congrArg (fun x => x.1.unread) heq).symm.trans
        ((placeBeat_unread _ _ _ _ _ _).trans (indexReads_unread s _ _ _))
    · refine ite_keeps (snoopFor_unread s _) ((land_unread _ _).trans ((hostCheck_unread _ c q _ _).trans
        ((hostWrites_unread _ _).trans ?_)))
      exact ite_keeps ((digestBeat_unread ..).trans (hmoved _ _ _ hplace)) (hmoved _ _ _ hplace)
    · exact (haltDq_unread _ c q _ _).trans hplace
    · exact (descFault_unread ..).trans ((modDq_unread _ c q _).trans hplace)
    · exact hplace
  · rfl

@[simp] theorem edgeFault_unread (s : State) (c : Chn) (off cause port q i k : Nat) (drain : Bool) :
    (s.edgeFault c off cause port q i k drain).unread = s.unread := rfl

@[simp] theorem inject_unread (s : State) (c : Chn) (off port q i k : Nat) :
    (s.inject c off port q i k).unread = s.unread := by
  unfold State.inject
  split <;> simp

@[simp] theorem drainIn_unread (s : State) (c : Chn) (off port q i k : Nat) :
    (s.drainIn c off port q i k).unread = s.unread := by
  unfold State.drainIn
  split <;> simp

@[simp] theorem edgeRun_unread (s : State) (c : Chn) (i : Nat) : (s.edgeRun c i).unread = s.unread := by
  unfold State.edgeRun
  split <;> simp

@[simp] theorem cancelSq_unread (s : State) (c : Chn) (q : Nat) : (s.cancelSq c q).unread = s.unread := rfl

@[simp] theorem scancelRow_unread (s : State) (c : Chn) (w : W32) : (scancelRow s c w).unread = s.unread := rfl

@[simp] theorem scancelDone_unread (s : State) (c : Chn) : (s.scancelDone c).unread = s.unread := by
  unfold State.scancelDone
  split <;> simp

@[simp] theorem sdepthRow_unread (s : State) (c : Chn) (w : W32) : (sdepthRow s c w).unread = s.unread := rfl

@[simp] theorem cancelAll_unread (s : State) (c : Chn) : (s.cancelAll c).unread = s.unread := by
  unfold State.cancelAll
  rw [modChan_unread]
  exact foldl_unread (fun t q => cancelSq_unread t c q) _ s

@[simp] theorem resumeStream_unread (s : State) (c : Chn) (q : Nat) (drain : Bool) :
    (s.resumeStream c q drain).unread = s.unread := by
  unfold State.resumeStream
  dsimp only
  split
  · split <;> rename_i heq <;>
      have hplace := (congrArg (fun x => x.1.unread) heq).symm.trans
        ((placeBeat_unread _ _ _ _ _ _).trans (ite_keeps (modDq_unread s c q _) (modSq_unread s c q _)))
    · exact ite_keeps ((haltDq_unread _ c q _ _).trans hplace) ((haltSq_unread _ c q _ _).trans hplace)
    · exact hplace
  · rfl

@[simp] theorem reopen_unread (s : State) (c : Chn) (sq dq : List (List Strm)) :
    (s.reopen c sq dq).unread = s.unread := by
  unfold State.reopen
  dsimp only
  rw [foldl_unread fun t e => modDq_unread t c _ _, foldl_unread fun t e => modSq_unread t c _ _]

@[simp] theorem wkRow_unread (write : Bool) (s : State) (c : Chn) (w : W32) :
    (wkRow write s c w).unread = s.unread := by
  simp [wkRow]

@[simp] theorem wkrdRow_unread (s : State) (c : Chn) (w : W32) : (wkrdRow s c w).unread = s.unread := by
  simp [wkrdRow]

@[simp] theorem wkwrRow_unread (s : State) (c : Chn) (w : W32) : (wkwrRow s c w).unread = s.unread := by
  simp [wkwrRow]

@[simp] theorem coreStatus_unread (s : State) (c : Chn) (d status : Nat) :
    (s.coreStatus c d status).unread = s.unread := rfl

@[simp] theorem wicketDone_unread (s : State) (c : Chn) : (s.wicketDone c).unread = s.unread := by
  unfold State.wicketDone
  split
  · extract_lets die e st x hdm addrs ws home s1 s2 chk s3
    have h1 : s1.unread = s.unread := (modMsd_unread ..).trans (translate_unread ..)
    have h2 : s2.unread = s.unread := ite_keeps h1 ((modMsd_unread s1 die _).trans h1)
    have h3 : s3.unread = s.unread := (bwReads_unread _ _ _).trans ((checkHdm_unread s2 _).trans h2)
    refine ite_keeps (coreStatus_unread s c _ _) (ite_keeps (snoopFor_unread s _) (ite_keeps ?_ ?_))
    · exact (coreStatus_unread _ _ _ _).trans ((land_unread _ _).trans ((countChan_unread _ _ _ _).trans h2))
    · exact (coreStatus_unread _ _ _ _).trans ((modCore_unread _ _ _).trans h3)
  · rfl

@[simp] theorem journal_unread (s : State) (x : Nat) : (s.journal x).unread = s.unread := by simp [State.journal]

@[simp] theorem internal_unread (s : State) (type_ d0 d1 : Nat) : (s.internal type_ d0 d1).unread = s.unread := by
  simp [State.internal]

@[simp] theorem hostPut_unread (s : State) (a : Nat) (bs : List Byte) : (s.hostPut a bs).unread = s.unread := rfl

@[simp] theorem ringHeader_unread (s : State) : s.ringHeader.unread = s.unread := by simp [State.ringHeader]

@[simp] theorem putReply_unread (s : State) (x : BitVec 512) : (s.putReply x).unread = s.unread := by
  simp [State.putReply]

@[simp] theorem pumpReplies_unread (s : State) (n : Nat) : (s.pumpReplies n).unread = s.unread := by
  induction n generalizing s with
  | zero => rfl
  | succ n ih =>
    unfold State.pumpReplies
    split
    · rfl
    · exact ite_keeps ((ih _).trans (putReply_unread _ _)) rfl

@[simp] theorem reply_unread (s : State) (x : BitVec 512) : (s.reply x).unread = s.unread := pumpReplies_unread ..

@[simp] theorem finishCmd_unread (s : State) (seq : W64) (status reason : Nat) (result : BitVec 192) :
    (s.finishCmd seq status reason result).unread = s.unread := rfl

@[simp] theorem mapCmds_unread (s : State) (f : Cmd → Cmd) : (s.mapCmds f).unread = s.unread := rfl

@[simp] theorem noteRelease_unread (s : State) (c : Chn) (seq : W64) : (s.noteRelease c seq).unread = s.unread := rfl

@[simp] theorem noteStop_unread (s : State) (c : Chn) : (s.noteStop c).unread = s.unread := by simp [State.noteStop]

@[simp] theorem noteGone_unread (s : State) (c : Chn) (retired : Bool) : (s.noteGone c retired).unread = s.unread :=
  rfl

@[simp] theorem noteSave_unread (s : State) (number : Option W64) : (s.noteSave number).unread = s.unread := rfl

@[simp] theorem noteRole_unread (s : State) (ok : Bool) : (s.noteRole ok).unread = s.unread := rfl

@[simp] theorem switchUnits_unread (s : State) (c : Chn) : (s.switchUnits c).unread = s.unread := rfl

end Sys2Proof.Machine
end

section
/-! PROOFS. The count of unconsumed records: what gates, frequency steps, save points and rollbacks do leaves it as it
is, but for a flush of the new faults into the log. -/
namespace Sys2Proof.Machine

@[simp] theorem modGate_unread (s : State) (c : Chn) (f : Gate → Gate) : (s.modGate c f).unread = s.unread := rfl

@[simp] theorem loadNext_unread (s : State) (c : Chn) : (s.loadNext c).unread = s.unread := by
  unfold State.loadNext
  dsimp only
  repeat' split
  all_goals simp

@[simp] theorem clearSync_unread (s : State) (c : Chn) : (s.clearSync c).unread = s.unread := rfl

@[simp] theorem serveHome_unread (s : State) (c : Chn) : (s.serveHome c).unread = s.unread := by
  unfold State.serveHome
  exact foldl_unread (fun t x => by simp) _ _

@[simp] theorem loadChan_unread (s : State) (c : Chn) : (s.loadChan c).unread = s.unread := by simp [State.loadChan]

@[simp] theorem dropSaves_unread (s : State) : s.dropSaves.unread = s.unread := by
  unfold State.dropSaves
  exact foldl_unread (fun t x => by simp) _ _

@[simp] theorem resetChan_unread (s : State) (c : Chn) : (s.resetChan c).unread = s.unread := by
  simp [State.resetChan]

@[simp] theorem endReset_unread (s : State) (c : Chn) : (s.endReset c).unread = s.unread := by
  unfold State.endReset
  split <;> simp

@[simp] theorem holdChan_unread (s : State) (c : Chn) : (s.holdChan c).unread = s.unread := rfl

@[simp] theorem stopChan_unread (s : State) (c : Chn) (cause : BitVec 3) : (s.stopChan c cause).unread = s.unread := by
  simp [State.stopChan]

@[simp] theorem enterOpening_unread (s : State) (c : Chn) : (s.enterOpening c).unread = s.unread := by
  simp [State.enterOpening]

@[simp] theorem afterSlack_unread (s : State) (c : Chn) : (s.afterSlack c).unread = s.unread := by
  simp [State.afterSlack]

@[simp] theorem beginTask_unread (s : State) (t : SlackTask) : (s.beginTask t).unread = s.unread := by
  unfold State.beginTask
  split <;> simp

@[simp] theorem startTasks_unread (s : State) : s.startTasks.unread = s.unread := by
  unfold State.startTasks
  exact foldl_unread (fun t x => by simp) _ _

@[simp] theorem leaveIfFree_unread (s : State) (c : Chn) : (s.leaveIfFree c).unread = s.unread := by
  simp [State.leaveIfFree]

@[simp] theorem slackMove_unread (s : State) : s.slackMove.unread = s.unread :=
  (foldl_unread leaveIfFree_unread _ _).trans (startTasks_unread s)

@[simp] theorem enterSlack_unread (s : State) (c : Chn) : (s.enterSlack c).unread = s.unread := slackMove_unread _

@[simp] theorem stepSlack_unread (s : State) (c : Chn) : (s.stepSlack c).unread = s.unread := by
  unfold State.stepSlack
  dsimp only
  split <;> split <;> simp

@[simp] theorem vaPut_unread (s : State) (va : Nat) (bs : List Byte) : (s.vaPut va bs).unread = s.unread := rfl

@[simp] theorem pairPut_unread (s : State) (c : Chn) (r : BitVec 512) : (s.pairPut c r).unread = s.unread := by
  simp [State.pairPut]

@[simp] theorem makeRecord_unread (s : State) (c : Chn) (p : Pending) : (s.makeRecord c p).unread = s.unread := by
  simp [State.makeRecord]

@[simp] theorem digestGate_unread (s : State) (c : Chn) (b : BEntry) : (s.digestGate c b).unread = s.unread := by
  simp [State.digestGate]

@[simp] theorem gateFault_unread (s : State) (c : Chn) (cls cause unit_ : Nat) (d0 d1 : W64) :
    (s.gateFault c cls cause unit_ d0 d1).unread = s.unread := rfl

@[simp] theorem checkLedger_unread (s : State) (c : Chn) (b : BEntry) : (s.checkLedger c b).unread = s.unread := by
  unfold State.checkLedger
  exact foldl_unread (fun t x => by simp) _ _

@[simp] theorem checkLatches_unread (s : State) (c : Chn) : (s.checkLatches c).unread = s.unread :=
  foldl_unread (fun t g => foldl_unread (fun _ _ => by rfl) _ t) _ s

@[simp] theorem checkCoverage_unread (s : State) (c : Chn) (b : BEntry) : (s.checkCoverage c b).unread = s.unread := by
  simp [State.checkCoverage]

@[simp] theorem closeChecks_unread (s : State) (c : Chn) (b : BEntry) : (s.closeChecks c b).unread = s.unread := by
  unfold State.closeChecks
  simp

@[simp] theorem unwind_unread (s : State) (c : Chn) (r : Replay) : (s.unwind c r).unread = s.unread := by
  unfold State.unwind
  extract_lets sq dq s1 s2
  have h1 : s1.unread = s.unread := foldl_unread (fun t q => cancelSq_unread t c q) _ s
  rw [modChan_unread]
  exact (reopen_unread s1 c sq dq).trans h1

@[simp] theorem replayChan_unread (s : State) (c : Chn) : (s.replayChan c).unread = s.unread := by
  unfold State.replayChan
  extract_lets s1 s2
  have h1 : s1.unread = s.unread := by
    cases h : (s.chan c).gate.replay with
    | none => simp only [s1, h]
    | some r => simp only [s1, h, unwind_unread]
  rw [raise_unread, enterOpening_unread]
  exact h1

@[simp] theorem stepSave_unread (s : State) (c : Chn) : (s.stepSave c).unread = s.unread := by
  unfold State.stepSave
  dsimp only
  split
  · exact stepSlack_unread ..
  · rfl

@[simp] theorem passChan_unread (s : State) (c : Chn) (b : BEntry) : (s.passChan c b).unread = s.unread :=
  (stepSave_unread ..).trans (digestGate_unread s c b)

@[simp] theorem endBlock_unread (s : State) (c : Chn) : (s.endBlock c).unread = s.unread := by
  unfold State.endBlock
  dsimp only
  split <;> simp

@[simp] theorem lateStopChan_unread (s : State) (c : Chn) : (s.lateStopChan c).unread = s.unread := by
  unfold State.lateStopChan
  dsimp only
  split
  · simp
  · split <;> simp

@[simp] theorem releaseChan_unread (s : State) (c : Chn) : (s.releaseChan c).unread = s.unread := by
  unfold State.releaseChan
  dsimp only
  split <;> simp

@[simp] theorem gateLong_unread (s : State) (c : Chn) : (s.gateLong c).unread = s.unread := by simp [State.gateLong]

@[simp] theorem requestClear_unread (s : State) (c : Chn) : (s.requestClear c).unread = s.unread := rfl

@[simp] theorem runSlots_unread (s : State) (k : CellId) : (s.runSlots k).unread = s.unread := by
  unfold State.runSlots
  refine (runSlot_unread _ k slCT _ fun t l => ctRun_unread _ k t l).trans ((runOut_unread _ k _ _ _ _).trans
    ((runOut_unread _ k _ _ _ _).trans ((lrandSlot_unread _ k).trans ((runOut_unread _ k _ _ _ _).trans ?_))))
  exact runOut_unread s k _ _ _ _

@[simp] theorem cycleCells_unread (s : State) (c : Chn) : (s.cycleCells c).unread = s.unread := by
  unfold State.cycleCells
  exact (foldl_unread runSlots_unread _ _).trans (foldl_unread issue_unread _ s)

@[simp] theorem cycleEdges_unread (s : State) (c : Chn) : (s.cycleEdges c).unread = s.unread := by
  unfold State.cycleEdges
  exact foldl_unread (fun t x => by simp) _ _

@[simp] theorem cycleSync_unread (s : State) : s.cycleSync.unread = s.unread := by
  unfold State.cycleSync
  exact foldl_unread arriveAt_unread _ s

@[simp] theorem straySum_unread (s : State) (c : Chn) (b : SumOnLane) : (s.straySum c b).unread = s.unread := by
  simp [State.straySum]

@[simp] theorem pushFull_unread (s : State) (c : Chn) (d : Due) (queue : Nat) :
    (s.pushFull c d queue).unread = s.unread := rfl

@[simp] theorem takeDue_unread (s : State) (c : Chn) (d : Due) : (s.takeDue c d).unread = s.unread := by
  unfold State.takeDue
  split <;> simp

@[simp] theorem takeDues_unread (s : State) (c : Chn) : (s.takeDues c).unread = s.unread := by
  unfold State.takeDues
  exact foldl_unread (fun t x => by simp) _ _

@[simp] theorem cycleEnd_unread (s : State) (c : Chn) : (s.cycleEnd c).unread = s.unread := by
  unfold State.cycleEnd
  refine (modChan_unread _ c _).trans ((takeDues_unread _ c).trans ((modChan_unread _ c _).trans ?_))
  exact foldl_unread (fun t b => straySum_unread t c b) _ s

@[simp] theorem setSlot_unread (s : State) (c : Chn) (b : Bool) (v : Option Slot) :
    (s.setSlot c b v).unread = s.unread := rfl

@[simp] theorem putSaveSet_unread (s : State) (ws : List ByteWrite) : (s.putSaveSet ws).unread = s.unread := by
  simp [State.putSaveSet]

@[simp] theorem checkSaveSet_unread (s : State) : s.checkSaveSet.unread = s.unread := by simp [State.checkSaveSet]

@[simp] theorem writeSave_unread (s : State) (c : Chn) : (s.writeSave c).unread = s.unread := by
  unfold State.writeSave
  split
  · exact stepSlack_unread s c
  · split
    · dsimp only
      split
      · simp
      · simp
    · rfl

@[simp] theorem failSave_unread (s : State) : s.failSave.unread = s.unread := by simp [State.failSave]

@[simp] theorem sealSlot_unread (s : State) (c : Chn) : (s.sealSlot c).unread = s.unread := by
  unfold State.sealSlot
  extract_lets b
  split
  · rw [modChan_unread, setSlot_unread, partWrite_unread]
  · rfl

@[simp] theorem afterSave_unread (s : State) (stop : Bool) (c : Chn) : (s.afterSave stop c).unread = s.unread := by
  unfold State.afterSave
  dsimp only
  split
  · simp
  · split <;> simp
  · rfl

@[simp] theorem completeSave_unread (s : State) : s.completeSave.unread = s.unread := by
  unfold State.completeSave
  extract_lets s1 s2 s3 stop s4 _ _ s5
  have h1 : s1.unread = s.unread := failSave_unread s
  have h2 : s2.unread = s1.unread := foldl_unread (fun t c => modGate_unread t c _) _ s1
  have h3 : s3.unread = s.unread := foldl_unread sealSlot_unread _ s
  have h4 : s4.unread = s3.unread := noteSave_unread s3 _
  have h5 : s5.unread = s4.unread := State.unread_mk ..
  exact ite_keeps
    (ite_keeps ((foldl_unread (fun t c => afterSave_unread t false c) _ s2).trans (h2.trans h1))
      ((foldl_unread (fun t c => afterSave_unread t stop c) _ s5).trans (h5.trans (h4.trans h3)))) rfl

@[simp] theorem cadenceDue_unread (s : State) : s.cadenceDue.unread = s.unread := by simp [State.cadenceDue]

@[simp] theorem readHeader_unread (s : State) (older : Bool) (c : Chn) :
    (s.readHeader older c).unread = s.unread := by
  unfold State.readHeader
  extract_lets b l bad s1
  have h1 : s1.unread = s.unread := checkHdm_unread s l
  clear_value s1
  split
  · split
    · exact (fault_unread _ _).trans ((setSlot_unread _ c b _).trans h1)
    · exact h1
  · rfl

@[simp] theorem restoreChan_unread (s : State) (older : Bool) (c : Chn) (v : Slot) :
    (s.restoreChan older c v).unread = s.unread := by
  unfold State.restoreChan
  refine (reopen_unread _ c _ _).trans ((modPort_unread _ _ _).trans ((modChan_unread _ c _).trans ?_))
  exact clearSync_unread s c

@[simp] theorem absorbFlight_unread (s : State) : s.absorbFlight.unread = s.unread := by
  unfold State.absorbFlight
  exact foldl_unread (fun t x => by simp) _ _

@[simp] theorem moveCells_unread (s : State) (c : Chn) (p sp : Nat) : (s.moveCells c p sp).1.unread = s.unread := by
  unfold State.moveCells
  refine List.foldlRecOn (motive := fun acc : State × Bool => acc.1.unread = s.unread) _ _ rfl fun acc hacc e _ => ?_
  extract_lets at_ m k
  split
  · exact (countCell_unread _ k _ _).trans hacc
  · exact hacc

theorem substitute_unread {s : State} {c : Chn} {p : Nat} {x : State × Bool} (h : s.substitute c p = some x) :
    x.1.unread = s.unread := by
  unfold State.substitute at h
  split at h
  · cases h
  · rename_i sp _
    rw [← Option.some.inj h]
    exact (raise_unread _ _).trans ((State.unread_mk ..).trans
      ((modChan_unread _ c _).trans (moveCells_unread s c p sp)))

@[simp] theorem bindVariant_unread (s : State) (v : Nat) : (s.bindVariant v).unread = s.unread := by
  unfold State.bindVariant
  refine (foldl_unread (fun t c => ?_) _ _).trans (dropSaves_unread s)
  split
  · rfl
  · split
    · exact loadChan_unread t c
    · rw [closePort_unread, modGate_unread, loadChan_unread]

@[simp] theorem retireChan_unread (s : State) (c : Chn) : (s.retireChan c).unread = s.unread := by
  unfold State.retireChan
  extract_lets s1 s2 _ _ s3
  have h1 : s1.unread = s.unread :=
    (noteGone_unread _ c true).trans ((closePort_unread _ _).trans (clearSync_unread s c))
  have h2 : s2.unread = s1.unread := (modChan_unread _ c _).trans (cancelAll_unread s1 c)
  have h3 : s3.unread = s2.unread := State.unread_mk ..
  exact (raise_unread s3 _).trans (h3.trans (h2.trans h1))

@[simp] theorem restoreEntry_unread (s : State) (slots : Chn → Option Slot) (e : W128) :
    (s.restoreEntry slots e).unread = s.unread := by
  unfold State.restoreEntry
  extract_lets src dst count d
  split
  · rfl
  · split
    · rfl
    · rfl
    · rfl
    · exact foldl_unread (fun t i => modSq_unread t d _ _) _ s
    · rfl

@[simp] theorem resumeVariant_unread (s : State) (slots : Chn → Option Slot) (c : Chn) :
    (s.resumeVariant slots c).unread = s.unread := by simp [State.resumeVariant]

@[simp] theorem ownCmd_unread (s : State) (opcode kind status reason accept done : Nat) :
    (s.ownCmd opcode kind status reason accept done).unread = s.unread := by simp [State.ownCmd]

@[simp] theorem ownRetire_unread (s : State) (c : Option Nat) : (s.ownRetire c).unread = s.unread := by
  unfold State.ownRetire
  split <;> simp

@[simp] theorem ownDone_unread (s : State) (status reason : Nat) : (s.ownDone status reason).unread = s.unread := by
  unfold State.ownDone
  split <;> simp

@[simp] theorem recoveryFailed_unread (s : State) : s.recoveryFailed.unread = s.unread := by
  unfold State.recoveryFailed
  refine (raise_unread _ _).trans ((State.unread_mk ..).trans ((ownDone_unread _ _ _).trans
    ((mapCmds_unread _ _).trans ((foldl_unread (fun t c => modGate_unread t c _) _ _).trans ?_))))
  exact foldl_unread (fun t c => ite_keeps rfl (holdChan_unread t c)) _ s

@[simp] theorem applyVariant_unread (s : State) (v : Nat) (slots : Chn → Option Slot) :
    (s.applyVariant v slots).unread = s.unread := by
  unfold State.applyVariant
  refine (State.unread_mk ..).trans ((ownDone_unread _ _ _).trans ((mapCmds_unread _ _).trans
    ((foldl_unread (fun t c => resumeVariant_unread t slots c) _ _).trans ((State.unread_mk ..).trans ?_))))
  exact (foldl_unread (fun t e => restoreEntry_unread t slots e) _ _).trans (bindVariant_unread s v)

@[simp] theorem retire_unread (s : State) (c : Chn) : (s.retire c).unread = s.unread := by
  unfold State.retire
  extract_lets slots surviving ws
  split
  · exact (putSaveSet_unread _ ws).trans ((applyVariant_unread _ _ slots).trans (retireChan_unread s c))
  · exact (recoveryFailed_unread _).trans (retireChan_unread s c)

@[simp] theorem rollSubs_unread (s : State) : s.rollSubs.1.unread = s.unread := by
  unfold State.rollSubs
  split
  · refine List.foldlRecOn (motive := fun acc : State × Option Chn => acc.1.unread = s.unread) _ _ rfl
      fun acc hacc e _ => ?_
    extract_lets c op now s1
    have h1 : s1.unread = s.unread := (ownCmd_unread acc.1 _ _ _ _ _ _).trans hacc
    clear_value s1
    cases h : s1.substitute c e.2 with
    | some x => exact (ownCmd_unread _ _ _ _ _ _ _).trans ((substitute_unread h).trans h1)
    | none => exact (ownCmd_unread _ _ _ _ _ _ _).trans ((unread_of_flt rfl).trans h1)
  · rfl

@[simp] theorem rollOn_unread (s : State) (c : Chn) : (s.rollOn c).unread = s.unread :=
  ite_keeps (enterSlack_unread _ c) (ite_keeps (stopChan_unread s c 1) (enterOpening_unread s c))

@[simp] theorem restoreAll_unread (s : State) (older : Bool) (slots : Chn → Option Slot) :
    (s.restoreAll older slots).unread = s.unread := by
  unfold State.restoreAll
  extract_lets keep s1 _ s2
  have h1 : s1.unread = s.unread := by
    refine foldl_unread (fun t c => ?_) _ s
    cases slots c with
    | none => rfl
    | some v => exact restoreChan_unread t older c v
  have h2 : s2.unread = s1.unread := by
    unfold s2
    cases keep with
    | none => rfl
    | some v => exact (putSaveSet_unread _ _).trans (unread_of_flt rfl)
  exact (foldl_unread rollOn_unread _ s2).trans (h2.trans h1)

@[simp] theorem rollTo_unread (s : State) (older : Bool) (n : W64) : (s.rollTo older n).unread = s.unread := by
  unfold State.rollTo
  refine (raise_unread _ _).trans ((State.unread_mk ..).trans
    ((foldl_unread (fun t c => modChan_unread t c _) _ _).trans ?_))
  exact restoreAll_unread s older _

@[simp] theorem beginRollback_unread (s : State) (older : Bool) (retire : Option Nat) (n : W64)
    (faults : List (Nat × Nat × Nat × W64)) : (s.beginRollback older retire n faults).unread = s.unread := by
  unfold State.beginRollback
  refine (internal_unread _ _ _ _).trans ((State.unread_mk ..).trans ?_)
  exact foldl_unread (fun t c => ite_keeps (modGate_unread t c _) rfl) _ s

@[simp] theorem reproduced_unread (s : State) : s.reproduced.unread = s.unread := by
  unfold State.reproduced
  refine (raise_unread _ _).trans ((foldl_unread (fun t c => modChan_unread t c _) _ _).trans ?_)
  exact foldl_unread (fun t c => ite_keeps (stopChan_unread t c 3) rfl) _ s

@[simp] theorem ordinaryRollback_unread (s : State) (c : Chn) (faults : List (Nat × Nat × Nat × W64)) :
    (s.ordinaryRollback c faults).unread = s.unread := by
  unfold State.ordinaryRollback
  extract_lets bl _ s1 s2 retire
  have h1 : s1.unread = s.unread := State.unread_mk ..
  have h2 : s2.unread = s1.unread := by
    refine ite_keeps ?_ rfl
    split
    · exact foldl_unread (fun t d => modChan_unread t d _) _ s1
    · rfl
  exact (beginRollback_unread _ _ _ _ _).trans ((ownRetire_unread s2 _).trans (h2.trans h1))

@[simp] theorem waitDriver_unread (s : State) : s.waitDriver.unread = s.unread := by
  unfold State.waitDriver
  exact foldl_unread (fun t x => by simp) _ _

@[simp] theorem ceExpire_unread (s : State) : s.ceExpire.unread = s.unread := by
  unfold State.ceExpire
  split
  · exact foldl_unread (fun t c => modChan_unread ..) _ _
  · rfl

@[simp] theorem retireExpire_unread (s : State) (c : Chn) : (s.retireExpire c).unread = s.unread := rfl

@[simp] theorem closeWindow_unread (s : State) : s.closeWindow.unread = s.unread := by simp [State.closeWindow]

@[simp] theorem taskDone_unread (s : State) (t : SlackTask) (status reason : Nat) (result : BitVec 192) :
    (s.taskDone t status reason result).unread = s.unread := by
  unfold State.taskDone
  split <;> simp

@[simp] theorem endTask_unread (s : State) (t : SlackTask) : (s.endTask t).unread = s.unread := by
  unfold State.endTask
  split
  · rfl
  · split
    · rfl
    · refine (closeWindow_unread _).trans ((slackMove_unread _).trans ((foldl_unread (fun u q => ?_) _ _).trans
        (State.unread_mk ..)))
      exact ite_keeps (ownCmd_unread u _ _ _ _ _ _) (finishCmd_unread u q _ _ _)

@[simp] theorem substituteTask_unread (s : State) (c : Chn) (p : Nat) : (s.substituteTask c p).unread = s.unread := by
  unfold State.substituteTask
  split
  · rfl
  · refine ite_keeps rfl ?_
    split
    · rename_i t _ h
      extract_lets s1
      have h1 : s1.unread = s.unread := (taskDone_unread t _ _ _ _).trans (substitute_unread h)
      exact ite_keeps ((beginRollback_unread s1 _ _ _ _).trans h1) h1
    · extract_lets s1
      have h1 : s1.unread = s.unread := taskDone_unread s _ _ _ _
      exact ite_keeps ((beginRollback_unread _ _ _ _ _).trans ((ownRetire_unread s1 _).trans h1)) h1

end Sys2Proof.Machine
end

section
/-! PROOFS. The count of unconsumed records: power, link, tide, trust, bringup and events leave it as it is. -/
namespace Sys2Proof.Machine

theorem storeOrder_unread {s t : State} {typ : Byte} {mark arg : W64} (h : s.storeOrder typ mark arg = some t) :
    t.unread = s.unread := by
  obtain ⟨k, o, -, -, -, -, -, rfl⟩ := storeOrder_stores h
  rfl

@[simp] theorem slewRail_unread (s : State) : s.slewRail.unread = s.unread := rfl

@[simp] theorem takeStep_unread (s : State) : s.takeStep.unread = s.unread := rfl

@[simp] theorem arriveRail_unread (s : State) : s.arriveRail.unread = s.unread := by simp [State.arriveRail]

@[simp] theorem readSensors_unread (s : State) (temps : List W16) : (s.readSensors temps).unread = s.unread := by
  simp [State.readSensors]

@[simp] theorem evaluate_unread (s : State) (mean : W32) : (s.evaluate mean).unread = s.unread := by
  simp [State.evaluate]

@[simp] theorem attachAt_unread (s : State) (t : Task) (at_ : W64) : (s.attachAt t at_).unread = s.unread :=
  (sameButOrders_attachAt s t at_).unread

@[simp] theorem attachTask_unread (s : State) (t : Task) : (s.attachTask t).unread = s.unread :=
  (sameButOrders_attachTask s t).unread

@[simp] theorem releaseListed_unread (s : State) : s.releaseListed.unread = s.unread :=
  (sameButOrders_releaseListed s).unread

@[simp] theorem ownTask_unread (s : State) (t : SlackTask) (at_ : Option W64) :
    (s.ownTask t at_).unread = s.unread := by
  unfold State.ownTask
  split <;> simp

@[simp] theorem firmwareTasks_unread (s : State) : s.firmwareTasks.unread = s.unread := by
  unfold State.firmwareTasks
  refine (foldl_unread (fun t n => by simp) _ _).trans ?_
  split
  · exact foldl_unread (fun t e => by simp) _ _
  · rfl

@[simp] theorem openWindow_unread (s : State) (mark len : W64) : (s.openWindow mark len).unread = s.unread := by
  unfold State.openWindow
  rw [slackMove_unread]
  refine (foldl_unread (fun t c => ?_) _ _).trans (foldl_unread (fun _ _ => by rfl) _ _)
  split
  · rfl
  · rfl
  · rfl
  · exact enterSlack_unread t c

@[simp] theorem deferTasks_unread (s : State) : s.deferTasks.unread = s.unread := by
  unfold State.deferTasks
  exact foldl_unread (fun t x => by simp) _ _

@[simp] theorem endSpan_unread (s : State) : s.endSpan.unread = s.unread := by
  unfold State.endSpan
  split
  · simp
  · rfl

@[simp] theorem setRegion_unread (s : State) (r : Nat) (v : Region) : (s.setRegion r v).unread = s.unread := rfl

@[simp] theorem calibrated_unread (s : State) (r : Nat) (margin : Byte) : (s.calibrated r margin).unread = s.unread :=
  rfl

@[simp] theorem calibrateTask_unread (s : State) (r : Fin 37) (margin : Byte) :
    (s.calibrateTask r margin).unread = s.unread := by
  unfold State.calibrateTask
  split <;> simp

@[simp] theorem hurry_unread (s : State) (t : SlackTask) (m : W64) : (s.hurry t m).unread = s.unread :=
  (sameButOrders_hurry s t m).unread

@[simp] theorem drift_unread (s : State) (r : Fin 37) (margin : Byte) : (s.drift r margin).unread = s.unread := by
  unfold State.drift
  extract_lets warn hold _ s1
  have h1 : s1.unread = s.unread := setRegion_unread s _ _
  exact ite_keeps rfl (ite_keeps (ite_keeps ((hurry_unread s1 _ _).trans h1) h1)
    (ite_keeps ((ownTask_unread s1 _ _).trans h1) (ite_keeps ((ownTask_unread s1 _ _).trans h1) h1)))

@[simp] theorem retrainTask_unread (s : State) (n : Fin 8) (ok : Bool) : (s.retrainTask n ok).unread = s.unread := by
  unfold State.retrainTask
  split <;> simp

@[simp] theorem deriveAlias_unread (s : State) : s.deriveAlias.unread = s.unread := rfl

@[simp] theorem switchMgmt_unread (s : State) : s.switchMgmt.unread = s.unread := by
  have hunits (t : State) : (([0, 1, 2, 3] : List Chn).foldl (fun s c =>
      match s.hasChan c, (s.chan c).gate.st with
      | true, .running => s.modChan c fun ch => { ch with regs2 := { ch.regs2 with fwDue := true } }
      | true, .gate => s.modChan c fun ch => { ch with regs2 := { ch.regs2 with fwDue := true } }
      | _, _ => s.switchUnits c) t).unread = t.unread := by
    refine foldl_unread (fun u c => ?_) _ t
    split
    · rfl
    · rfl
    · exact switchUnits_unread u c
  unfold State.switchMgmt
  split
  · rfl
  · refine ite_keeps rfl ((taskDone_unread _ _ _ _ _).trans ((hunits _).trans
      ((foldl_unread openPort_unread _ _).trans ((State.unread_mk ..).trans ((deriveAlias_unread _).trans
        ((State.unread_mk ..).trans (State.unread_mk ..)))))))

@[simp] theorem chanOff_unread (s : State) (c : Chn) : (s.chanOff c).unread = s.unread := by simp [State.chanOff]

@[simp] theorem writeChOff_unread (s : State) (mask : BitVec 4) : (s.writeChOff mask).unread = s.unread := by
  unfold State.writeChOff
  exact foldl_unread (fun t x => by simp) _ _

@[simp] theorem dueChOff_unread (s : State) : s.dueChOff.unread = s.unread := by
  unfold State.dueChOff
  exact foldl_unread (fun t x => by simp) _ _

@[simp] theorem trainLink_unread (s : State) (bad : W16) (slow : Bool) : (s.trainLink bad slow).unread = s.unread :=
  ite_keeps ((pumpReplies_unread _ _).trans (State.unread_mk ..)) rfl

@[simp] theorem stopAll_unread (s : State) : s.stopAll.unread = s.unread := by
  unfold State.stopAll
  exact foldl_unread (fun t x => by simp) _ _

@[simp] theorem dropHeld_unread (s : State) : s.dropHeld.unread = s.unread :=
  foldl_unread (fun t c => foldl_unread (fun u q => by simp) _ t) _ s

@[simp] theorem quiesceMove_unread (s : State) : s.quiesceMove.unread = s.unread := by
  have hidle : (if s.serviceIdle then s.stopAll else s).unread = s.unread := by simp
  unfold State.quiesceMove
  split
  · rfl
  · dsimp only
    generalize (if s.serviceIdle then s.stopAll else s) = t at hidle
    have hdown : (if t.downLimitPassed then t.dropHeld else t).unread = s.unread := by simp [hidle]
    generalize (if t.downLimitPassed then t.dropHeld else t) = u at hdown
    split
    · exact hdown
    · split
      · exact (foldl_unread issueSnoop_unread _ _).trans hdown
      · exact hdown

@[simp] theorem beginQuiesce_unread (s : State) : s.beginQuiesce.unread = s.unread :=
  ite_keeps rfl ((quiesceMove_unread _).trans (State.unread_mk ..))

@[simp] theorem takeOrders_unread (s : State) (f : List Byte) (first : Nat) :
    (s.takeOrders f first).unread = s.unread :=
  unread_of_flt (congrArg State.flt (takesOrders_takeOrders s f first).same :)

@[simp] theorem tideEntry_unread (s : State) (loss relock : Bool) : (s.tideEntry loss relock).unread = s.unread := by
  simp [State.tideEntry]

@[simp] theorem lockAt_unread (s : State) (first : Nat) (v : W64) : (s.lockAt_ first v).unread = s.unread := by
  simp [State.lockAt_]

@[simp] theorem takeFrame_unread (s : State) : s.takeFrame.unread = s.unread := by
  unfold State.takeFrame
  split
  · rfl
  · split
    · rfl
    · dsimp only
      split
      · rfl
      · split
        · simp
        · split
          · split <;> rfl
          · simp

@[simp] theorem lose_unread (s : State) : s.lose.unread = s.unread := by
  unfold State.lose
  split
  · simp
  · rfl

@[simp] theorem releaseHold_unread (s : State) : s.releaseHold.unread = s.unread := by
  unfold State.releaseHold
  split <;> simp

theorem placeOrder_unread {s : State} {typ target : Byte} {mark arg : W64} {p : State × Bool}
    (h : s.placeOrder typ target mark arg = some p) : p.1.unread = s.unread := by
  obtain ⟨n, -, rfl⟩ := Option.map_eq_some_iff.mp h
  rfl

@[simp] theorem driveLine_unread (s : State) (first : W64) : (s.driveLine first).unread = s.unread := rfl

@[simp] theorem placeHalts_unread (s : State) : s.placeHalts.unread = s.unread := by
  unfold State.placeHalts
  split
  · rfl
  · refine foldl_unread (fun t a => ?_) _ _
    split
    · rename_i h
      exact placeOrder_unread h
    · rfl

@[simp] theorem ageSending_unread (s : State) : s.ageSending.unread = s.unread := placeHalts_unread _

@[simp] theorem promoted_unread (s : State) : s.promoted.unread = s.unread := by simp [State.promoted]

@[simp] theorem checkHandover_unread (s : State) (good : Bool) : (s.checkHandover good).unread = s.unread := by
  simp [State.checkHandover]

@[simp] theorem freeSlot_unread (s : State) (n : Nat) : (s.freeSlot n).unread = s.unread :=
  (sameButOrders_freeSlot s n).unread

@[simp] theorem haltMark_unread (s : State) (n : Nat) : (s.haltMark n).unread = s.unread := by
  cases h : s.actsNow n otHALT with
  | none => rw [haltMark_none h]
  | some o =>
    rw [haltMark_acts h, freeSlot_unread]
    exact foldl_unread (fun _ _ => by rfl) _ _

@[simp] theorem freqMark_unread (s : State) (n : Nat) : (s.freqMark n).unread = s.unread := by
  unfold State.freqMark
  split
  · split <;> simp
  · rfl

@[simp] theorem slackMark_unread (s : State) (n : Nat) : (s.slackMark n).unread = s.unread := by
  unfold State.slackMark
  split
  · simp
  · rfl

@[simp] theorem handoverMark_unread (s : State) (n : Nat) : (s.handoverMark n).unread = s.unread := by
  unfold State.handoverMark
  split
  · dsimp only
    split
    · simp
    · split
      · simp
      · split <;> simp
  · rfl

@[simp] theorem applyMarks_unread (s : State) : s.applyMarks.unread = s.unread := by
  unfold State.applyMarks
  rw [foldl_unread slackMark_unread, foldl_unread freqMark_unread, foldl_unread haltMark_unread]

@[simp] theorem applyDue_unread (s : State) : s.applyDue.unread = s.unread := by
  unfold State.applyDue
  rw [foldl_unread handoverMark_unread, applyMarks_unread]

@[simp] theorem tickTimers_unread (s : State) : s.tickTimers.unread = s.unread := rfl

@[simp] theorem pairWatch_unread (s : State) : s.pairWatch.unread = s.unread := rfl

@[simp] theorem tickSlot_unread (s : State) (slot : Option TickSlot) : (s.tickSlot slot).unread = s.unread := by
  simp [State.tickSlot]

@[simp] theorem driveAgain_unread (s : State) : s.driveAgain.unread = s.unread := by simp [State.driveAgain]

@[simp] theorem advance_unread (s : State) : s.advance.unread = s.unread := by
  unfold State.advance
  split <;> simp

@[simp] theorem afterBoundary_unread (s : State) (slot : Option TickSlot) :
    (s.afterBoundary slot).unread = s.unread := by
  have hticks (t : State) : (t.channels.foldl State.tickChan t).unread = t.unread :=
    foldl_unread (fun _ _ => by rfl) _ _
  unfold State.afterBoundary
  simp [hticks]

@[simp] theorem noteFail_unread (s : State) (slot : Bool) (n : Nat) : (s.noteFail slot n).unread = s.unread := rfl

@[simp] theorem runFirmware_unread (s : State) (slot : Bool) : (s.runFirmware slot).unread = s.unread := rfl

@[simp] theorem boot_unread (s : State) : s.boot.unread = s.unread := by simp [State.boot]

@[simp] theorem advanceFloor_unread (s : State) : s.advanceFloor.unread = s.unread := by simp [State.advanceFloor]

@[simp] theorem answer_unread (s : State) (m : Nat) (bs : List Byte) : (s.answer m bs).unread = s.unread := rfl

@[simp] theorem spdmError_unread (s : State) (code : Byte) : (s.spdmError code).unread = s.unread := rfl

@[simp] theorem setSpdm_unread (s : State) (f : Spdm → Spdm) : (s.setSpdm f).unread = s.unread := rfl

theorem onSpdm_unread {s : State} {f : State → State} (hf : (f s).unread = s.unread) : (s.onSpdm f).unread = s.unread :=
  ite_keeps hf (spdmError_unread s _)

@[simp] theorem certPortion_unread (s : State) (slot : Byte) (off len : Nat) :
    (s.certPortion slot off len).unread = s.unread := by simp [State.certPortion]

@[simp] theorem signedAnswer_unread (s : State) (head : List Byte) (nonce : BitVec 256) :
    (s.signedAnswer head nonce).unread = s.unread := by
  unfold State.signedAnswer
  dsimp only
  split <;> simp

@[simp] theorem giveMeasures_unread (s : State) (index : Byte) (sign : Bool) (nonce : BitVec 256) :
    (s.giveMeasures index sign nonce).unread = s.unread := by
  unfold State.giveMeasures
  split <;> simp

@[simp] theorem exchangeKeys_unread (s : State) (slot : Byte) (exchange : List Byte) :
    (s.exchangeKeys slot exchange).unread = s.unread := by
  unfold State.exchangeKeys
  dsimp only
  repeat' split
  all_goals simp

@[simp] theorem noSession_unread (s : State) (id : W32) : (s.noSession id).unread = s.unread := rfl

@[simp] theorem recoveryWrite_unread (s : State) (off : W32) (data : List Byte) :
    (s.recoveryWrite off data).unread = s.unread := by simp [State.recoveryWrite]

@[simp] theorem ramp_unread (s : State) : s.ramp.unread = s.unread := by simp [State.ramp]

@[simp] theorem sincePower_unread (s old : State) : (s.sincePower old).unread = s.unread := rfl

@[simp] theorem startBoot_unread (s : State) : s.startBoot.unread = s.unread := rfl

@[simp] theorem domainsOn_unread (s : State) (ds : List Nat) : (s.domainsOn ds).unread = s.unread := rfl

@[simp] theorem nextPhase_unread (s : State) : s.nextPhase.unread = s.unread := rfl

@[simp] theorem failPhase_unread (s : State) (die : BitVec 4) : (s.failPhase die).unread = s.unread := rfl

@[simp] theorem bootPhase_unread (s : State) : s.bootPhase.unread = s.unread := by simp [State.bootPhase]

@[simp] theorem msdPhase_unread (s : State) : s.msdPhase.unread = s.unread := by
  unfold State.msdPhase
  exact foldl_unread (fun t x => by simp) _ _

@[simp] theorem trainPhase_unread (s : State) (tries : BitVec 2) : (s.trainPhase tries).unread = s.unread := by
  unfold State.trainPhase
  exact foldl_unread (fun t x => by simp) _ _

@[simp] theorem calPhase_unread (s : State) (margins : List Byte) : (s.calPhase margins).unread = s.unread := by
  unfold State.calPhase
  refine (nextPhase_unread _).trans ((foldl_unread (fun t r => ?_) _ _).trans
    ((State.unread_mk ..).trans (domainsOn_unread s _)))
  exact ite_keeps (calibrated_unread t r _) rfl

@[simp] theorem sparePhase_unread (s : State) : s.sparePhase.unread = s.unread := by
  unfold State.sparePhase
  refine (advanceFloor_unread _).trans ((State.unread_mk ..).trans ((nextPhase_unread _).trans ?_))
  exact foldl_unread (fun t c => modChan_unread t c _) _ s

@[simp] theorem regulatorPhase_unread (s : State) : s.regulatorPhase.unread = s.unread := by
  simp [State.regulatorPhase]

@[simp] theorem sidebandWrite_unread (s : State) (off : W32) (data : List Byte) :
    (s.sidebandWrite off data).unread = s.unread := by simp [State.sidebandWrite]

@[simp] theorem modEv_unread (s : State) (e : Nat) (f : Ev → Ev) : (s.modEv e f).unread = s.unread := by
  simp [State.modEv]

@[simp] theorem deliverEvents_unread (s : State) : s.deliverEvents.unread = s.unread := rfl

@[simp] theorem manage_unread (s : State) (e : Nat) : (s.manage e).unread = s.unread := by
  unfold State.manage
  dsimp only
  split <;> simp

@[simp] theorem occur_unread (s : State) : s.occur.unread = s.unread := by
  unfold State.occur
  split <;> simp

@[simp] theorem expireEvent_unread (s : State) (e : Nat) : (s.expireEvent e).unread = s.unread := by
  simp [State.expireEvent]

@[simp] theorem claim_unread (s : State) (v : Nat) : (s.claim v).1.unread = s.unread := by
  unfold State.claim
  split <;> simp

@[simp] theorem evWord_unread (s : State) (k : Nat) (w : W32) (f : Bool → Ev → Ev) :
    (s.evWord k w f).unread = s.unread :=
  (deliverEvents_unread _).trans (foldl_unread (fun t j => modEv_unread t _ _) _ s)

@[simp] theorem writeCfg_unread (s : State) (e : Nat) (put : Bool) (w : W64) :
    (s.writeCfg e put w).unread = s.unread := by simp [State.writeCfg]

@[simp] theorem configEvent_unread (s : State) (e : Nat) (w : W64) : (s.configEvent e w).unread = s.unread := by
  simp [State.configEvent]

@[simp] theorem mgmtClaim_unread (s : State) (e : Nat) : (s.mgmtClaim e).unread = s.unread := rfl

@[simp] theorem wake_unread (s : State) (n : Nat) : (s.wake n).unread = s.unread := by
  unfold State.wake
  dsimp only
  repeat' split
  all_goals simp

end Sys2Proof.Machine
end

section
/-! PROOFS. The count of unconsumed records: commands, pairs, peers, register accesses and the parts of a cycle leave it
as it is. -/
namespace Sys2Proof.Machine

theorem onCmd_unread (s : State) (op : Nat) (seq : W64) {f : State → Cmd → State}
    (hf : ∀ s c, (f s c).unread = s.unread) : (s.onCmd op seq f).unread = s.unread := by
  unfold State.onCmd
  split
  · split
    · exact hf ..
    · rfl
  · rfl

@[simp] theorem finish_unread (s : State) (c : Cmd) (status reason : Nat) (result : BitVec 192) :
    (s.finish c status reason result).unread = s.unread := rfl

@[simp] theorem done_unread (s : State) (c : Cmd) (result : BitVec 192) : (s.done c result).unread = s.unread := rfl

@[simp] theorem abort_unread (s : State) (c : Cmd) (reason : Nat) : (s.abort c reason).unread = s.unread := rfl

@[simp] theorem keepCmd_unread (s : State) (c : Cmd) : (s.keepCmd c).unread = s.unread := rfl

@[simp] theorem watch_unread (s : State) (off : Nat) (reqId : W16) : (s.watch off reqId).unread = s.unread := by
  simp [State.watch]

@[simp] theorem hostWriteLine_unread (s : State) (off : Nat) (data : BitVec 512) (enables : W64) (reqId : W16)
    (poison : Bool) :
    (s.hostWriteLine off data enables reqId poison).unread = s.unread := by simp [State.hostWriteLine]

@[simp] theorem accept_unread (s : State) (x : BitVec 2048) : (s.accept x).unread = s.unread := by simp [State.accept]

@[simp] theorem badCrc_unread (s : State) (x : BitVec 2048) : (s.badCrc x).unread = s.unread := by
  unfold State.badCrc
  extract_lets crc tick seq _ s1 _ s2
  have h1 : s1.unread = s.unread := State.unread_mk ..
  clear_value s1
  exact ite_keeps h1 ((reply_unread s2 _).trans ((journal_unread _ _).trans ((State.unread_mk ..).trans h1)))

@[simp] theorem examineSlot_unread (s : State) : s.examineSlot.unread = s.unread := by
  unfold State.examineSlot
  split
  · rfl
  · extract_lets x s1
    have h1 : s1.unread = s.unread := checkHdm_unread s _
    clear_value s1
    split
    · exact h1
    · split
      · exact (accept_unread s1 x).trans h1
      · exact (badCrc_unread s1 x).trans h1

@[simp] theorem pollStop_unread (s : State) (c : Cmd) : (s.pollStop c).unread = s.unread := by simp [State.pollStop]

@[simp] theorem pollStopAfter_unread (s : State) (c : Cmd) : (s.pollStopAfter c).unread = s.unread := by
  simp [State.pollStopAfter]

@[simp] theorem pollReset_unread (s : State) (c : Cmd) : (s.pollReset c).unread = s.unread := by
  simp [State.pollReset]

@[simp] theorem pollCmd_unread (s : State) (c : Cmd) : (s.pollCmd c).unread = s.unread := by simp [State.pollCmd]

@[simp] theorem answerCmd_unread (s : State) (c : Cmd) : (s.answerCmd c).unread = s.unread := by
  unfold State.answerCmd
  extract_lets tick s1 _ s2
  have h1 : s1.unread = s.unread := journal_unread s _
  have h2 : s2.unread = s1.unread := State.unread_mk ..
  exact (reply_unread s2 _).trans (h2.trans h1)

@[simp] theorem completeCmd_unread (s : State) (seq : W64) : (s.completeCmd seq).unread = s.unread := by
  unfold State.completeCmd
  split
  · rfl
  · extract_lets s1
    have h1 : s1.unread = s.unread := pollCmd_unread ..
    split
    · split
      · rw [answerCmd_unread, h1]
      · exact h1
    · exact h1

@[simp] theorem writeRingCtl_unread (s : State) (w : W32) : (s.writeRingCtl w).unread = s.unread := by
  unfold State.writeRingCtl
  refine ite_keeps ?_ (State.unread_mk ..)
  exact (pumpReplies_unread _ _).trans ((ringHeader_unread _).trans ((State.unread_mk ..).trans (State.unread_mk ..)))

@[simp] theorem writeReplyCons_unread (s : State) (w : W64) : (s.writeReplyCons w).unread = s.unread :=
  ite_keeps ((pumpReplies_unread _ _).trans (State.unread_mk ..)) rfl

@[simp] theorem hostDma_unread (s : State) (a : Nat) (bs : List Byte) : (s.hostDma a bs).1.unread = s.unread := rfl

@[simp] theorem deliverBuf_unread (s : State) (c : Cmd) (a : Nat) (bs : List Byte) (result : BitVec 192) :
    (s.deliverBuf c a bs result).unread = s.unread := by
  have hdma := hostDma_unread s a bs
  unfold State.deliverBuf
  split <;> rename_i heq <;> rw [heq] at hdma <;> exact hdma

@[simp] theorem identifyRow_unread (s : State) (c : Cmd) : (identifyRow s c).unread = s.unread := deliverBuf_unread ..

@[simp] theorem featuresRow_unread (s : State) (c : Cmd) : (featuresRow s c).unread = s.unread := deliverBuf_unread ..

@[simp] theorem attestRow_unread (s : State) (c : Cmd) : (attestRow s c).unread = s.unread := by
  unfold attestRow
  extract_lets r c1
  split
  · rfl
  · exact deliverBuf_unread ..

@[simp] theorem sealChan_unread (s : State) (c : Chn) : (s.sealChan c).unread = s.unread := by simp [State.sealChan]

@[simp] theorem sealJob_unread (s : State) (c : Cmd) : (s.sealJob c).unread = s.unread := by
  unfold State.sealJob
  extract_lets set_ s1 r j s2 s3
  have h1 : s1.unread = s.unread := foldl_unread sealChan_unread _ _
  have h3 : s3.unread = s2.unread := foldl_unread (fun t d => modChan_unread ..) _ _
  rw [deliverBuf_unread, h3]
  exact h1

@[simp] theorem sealRow_unread (s : State) (c : Cmd) : (sealRow s c).unread = s.unread := by
  unfold sealRow
  split
  · rfl
  · split
    · rfl
    · exact sealJob_unread s c

@[simp] theorem eventConfigRow_unread (s : State) (c : Cmd) : (eventConfigRow s c).unread = s.unread := by
  simp [eventConfigRow]

theorem sendItems_unread (s : State) (buf : Nat) (l : List DumpItem) : (s.sendItems buf l).unread = s.unread := by
  unfold State.sendItems
  refine List.foldlRecOn (motive := fun acc : State × Nat => acc.1.unread = s.unread) _ _ rfl fun acc hacc x _ => ?_
  cases x with
  | plain b => exact hacc
  | word w =>
    dsimp only
    split
    · exact (fault_unread _ _).trans ((countIod_unread _ _ _).trans hacc)
    · exact (countIod_unread _ _ _).trans hacc

@[simp] theorem dumpRow_unread (s : State) (c : Cmd) : (dumpRow s c).unread = s.unread := by
  unfold dumpRow
  exact ite_keeps rfl ((sendItems_unread _ _ _).trans (deliverBuf_unread s _ _ _ _))

@[simp] theorem freeMargin_unread (s : State) : s.freeMargin.1.unread = s.unread := rfl

@[simp] theorem powerChan_unread (s : State) (c : Chn) : (s.powerChan c).unread = s.unread := by
  unfold State.powerChan
  split
  · rfl
  · extract_lets s1 _ s2 s3
    have h3 : s3.unread = s2.unread := by
      unfold s3
      split
      · exact domainsOn_unread s2 _
      · rfl
    have h2 : s2.unread = s.unread := domainsOn_unread s (chanDomains c)
    clear_value s3 s2
    refine (foldl_unread (fun t i => ?_) _ s3).trans (h3.trans h2)
    exact (calibrated_unread _ _ _).trans (freeMargin_unread t)

@[simp] theorem dropImage_unread (s : State) : s.dropImage.unread = s.unread := by
  unfold State.dropImage
  refine (dropSaves_unread _).trans ((foldl_unread (fun t c => modChan_unread t c _) _ _).trans ?_)
  exact State.unread_mk ..

@[simp] theorem copyImage_unread (s : State) (off len : Nat) : (s.copyImage off len).unread = s.unread := by
  simp [State.copyImage]

@[simp] theorem loadImage_unread (s : State) (i : Image) (off len : Nat) (meas : BitVec 512) :
    (s.loadImage i off len meas).unread = s.unread := by
  unfold State.loadImage
  refine (bindVariant_unread _ 0).trans ((State.unread_mk ..).trans ((foldl_unread powerChan_unread _ _).trans ?_))
  exact (dropImage_unread _).trans (copyImage_unread s off len)

@[simp] theorem summarize_unread (s : State) (i : Image) : (s.summarize i).unread = s.unread := rfl

@[simp] theorem loadImageRow_unread (i : Image) (s : State) (c : Cmd) : (loadImageRow i s c).unread = s.unread := by
  unfold loadImageRow
  extract_lets len c1 meas s1
  have h1 : s1.unread = s.unread := summarize_unread s i
  clear_value s1
  refine ite_keeps rfl (ite_keeps rfl ?_)
  cases s1.verify i len with
  | some v => exact (finish_unread s1 _ _ _ _).trans h1
  | none => exact (done_unread _ _ _).trans ((loadImage_unread s1 i _ _ _).trans h1)

@[simp] theorem verifyImageRow_unread (i : Image) (s : State) (c : Cmd) :
    (verifyImageRow i s c).unread = s.unread := by
  unfold verifyImageRow
  dsimp only
  repeat' split
  all_goals simp

@[simp] theorem bindRow_unread (s : State) (c : Cmd) : (bindRow s c).unread = s.unread := by
  unfold bindRow
  split
  · extract_lets s1 s2 _ _ _ s3
    have h2 : s2.unread = s1.unread := foldl_unread (fun t d => modChan_unread t d _) _ s1
    have h3 : s3.unread = s2.unread := State.unread_mk ..
    exact ite_keeps rfl ((done_unread s3 c _).trans (h3.trans (h2.trans (bindVariant_unread s _))))
  · rfl

@[simp] theorem beginJob_unread (s : State) (key : BitVec 256) (start : W64) :
    (s.beginJob key start).unread = s.unread := by
  unfold State.beginJob
  exact foldl_unread (fun t x => by simp) _ _

@[simp] theorem startChan_unread (s : State) (mark : Option W64) (d : Chn) :
    (s.startChan mark d).unread = s.unread := by
  simp [State.startChan]

@[simp] theorem startRow_unread (s : State) (c : Cmd) : (startRow s c).unread = s.unread := by
  unfold startRow
  extract_lets l key s1
  have h1 : s1.unread = s.unread := ite_keeps rfl (beginJob_unread s key _)
  exact ite_keeps rfl (ite_keeps rfl (ite_keeps rfl (ite_keeps rfl
    ((foldl_unread (fun t d => startChan_unread t _ d) _ s1).trans h1))))

@[simp] theorem askStop_unread (s : State) (d : Chn) : (s.askStop d).unread = s.unread := by simp [State.askStop]

@[simp] theorem stopRow_unread (s : State) (c : Cmd) : (stopRow s c).unread = s.unread := by
  unfold stopRow
  extract_lets l
  split
  · split
    · rfl
    · split
      · rename_i h
        exact placeOrder_unread h
      · rfl
  · split
    · rfl
    · split
      · rfl
      · split
        · split
          · rename_i h
            rw [keepCmd_unread, storeOrder_unread h]
          · rfl
        · rw [keepCmd_unread, foldl_unread askStop_unread]

@[simp] theorem stopAfterRow_unread (s : State) (c : Cmd) : (stopAfterRow s c).unread = s.unread := by
  unfold stopAfterRow
  extract_lets l seq c1 s1
  have h1 : s1.unread = s.unread := foldl_unread (fun t d => modChan_unread ..) _ _
  split
  · exact h1
  · exact h1

@[simp] theorem saveRow_unread (s : State) (c : Cmd) : (saveRow s c).unread = s.unread := by simp [saveRow]

@[simp] theorem forgetStop_unread (s : State) (d : Chn) : (s.forgetStop d).unread = s.unread := rfl

@[simp] theorem resumeAll_unread (s : State) (slots : Chn → Option Slot) : (s.resumeAll slots).unread = s.unread := by
  unfold State.resumeAll
  refine (restoreAll_unread _ false slots).trans ((foldl_unread (fun t d => closePort_unread t _) _ _).trans
    ((foldl_unread forgetStop_unread _ _).trans ((absorbFlight_unread _).trans ?_)))
  exact foldl_unread cancelAll_unread _ s

@[simp] theorem resumeRow_unread (s : State) (c : Cmd) : (resumeRow s c).unread = s.unread := by
  unfold resumeRow
  refine ite_keeps rfl ?_
  cases s.canRestore false with
  | none => rfl
  | some n => exact (resumeAll_unread _ _).trans (keepCmd_unread s _)

@[simp] theorem resumeStreamRow_unread (s : State) (c : Cmd) : (resumeStreamRow s c).unread = s.unread := by
  unfold resumeStreamRow
  exact (done_unread _ c _).trans (resumeStream_unread s _ _ _)

@[simp] theorem retireRow_unread (s : State) (c : Cmd) : (retireRow s c).unread = s.unread := by
  unfold retireRow
  refine ite_keeps rfl (ite_keeps rfl ?_)
  cases s.canRestore false with
  | none => rfl
  | some n =>
    refine (beginRollback_unread _ _ _ _ _).trans ((foldl_unread (fun t e => modChan_unread t e _) _ _).trans ?_)
    exact keepCmd_unread s c

@[simp] theorem restHere_unread (s : State) : s.restHere.unread = s.unread := by
  unfold State.restHere
  exact foldl_unread (fun t x => by simp) _ _

@[simp] theorem adopt_unread (s : State) (v : Nat) : (s.adopt v).unread = s.unread := by
  unfold State.adopt
  extract_lets slots ws
  exact ite_keeps
    ((restHere_unread _).trans ((resumeAll_unread _ slots).trans (bindVariant_unread s 0)))
    ((restHere_unread _).trans ((putSaveSet_unread _ ws).trans (applyVariant_unread s v slots)))

@[simp] theorem adoptRow_unread (s : State) (c : Cmd) : (adoptRow s c).unread = s.unread := by
  unfold adoptRow
  refine ite_keeps rfl ?_
  cases s.adoptee (c.arg 0) with
  | none => exact ite_keeps ((finish_unread _ _ _ _ _).trans (recoveryFailed_unread s)) rfl
  | some v => exact ite_keeps rfl (ite_keeps rfl ((done_unread _ _ _).trans (adopt_unread s v)))

@[simp] theorem askReset_unread (s : State) (d : Chn) : (s.askReset d).unread = s.unread := by simp [State.askReset]

@[simp] theorem resetRow_unread (s : State) (c : Cmd) : (resetRow s c).unread = s.unread :=
  ite_keeps rfl (ite_keeps rfl (ite_keeps rfl ((keepCmd_unread _ c).trans (foldl_unread askReset_unread _ s))))

@[simp] theorem storePlan_unread (s : State) (c : Cmd) (n : Nat) : (s.storePlan c n).unread = s.unread := by
  refine foldl_unread (fun t i => ?_) _ s
  extract_lets p
  cases h : t.storeOrder otFREQ (t.localMark p.1) p.2 with
  | none => rfl
  | some u => exact storeOrder_unread h

@[simp] theorem placePlan_unread (s : State) (c : Cmd) (n : Nat) : (s.placePlan c n).1.unread = s.unread := by
  unfold State.placePlan
  refine List.foldlRecOn (motive := fun acc : State × Cmd => acc.1.unread = s.unread) _ _ rfl fun acc hacc i _ => ?_
  extract_lets p
  split
  · rename_i h
    exact (placeOrder_unread h).trans hacc
  · exact hacc

@[simp] theorem freqPlanRow_unread (s : State) (c : Cmd) : (freqPlanRow s c).unread = s.unread := by
  unfold freqPlanRow
  exact ite_keeps rfl (ite_keeps (ite_keeps rfl (ite_keeps rfl ((done_unread _ _ _).trans (placePlan_unread s c _))))
    (ite_keeps rfl ((done_unread _ _ _).trans (storePlan_unread s c _))))

@[simp] theorem slackRow_unread (s : State) (c : Cmd) : (slackRow s c).unread = s.unread := by
  unfold slackRow
  extract_lets line ask c1 m
  refine ite_keeps rfl (ite_keeps rfl (ite_keeps ?_ ?_))
  · split
    · rename_i h
      exact (done_unread _ _ _).trans (placeOrder_unread h)
    · rfl
  · split
    · rename_i h
      exact (done_unread _ _ _).trans (storeOrder_unread h)
    · rfl

@[simp] theorem setRole_unread (s : State) (r : BitVec 2) : (s.setRole r).unread = s.unread := by simp [State.setRole]

@[simp] theorem roleRow_unread (s : State) (c : Cmd) : (roleRow s c).unread = s.unread := by
  unfold roleRow
  refine ite_keeps (ite_keeps rfl ?_) (ite_keeps (ite_keeps rfl rfl) ?_)
  · split
    · rename_i h
      exact (keepCmd_unread _ _).trans (placeOrder_unread h)
    · rfl
  · exact (done_unread _ _ _).trans (setRole_unread s _)

@[simp] theorem askTask_unread (s : State) (c : Cmd) (t : SlackTask) : (s.askTask c t).unread = s.unread := by
  simp [State.askTask]

@[simp] theorem substituteRow_unread (s : State) (c : Cmd) : (substituteRow s c).unread = s.unread := by
  simp [substituteRow]

@[simp] theorem calibrateRow_unread (s : State) (c : Cmd) : (calibrateRow s c).unread = s.unread := by
  simp [calibrateRow]

@[simp] theorem retrainRow_unread (s : State) (c : Cmd) : (retrainRow s c).unread = s.unread := by simp [retrainRow]

@[simp] theorem stageRow_unread (s : State) (c : Cmd) : (stageRow s c).unread = s.unread := by simp [stageRow]

@[simp] theorem activateRow_unread (s : State) (c : Cmd) : (activateRow s c).unread = s.unread := by
  simp [activateRow]

@[simp] theorem setMember_unread (s : State) (on : Bool) (ring : W64) : (s.setMember on ring).unread = s.unread := by
  unfold State.setMember
  extract_lets s1
  have h1 : s1.unread = s.unread := foldl_unread (fun t d => modChan_unread t d _) _ s
  exact ite_keeps h1 h1

@[simp] theorem setPair_unread (s : State) (n : Nat) (p : PairSlot) : (s.setPair n p).unread = s.unread := rfl

@[simp] theorem startPair_unread (s : State) (c : Cmd) : (s.startPair c).unread = s.unread := rfl

@[simp] theorem pairModeRow_unread (s : State) (c : Cmd) : (pairModeRow s c).unread = s.unread :=
  ite_keeps (ite_keeps ((done_unread _ c _).trans (startPair_unread s c)) rfl)
    (ite_keeps rfl (ite_keeps ((done_unread _ c _).trans (setMember_unread s _ _)) rfl))

@[simp] theorem consume_unread (s : State) (ring : W64) (c : Chn) : (s.consume ring c).unread = s.unread := rfl

@[simp] theorem haltWorker_unread (s : State) (addr : Byte) : (s.haltWorker addr).unread = s.unread :=
  (placeHalts_unread _).trans (State.unread_mk ..)

@[simp] theorem diverge_unread (s : State) (n : Nat) (p : PairSlot) (c : Chn) (seq : W64) (cause : BitVec 2) :
    (s.diverge n p c seq cause).unread = s.unread := by
  unfold State.diverge
  exact (haltWorker_unread _ _).trans ((haltWorker_unread _ _).trans ((raise_unread _ _).trans (setPair_unread s n _)))

@[simp] theorem compareHeads_unread (s : State) (n : Nat) (c : Chn) (a b : BitVec 512) :
    (s.compareHeads n c a b).unread = s.unread := by
  unfold State.compareHeads
  extract_lets p s1 q cause
  have h1 : s1.unread = s.unread := (consume_unread _ _ c).trans (consume_unread s _ c)
  exact ite_keeps ((setPair_unread s1 n _).trans h1) ((diverge_unread s1 n q c _ _).trans h1)

@[simp] theorem passOver_unread (s : State) (n : Nat) (ring : W64) (c : Chn) :
    (s.passOver n ring c).unread = s.unread := rfl

@[simp] theorem pairStep_unread (s : State) (n : Nat) (c : Chn) : (s.pairStep n c).unread = s.unread := by
  unfold State.pairStep
  extract_lets p last
  refine ite_keeps rfl ?_
  split
  · exact ite_keeps (passOver_unread s n _ c) (ite_keeps (passOver_unread s n _ c) (compareHeads_unread s n c _ _))
  · exact ite_keeps (passOver_unread s n _ c) rfl
  · exact ite_keeps (passOver_unread s n _ c) rfl
  · rfl

@[simp] theorem pairStall_unread (s : State) (n : Nat) : (s.pairStall n).unread = s.unread := by
  simp [State.pairStall]

@[simp] theorem pollRing_unread (s : State) (c : Chn) : (s.pollRing c).unread = s.unread := by simp [State.pollRing]

@[simp] theorem sendPeer_unread (s : State) (n : Nat) : (s.sendPeer n).unread = s.unread := by simp [State.sendPeer]

@[simp] theorem sendPeers_unread (s : State) (mask : W16) : (s.sendPeers mask).unread = s.unread :=
  ite_keeps rfl ((foldl_unread sendPeer_unread _ _).trans (State.unread_mk ..))

@[simp] theorem peerReply_unread (s : State) (reqId : W16) (off : Nat) (data : List Byte) :
    (s.peerReply reqId off data).unread = s.unread := by simp [State.peerReply]

@[simp] theorem configure_unread (s : State) (write : Bool) (off : Nat) (val : W32) :
    (s.configure write off val).unread = s.unread := by simp [State.configure]

@[simp] theorem mailError_unread (s : State) (m : Nat) : (s.mailError m).unread = s.unread := rfl

@[simp] theorem comply_unread (s : State) (request : List Byte) : (s.comply request).unread = s.unread := by
  simp [State.comply]

@[simp] theorem discard_unread (s : State) (m protocol len : Nat) : (s.discard m protocol len).unread = s.unread := by
  simp [State.discard]

@[simp] theorem clearRead_unread (s : State) (a : Nat) (lo hi : Bool) : (s.clearRead a lo hi).unread = s.unread := by
  unfold State.clearRead
  exact ite_keeps (State.unread_mk ..) (ite_keeps (ite_keeps (State.unread_mk ..) rfl)
    (ite_keeps (State.unread_mk ..) (ite_keeps (State.unread_mk ..) (ite_keeps (State.unread_mk ..)
    (ite_keeps (State.unread_mk ..) (ite_keeps (ite_keeps (State.unread_mk ..) rfl)
    (ite_keeps (ite_keeps (State.unread_mk ..) rfl)
    (ite_keeps (modChan_unread s _ _) (ite_keeps (modMsd_unread s _ _) rfl)))))))))

@[simp] theorem readAs_unread (s : State) (v : W64) : (s.readAs v).unread = s.unread := rfl

@[simp] theorem latchHigh_unread (s : State) (a : Nat) (v : W32) : (s.latchHigh a v).unread = s.unread := rfl

@[simp] theorem readHigh_unread (s : State) (r : RegVal) : (s.readHigh r).unread = s.unread := by
  unfold State.readHigh
  split
  · exact (readAs_unread _ _).trans
      (ite_keeps (State.unread_mk ..) ((clearRead_unread _ _ _ _).trans (State.unread_mk ..)))
  · exact (readAs_unread _ _).trans (clearRead_unread s _ _ _)

@[simp] theorem readReg_unread (s : State) (r : RegVal) (a size : Nat) : (s.readReg r a size).unread = s.unread :=
  ite_keeps (answerLine_unread s _ _)
    (ite_keeps
      (ite_keeps ((readAs_unread _ _).trans ((latchHigh_unread _ _ _).trans (clearRead_unread s _ _ _)))
        (readHigh_unread s r))
      ((readAs_unread _ _).trans (clearRead_unread s _ _ _)))

@[simp] theorem readNone_unread (s : State) (size : Nat) : (s.readNone size).unread = s.unread := by
  simp [State.readNone]

@[simp] theorem readClaim_unread (s : State) (a size : Nat) : (s.readClaim a size).unread = s.unread := by
  unfold State.readClaim
  dsimp only
  repeat' split
  all_goals simp

@[simp] theorem readMsix_unread (s : State) (o size : Nat) : (s.readMsix o size).unread = s.unread := by
  simp [State.readMsix]

@[simp] theorem readBar_unread (s : State) (a size : Nat) : (s.readBar a size).unread = s.unread := by
  unfold State.readBar
  refine ite_keeps (readClaim_unread s a size) (ite_keeps (readMsix_unread s _ size) ?_)
  split
  · exact ite_keeps (readReg_unread s _ a size) (readNone_unread s size)
  · exact readNone_unread s size

@[simp] theorem putIod_unread (s : State) (o : Nat) (n h : W64) : (s.putIod o n h).unread = s.unread := by
  simp [State.putIod]

@[simp] theorem putPeer_unread (s : State) (o : Nat) (n : W64) : (s.putPeer o n).unread = s.unread := rfl

@[simp] theorem putCxl_unread (s : State) (o : Nat) (n h m : W64) : (s.putCxl o n h m).unread = s.unread :=
  ite_keeps (State.unread_mk ..) (ite_keeps (ite_keeps (beginQuiesce_unread s) rfl)
    (ite_keeps (State.unread_mk ..) (ite_keeps (State.unread_mk ..) (ite_keeps (putPeer_unread s o n)
    (ite_keeps (ite_keeps (sendPeers_unread s _) rfl) rfl)))))

@[simp] theorem putPacket_unread (s : State) (j size : Nat) (v : W64) : (s.putPacket j size v).unread = s.unread := by
  simp [State.putPacket]

@[simp] theorem putCmdw_unread (s : State) (o : Nat) (n : W64) : (s.putCmdw o n).unread = s.unread :=
  ite_keeps (ite_keeps rfl (State.unread_mk ..)) (ite_keeps (writeRingCtl_unread s _)
    (ite_keeps (writeReplyCons_unread s n) (ite_keeps (State.unread_mk ..) rfl)))

@[simp] theorem putJournal_unread (s : State) (o : Nat) (n : W64) : (s.putJournal o n).unread = s.unread := by
  simp [State.putJournal]

@[simp] theorem putTide_unread (s : State) (o : Nat) (n h : W64) : (s.putTide o n h).unread = s.unread := by
  simp [State.putTide]

@[simp] theorem putEvc_unread (s : State) (o : Nat) (n h m : W64) : (s.putEvc o n h m).unread = s.unread := by
  unfold State.putEvc
  simp only [ite_unread, evWord_unread, writeCfg_unread, ite_self]

@[simp] theorem putPwr_unread (s : State) (o : Nat) (n h : W64) : (s.putPwr o n h).unread = s.unread := by
  simp [State.putPwr]

@[simp] theorem putClk_unread (s : State) (o : Nat) (n : W64) : (s.putClk o n).unread = s.unread := by
  simp [State.putClk]

@[simp] theorem putCh_unread (s : State) (c : Chn) (o : Nat) (n h : W64) : (s.putCh c o n h).unread = s.unread := by
  simp [State.putCh]

@[simp] theorem putMsd_unread (s : State) (d o : Nat) (n h : W64) : (s.putMsd d o n h).unread = s.unread := by
  simp [State.putMsd]

@[simp] theorem putMsix_unread (s : State) (o size : Nat) (v : W64) : (s.putMsix o size v).unread = s.unread := by
  simp [State.putMsix]

@[simp] theorem putEntry_unread (s : State) (o size : Nat) (v : W64) : (s.putEntry o size v).unread = s.unread := by
  simp [State.putEntry]

end Sys2Proof.Machine
end

section
/-! PROOFS. O29: the functions that log faults, consume records or clear the registers keep the log within its ring
(R236, R357, R358). -/
namespace Sys2Proof.Machine

/-- At most 4,096 records of the fault log are unconsumed: as many as its ring holds (R357). -/
def State.logFits (s : State) : Prop := s.unread.toNat ≤ 4096

theorem logFits_of_unread {s t : State} (hs : s.logFits) (h : t.unread = s.unread) : t.logFits := by
  rw [State.logFits, h]
  exact hs

theorem logFits_ite {p : Prop} [Decidable p] {s t : State} (hs : s.logFits) (ht : t.logFits) :
    (if p then s else t).logFits := by
  split
  · exact hs
  · exact ht

theorem logFits_foldl {α : Type} {f : State → α → State} (hf : ∀ s x, s.logFits → (f s x).logFits) (l : List α)
    {s : State} (hs : s.logFits) : (l.foldl f s).logFits :=
  List.foldlRecOn (motive := State.logFits) l f hs fun t ht x _ => hf t x ht

/-- A full log loses the record; one that is not full has room for it (R236, R358). -/
theorem logRecord_logFits {s : State} (hs : s.logFits) (x : BitVec 512) : (s.logRecord x).1.logFits := by
  unfold State.logRecord
  dsimp only
  split
  · exact logFits_of_unread hs rfl
  · rename_i hroom
    have hunread : s.unread ≠ 4096#64 := hroom
    have hnext : s.flt.prod + 1 - s.flt.cons = s.unread + 1 := by
      rw [State.unread, FltRegs.unread]
      ring
    have hle : s.unread.toNat ≤ 4096 := hs
    change (s.flt.prod + 1 - s.flt.cons).toNat ≤ 4096
    rw [hnext]
    bv_omega

theorem recordFault_logFits {s : State} (hs : s.logFits) (r : FaultRec) : (s.recordFault r).logFits := by
  unfold State.recordFault
  refine logFits_ite (logRecord_logFits hs _) ?_
  extract_lets c seq s1 slot ring p
  have h1 : s1.logFits := logFits_of_unread hs (modChan_unread s c _)
  split
  · exact logFits_ite (logFits_of_unread h1 (State.unread_mk ..)) (logFits_of_unread h1 (modChan_unread s1 c _))
  · exact logFits_of_unread (logRecord_logFits h1 _) (modChan_unread _ c _)

theorem flushFaults_logFits {s : State} (hs : s.logFits) : s.flushFaults.logFits :=
  logFits_ite hs (logFits_foldl (fun _ r ht => recordFault_logFits ht r) _ (logFits_of_unread hs rfl))

theorem settle_logFits {s : State} (hs : s.logFits) : s.settle.logFits := by
  unfold State.settle
  refine logFits_of_unread (flushFaults_logFits (logFits_of_unread hs ?_)) (quiesceMove_unread _)
  exact (dueChOff_unread _).trans ((endSpan_unread _).trans ((slackMove_unread _).trans ((arriveRail_unread _).trans
    ((applyDue_unread _).trans ((releaseHold_unread _).trans ((lose_unread _).trans (takeFrame_unread s)))))))

theorem advanceSettled_logFits {s : State} (hs : s.logFits) (slot : Option TickSlot) :
    (s.settle.advance.afterBoundary slot).logFits :=
  logFits_of_unread (settle_logFits hs) ((afterBoundary_unread _ slot).trans (advance_unread _))

theorem jointMismatch_logFits {s : State} (hs : s.logFits) (leader c : Chn) (want got : Nat) :
    (s.jointMismatch leader c want got).logFits := by
  unfold State.jointMismatch
  refine logFits_of_unread (flushFaults_logFits (logFits_of_unread hs ?_))
    ((holdChan_unread _ c).trans (holdChan_unread _ leader))
  exact (fault_unread _ _).trans (fault_unread s _)

theorem checkPass_logFits {s : State} (hs : s.logFits) (c : Chn) : (s.checkPass c).logFits := by
  unfold State.checkPass
  extract_lets s1 g s2
  have h1 : s1.logFits := flushFaults_logFits hs
  have h2 : s2.logFits := logFits_of_unread h1 (holdChan_unread s1 c)
  clear_value s1
  refine logFits_ite (logFits_ite (logFits_of_unread h2 (resetChan_unread s2 c)) h2)
    (logFits_ite ?_ (logFits_ite ?_ ?_))
  · exact logFits_of_unread h1 ((resetChan_unread _ c).trans (stopChan_unread s1 c 3))
  · exact logFits_of_unread h1 (ite_keeps (stepSlack_unread s1 c) rfl)
  · split
    · exact h1
    · refine logFits_ite h1 ?_
      split
      · exact logFits_ite (jointMismatch_logFits h1 c _ _ _) h1
      · refine logFits_of_unread h1 (ite_keeps (ite_keeps ?_ ?_) rfl)
        · exact foldl_unread (fun t d => modGate_unread t d _) _ s1
        · exact foldl_unread lateStopChan_unread _ s1

theorem reportReady_logFits {s : State} (hs : s.logFits) (c : Chn) : (s.reportReady c).logFits := by
  unfold State.reportReady
  split
  · exact hs
  · extract_lets l s1
    have h1 : s1.logFits := logFits_of_unread hs (modGate_unread s c _)
    clear_value s1
    refine logFits_ite ?_ hs
    split
    · exact logFits_ite (jointMismatch_logFits h1 l c _ _) h1
    · exact h1

theorem releaseBlock_logFits {s : State} (hs : s.logFits) (c : Chn) : (s.releaseBlock c).logFits := by
  unfold State.releaseBlock
  split
  · exact logFits_ite (logFits_of_unread (flushFaults_logFits hs) (foldl_unread releaseChan_unread _ _)) hs
  · exact hs

theorem gateRefused_logFits {s : State} (hs : s.logFits) (c : Chn) : (s.gateRefused c).logFits :=
  logFits_ite (logFits_of_unread (flushFaults_logFits hs) (holdChan_unread _ c)) (flushFaults_logFits hs)

theorem gateRow_logFits {s : State} (hs : s.logFits) (c : Chn) (w : W32) : (gateRow s c w).logFits := by
  unfold gateRow
  extract_lets idx pc miss s1 s2 s3 s4 s5 s6
  have h1 : s1.unread = s.unread := foldl_unread (fun t e => coreFault_unread t c _ _ _ _ _) _ s
  have h2 : s2.logFits := logFits_of_unread hs ((modGate_unread s1 c _).trans h1)
  have h5 : s5.logFits := logFits_of_unread h2
    ((loadNext_unread s4 c).trans ((modGate_unread s3 c _).trans (coreNext_unread s2 c _)))
  have h6 : s6.logFits := flushFaults_logFits h5
  refine logFits_ite hs ?_
  split
  · refine gateRefused_logFits (logFits_of_unread h2 ?_) c
    exact (coreResult_unread _ c w _).trans (coreFault_unread s2 c _ _ _ _ _)
  · exact logFits_ite h5 (logFits_ite (logFits_of_unread h6 (holdChan_unread s6 c)) h6)

theorem closeGate_logFits {s : State} (hs : s.logFits) (c : Chn) : (s.closeGate c).logFits := by
  unfold State.closeGate
  extract_lets s1
  have h1 : s1.logFits := flushFaults_logFits hs
  clear_value s1
  split
  · exact h1
  · extract_lets set_ s2 bad replay s3
    have h2 : s2.logFits := flushFaults_logFits
      (logFits_of_unread h1 (foldl_unread (fun t d => closeChecks_unread t d _) _ s1))
    have h3 : s3.logFits := logFits_of_unread h2 (foldl_unread (fun t d => modChan_unread t d _) _ s2)
    refine logFits_ite (logFits_ite ?_ (logFits_ite ?_ ?_)) h1
    · exact logFits_of_unread h3 (foldl_unread replayChan_unread _ s3)
    · refine logFits_of_unread h3 (foldl_unread (fun t d => ?_) _ s3)
      exact ite_keeps ((resetChan_unread _ d).trans (holdChan_unread t d)) (holdChan_unread t d)
    · exact logFits_of_unread h3 (foldl_unread (fun t d => passChan_unread t d _) _ s3)

theorem decide_logFits {s : State} (hs : s.logFits) (c : Chn) : (s.decide_ c).logFits := by
  unfold State.decide_
  extract_lets s1 faults again _ newest
  have h1 : s1.logFits := flushFaults_logFits hs
  clear_value s1
  refine logFits_of_unread h1 (ite_keeps rfl (ite_keeps ?_ (ite_keeps ?_ (reproduced_unread s1))))
  · exact ite_keeps (ordinaryRollback_unread s1 c _) (waitDriver_unread s1)
  · split
    · exact ite_keeps (waitDriver_unread s1) ((beginRollback_unread _ _ _ _ _).trans (State.unread_mk ..))
    · exact reproduced_unread s1

theorem tryRestore_logFits {s : State} (hs : s.logFits) (older : Bool) : (s.tryRestore older).1.logFits :=
  flushFaults_logFits (logFits_of_unread hs (foldl_unread (fun t c => readHeader_unread t older c) _ s))

theorem rollBack_logFits {s : State} (hs : s.logFits) (older : Bool) (retire : Option Chn) :
    (s.rollBack older retire).logFits := by
  unfold State.rollBack
  extract_lets s1 s2 s3 x s4 s5
  have h5 : s5.logFits := by
    refine logFits_of_unread hs ((foldl_unread (fun t c => closePort_unread t _) _ s4).trans
      ((rollSubs_unread s3).trans ((absorbFlight_unread s2).trans ((foldl_unread cancelAll_unread _ s1).trans ?_))))
    exact (foldl_unread noteStop_unread _ _).trans (failSave_unread s)
  clear_value s5
  split
  · exact logFits_of_unread h5 ((retire_unread _ _).trans (ite_keeps (ownRetire_unread s5 _) rfl))
  · have htry := tryRestore_logFits h5 older
    split <;> rename_i heq <;> rw [heq] at htry
    · exact logFits_of_unread htry (rollTo_unread _ older _)
    · refine logFits_ite (logFits_of_unread htry (recoveryFailed_unread _)) ?_
      have hagain := tryRestore_logFits htry true
      split <;> rename_i heq' <;> rw [heq'] at hagain
      · exact logFits_of_unread hagain (rollTo_unread _ true _)
      · exact logFits_of_unread hagain (recoveryFailed_unread _)

theorem runRollback_logFits {s : State} (hs : s.logFits) : s.runRollback.logFits := by
  unfold State.runRollback
  split
  · exact hs
  · exact logFits_ite (rollBack_logFits (flushFaults_logFits hs) _ _) (flushFaults_logFits hs)

/-- FLT_CONS moves only between its value and FLT_PROD, so that fewer records are left (R357). -/
theorem writeFltCons_logFits {s : State} (hs : s.logFits) (w : W64) : (s.writeFltCons w).logFits := by
  unfold State.writeFltCons
  split
  · rename_i h
    simp only [Bool.and_eq_true, decide_eq_true_eq] at h
    obtain ⟨hlow, hhigh⟩ := h
    have hle : (s.flt.prod - s.flt.cons).toNat ≤ 4096 := hs
    change (s.flt.prod - w).toNat ≤ 4096
    bv_omega
  · exact hs

theorem clearFaultsRow_logFits (s : State) (c : Cmd) : (clearFaultsRow s c).logFits := by
  unfold clearFaultsRow
  extract_lets _ s1
  have h1 : s1.logFits := by
    change (s.flt.prod - s.flt.prod).toNat ≤ 4096
    simp
  exact logFits_of_unread h1 (done_unread s1 c _)

theorem putFlt_logFits {s : State} (hs : s.logFits) (o : Nat) (n h : W64) : (s.putFlt o n h).logFits :=
  logFits_ite (writeFltCons_logFits hs n) (logFits_of_unread hs
    (ite_keeps (State.unread_mk ..) (ite_keeps (State.unread_mk ..) (ite_keeps (State.unread_mk ..)
    (ite_keeps (State.unread_mk ..) (ite_keeps (State.unread_mk ..) (ite_keeps (State.unread_mk ..) rfl)))))))

theorem putReg_logFits {s : State} (hs : s.logFits) (a : Nat) (n h m : W64) : (s.putReg a n h m).logFits :=
  have keep {t : State} (ht : t.unread = s.unread) : t.logFits := logFits_of_unread hs ht
  logFits_ite (keep (putIod_unread ..)) (logFits_ite (keep (putCxl_unread ..)) (logFits_ite (keep (putCmdw_unread ..))
    (logFits_ite (keep (putJournal_unread ..)) (logFits_ite (keep (putTide_unread ..))
    (logFits_ite (keep (putEvc_unread ..)) (logFits_ite (keep (ite_keeps (State.unread_mk ..) rfl))
    (logFits_ite hs (logFits_ite (keep (putPwr_unread ..)) (logFits_ite (keep (putClk_unread ..))
    (logFits_ite (putFlt_logFits hs _ n h) (logFits_ite (keep (putCh_unread ..))
    (logFits_ite (keep (putMsd_unread ..)) hs))))))))))))

theorem writeReg_logFits {s : State} (hs : s.logFits) (r : RegVal) (a size : Nat) (v : W64) :
    (s.writeReg r a size v).logFits :=
  logFits_ite (logFits_of_unread hs (putPacket_unread s _ size v)) (logFits_ite (putReg_logFits hs _ _ _ _) hs)

theorem writeBar_logFits {s : State} (hs : s.logFits) (a size : Nat) (v : W64) : (s.writeBar a size v).logFits := by
  unfold State.writeBar
  refine logFits_ite hs (logFits_ite (logFits_of_unread hs (ite_keeps (putMsix_unread s _ size v) rfl))
    (logFits_ite (logFits_of_unread hs (ite_keeps (putEntry_unread s _ size v) rfl)) ?_))
  split
  · exact logFits_ite (writeReg_logFits hs _ a size v) hs
  · exact hs

theorem lost_logFits (s : State) : s.lost.logFits := by
  change (0#64 - 0#64).toNat ≤ 4096
  decide

theorem powerDown_logFits (s : State) : s.powerDown.logFits := logFits_of_unread (lost_logFits s) (State.unread_mk ..)

theorem mgmtPhase_logFits (s : State) : s.mgmtPhase.logFits := by
  unfold State.mgmtPhase
  extract_lets _ _ _ _ s1
  have h1 : s1.logFits := by
    change (0#64 - 0#64).toNat ≤ 4096
    decide
  exact logFits_of_unread h1 ((nextPhase_unread _).trans (foldl_unread openPort_unread _ s1))

theorem endPhase_logFits {s : State} (hs : s.logFits) (env : BringupEnv) : (s.endPhase env).logFits :=
  logFits_ite (logFits_of_unread hs (regulatorPhase_unread s)) (logFits_ite (logFits_of_unread hs (bootPhase_unread s))
    (logFits_ite (mgmtPhase_logFits s) (logFits_of_unread hs (ite_keeps (msdPhase_unread s)
    (ite_keeps (trainPhase_unread s _) (ite_keeps (calPhase_unread s _) (ite_keeps (sparePhase_unread s) rfl)))))))

theorem cycleStart_logFits {s : State} (hs : s.logFits) (c : Chn) : (s.cycleStart c).logFits := by
  unfold State.cycleStart
  refine logFits_of_unread (releaseBlock_logFits (logFits_of_unread hs ?_) c)
    ((foldl_unread endIdle_unread _ _).trans (modChan_unread _ c _))
  exact (endBlock_unread _ c).trans (endReset_unread s c)

theorem cycle_logFits {s : State} (hs : s.logFits) : s.cycle.logFits := by
  unfold State.cycle
  extract_lets cs s1 s2 s3 s4
  have h1 : s1.logFits := logFits_foldl (fun _ c ht => cycleStart_logFits ht c) _ hs
  have h3 : s3.unread = s1.unread := (cycleSync_unread _).trans
    ((foldl_unread cycleEdges_unread _ s2).trans (foldl_unread cycleCells_unread _ s1))
  have h4 : s4.logFits := flushFaults_logFits (logFits_of_unread h1 ((foldl_unread cycleEnd_unread _ s3).trans h3))
  exact logFits_of_unread h4 (State.unread_mk ..)

end Sys2Proof.Machine
end

section
/-! PROOFS. O29: every row keeps the log within its ring, and the statement. -/
namespace Sys2Proof.Machine

/-- Every state that the row leads to from one whose fault log fits its ring fits it too. -/
def KeepsLog (row : State → Host.Outcome State Fault Refusal) : Prop :=
  ∀ s t, s.logFits → row s = .next t → t.logFits

theorem keepsLog_next {f : State → State} (hf : ∀ s, s.logFits → (f s).logFits) : KeepsLog fun s => .next (f s) := by
  intro s t hs h
  cases h
  exact hf s hs

theorem keepsLog_next_of_unread {f : State → State} (hf : ∀ s, (f s).unread = s.unread) :
    KeepsLog fun s => .next (f s) := keepsLog_next fun s hs => logFits_of_unread hs (hf s)

theorem keepsLog_onChan {c : Chn} {f : State → State} (hf : ∀ s, s.logFits → (f s).logFits) :
    KeepsLog fun s => s.onChan c f := keepsLog_next fun _ hs => logFits_ite (hf _ hs) hs

theorem keepsLog_onChan_of_unread {c : Chn} {f : State → State} (hf : ∀ s, (f s).unread = s.unread) :
    KeepsLog fun s => s.onChan c f := keepsLog_onChan fun s hs => logFits_of_unread hs (hf s)

theorem keepsLog_onMsd {n : Fin 8} {f : State → State} (hf : ∀ s, (f s).unread = s.unread) :
    KeepsLog fun s => s.onMsd n f := keepsLog_next fun s hs => logFits_ite (logFits_of_unread hs (hf s)) hs

theorem keepsLog_ctSlot {k : CellId} {op : Nat} {run : CellId → State → Latched → State}
    (hrun : ∀ s l, (run k s l).unread = s.unread) : KeepsLog fun s => s.onChan k.ch fun s => s.ctSlot k op run :=
  keepsLog_onChan_of_unread fun s => runSlot_unread s k _ _ hrun

theorem keepsLog_coreRow {c : Chn} {kind : CoreKind} {run : State → Chn → W32 → State}
    (hrun : ∀ s w, (run s c w).unread = s.unread) : KeepsLog fun s => s.onChan c fun s => s.coreRow c kind run :=
  keepsLog_onChan_of_unread fun s => coreRow_unread s c kind hrun

theorem keepsLog_onCmd {op : Nat} {seq : W64} {f : State → Cmd → State} (hf : ∀ s c, (f s c).unread = s.unread) :
    KeepsLog fun s => .next (s.onCmd op seq f) := keepsLog_next_of_unread fun s => onCmd_unread s op seq hf

theorem coreRow_gate_logFits {s : State} (hs : s.logFits) (c : Chn) : (s.coreRow c .gate gateRow).logFits := by
  rcases coreRow_cases s c .gate gateRow with h | h
  · rw [h]
    exact hs
  · rw [h]
    exact gateRow_logFits (logFits_of_unread hs (countChan_unread s c _ _)) c _

theorem onCmd_clearFaults_logFits {s : State} (hs : s.logFits) (seq : W64) :
    (s.onCmd opCLEAR seq clearFaultsRow).logFits := by
  unfold State.onCmd
  split
  · exact logFits_ite (clearFaultsRow_logFits _ _) hs
  · exact hs

theorem applyMarks_logFits {s : State} (hs : s.logFits) : s.applyMarks.logFits :=
  logFits_of_unread hs (applyMarks_unread s)

theorem sendStall_keepsLog (e : Fin 8) : KeepsLog (execSendStall e) := by
  unfold execSendStall
  split
  · exact keepsLog_onChan_of_unread fun s => by simp
  · exact keepsLog_next_of_unread fun s => by simp

theorem promoteJump_logFits {s : State} (hs : s.logFits) : s.promoteJump.logFits :=
  advanceSettled_logFits hs (s.settle.advance.tideOut.map fun w => ⟨0, w⟩)

theorem deviceReset_keepsLog : KeepsLog execDeviceReset := by
  unfold execDeviceReset
  refine keepsLog_next fun s hs => ?_
  extract_lets t
  have ht : t.logFits := logFits_of_unread (lost_logFits s) (sincePower_unread _ s)
  exact logFits_ite (logFits_of_unread ht (State.unread_mk ..)) (logFits_of_unread hs (State.unread_mk ..))

theorem inputFault_keepsLog (trip : InputTrip) : KeepsLog (execInputFault trip) := by
  unfold execInputFault
  refine keepsLog_next fun s hs => ?_
  extract_lets s1
  have h1 : s1.logFits := logFits_ite (powerDown_logFits s) hs
  cases trip <;> exact logFits_of_unread h1 (State.unread_mk ..)

theorem exec_keepsLog (i : Instr) : KeepsLog (exec i) := by
  cases i with
  | mxnop _ | mxcfg _ | mma _ | close _ | vnop _ | vmov _ | vsel _ | vcvt _ | vand _ | vor _ | vxor _
  | vandn _ | vshl _ | vshr _ | vsar _ | viadd _ | visub _ | vimul _ | vmax _ | vmin _ | vadd _
  | vsub _ | vmul _ | vfma _ | vabs _ | vneg _ | vdiv _ | vsqrt _ | vrcp _ | vrsq _ | vexp2 _
  | vlog2 _ | vcmp _ | vmaskn _ | vmaskb _ | vmlog _ | vlsum _ | vlprod _ | vlmax _ | vlmin _
  | vland _ | vlor _ | vlargmax _ | vlargmin _ | vrsum _ | vrprod _ | vrmax _ | vrmin _ | vrand _
  | vror _ | vrargmax _ | vrargmin _ | vflg _ | lsnop _ | lpush _ | spop _ | lcopy _ | shld _
  | shlds _ | ixset _ | ltide _ | lrand _ | lcyc _ | route _ =>
    exact keepsLog_onChan_of_unread fun s => by simp
  | cnop _ | loop _ | idle _ | bend _ | shsw _ | tchk _ | barr _ | bwait _ | fset _ | fclr _ | frdo _
  | frda _ | sgnl _ | take _ =>
    exact keepsLog_ctSlot fun s l => by simp
  | alu _ | iaddk _ | bandk _ | bork _ | bxork _ | shiftk _ | cltsk _ | cltuk _ | ldk _ | shins _
  | load _ | store _ | branch _ | call _ | jreg _ | ssig _ | swait _ | stake _ | sset _ | srd _
  | msend _ | mrecv _ | mpoll _ | bcast _ | sopen _ | scancel _ | sdepth _ | wkrd _ | wkwr _ | csrr _
  | csrw _ | rdtide _ | rdfwait _ | rdrand _ | rdcyc _ | flgclr _ | evsig _ =>
    exact keepsLog_coreRow fun s w => by simp
  | bundleIssue _ | idleEnd _ | barrierRelease _ _ | edgePlanRun _ _ | blockEnd _ | savePointWrite _
  | gateWaitLong _ | ccoreWaitLong _ | msendComplete _ | mrecvComplete _ | wicketComplete _
  | fetchRequest _ _ | readReturn _ _ _ | drainWrite _ _ | columnSubstitution _ _ | pairCompare _ _
  | clearNext _ | sopenComplete _ | scancelComplete _ | ccoreInstructionFault _ | pairRingPoll _
  | retirementWindowExpiry _ =>
    exact keepsLog_onChan_of_unread fun s => by simp
  | hbmRefresh _ | hbmRetry _ _ _ | patrolScrub _ _ | hbmRetrainTask _ _ | breakwaterEnable _ _
  | breakwaterInvalidate _ =>
    exact keepsLog_onMsd fun s => by simp
  | identify _ | queryFeatures _ | loadImage _ _ | verifyImage _ _ | bindChannels _ | attest _
  | sealReceipt _ | eventConfig _ | dumpState _ | stop _ | stopAfterBlock _ | save _ | resumeStream _
  | retireChannel _ | adoptFallback _ | resetChannel _ | pairMode _ | setFreqPlan _ | scheduleSlack _
  | setTideRole _ | substituteColumn _ | fwStage _ | fwActivate _ | calibrate _ | hbmRetrain _ =>
    exact keepsLog_onCmd fun s c => by simp
  | start seq =>
    exact keepsLog_next_of_unread fun s => (onCmd_unread _ _ seq startRow_unread).trans (applyMarks_unread s)
  | resume seq =>
    exact keepsLog_next_of_unread fun s => (onCmd_unread _ _ seq resumeRow_unread).trans (applyMarks_unread s)
  | getDigests | getCertificate _ _ _ | challenge _ _ | getMeasurements _ _ _ | keyExchange _ _ =>
    exact keepsLog_next_of_unread fun s => onSpdm_unread (by simp)
  | tideFrame | tideLoss | tideHoldRelease | haltAtMark _ | freqStepAtMark _ | slackWindowOpen _
  | handoverAtMark _ | saveComplete | saveDue | counterOpArrive _ | messageDeliver _ _
  | ceWindowExpiry | cxlMemRead _ _ | cxlMemWrite _ _ _ _ _ | commandSlotExamine | commandComplete _
  | phaseCalibration _ _ | mgmtFwSwitch | slackTaskEnd _ | slackSpanEnd | pairStall _
  | eventOccurrence | eventTimeout _ | eventClaim _ _ | evcPendSet _ _ | evcPendClr _ _
  | evcMaskSet _ _ | evcMaskClr _ _ | evcPendWindowWrite _ _ | evcMaskWindowWrite _ _
  | evcCfgWrite _ _ | mgmtWake _ | windowTableWrite _ _ _ | wtabFlush | channelPowerOff _ | quiesce
  | retrainFull | peerSend _ | replyRingEnable _ | replyConsWrite _ | readClear _ _ | latchedLowRead _
  | configRequest _ _ _ | doeCdat _ | doeCompliance _ | doeAbort _ | getVersion | getCapabilities
  | negotiateAlgorithms _ | finish _ _ | endSession _ | sidebandRecoveryWrite _ _ | linkUp _ _
  | linkRecovery | linkLoss | linkDownLimit | pwrEnAssert | bringupFailed _ | noiseHealthFail
  | droopStretch _ | sensorRead _ | ceilingEvaluate _ | clockDrift _ _ | railArrive | perstNDeassert
  | inputReaches46v | bisnpResponse _ _ | peerReplyWrite _ _ _ | doeDiscovery _ _
  | doeObjectDiscarded _ _ _ | tapInstruction _ =>
    exact keepsLog_next_of_unread fun s => by simp
  | sendStall e => exact sendStall_keepsLog e
  | tideTick slot => exact keepsLog_next fun s hs => logFits_ite (advanceSettled_logFits hs slot) hs
  | tidePromoteJump => exact keepsLog_next fun s hs => logFits_ite (promoteJump_logFits hs) hs
  | gateClose c => exact keepsLog_onChan fun s hs => closeGate_logFits (applyMarks_logFits hs) c
  | gateCheckPass c => exact keepsLog_onChan fun s hs => checkPass_logFits (applyMarks_logFits hs) c
  | jointReady c => exact keepsLog_onChan fun s hs => reportReady_logFits (applyMarks_logFits hs) c
  | blockRelease c => exact keepsLog_onChan fun s hs => releaseBlock_logFits hs c
  | gate c => exact keepsLog_onChan fun s hs => coreRow_gate_logFits hs c
  | clearFaults seq => exact keepsLog_next fun s hs => onCmd_clearFaults_logFits hs seq
  | recoveryDecision c => exact keepsLog_onChan fun s hs => decide_logFits hs c
  | rollback => exact keepsLog_next fun s hs => runRollback_logFits (applyMarks_logFits hs)
  | fltConsWrite w => exact keepsLog_next fun s hs => writeFltCons_logFits hs w
  | registerWrite off size val => exact keepsLog_next fun s hs => writeBar_logFits hs off size val
  | surpriseRemoval =>
    exact keepsLog_next fun s hs => logFits_ite (logFits_of_unread (powerDown_logFits s) (State.unread_mk ..)) hs
  | moduleInsert ample =>
    exact keepsLog_next fun s hs => logFits_ite hs (logFits_of_unread (lost_logFits s) (State.unread_mk ..))
  | pwrEnDeassert =>
    exact keepsLog_next fun s hs => logFits_ite (logFits_of_unread (powerDown_logFits s) (State.unread_mk ..)) hs
  | inputFault trip => exact inputFault_keepsLog trip
  | deviceReset => exact deviceReset_keepsLog
  | thermtrip sensor =>
    exact keepsLog_next fun s hs => logFits_ite (logFits_of_unread (powerDown_logFits s) (State.unread_mk ..)) hs
  | bringupPhaseEnd env => exact keepsLog_next fun s hs => endPhase_logFits hs env

theorem step_keepsLog : KeepsLog step := by
  intro s t hs h
  unfold step at h
  split at h
  · exact exec_keepsLog _ _ t (logFits_of_unread hs (State.unread_mk ..)) h
  · cases h
    exact cycle_logFits hs

/-- Settles O29: every row of the model keeps FLT_PROD - FLT_CONS or, where it logs a fault, raises it to 4,096 at
most. -/
theorem faultLogNeverOverfills : Obligations.FaultLogNeverOverfills := step_keepsLog

end Sys2Proof.Machine
end

section
/-! PROOFS. One change to each of several channels. -/
namespace Sys2Proof.Machine

section
variable {f : State → Chn → State} {d : Chn} {l : List Chn}

theorem chan_foldl_of_not_mem (hother : ∀ t e, d ≠ e → (f t e).chan d = t.chan d) (hd : d ∉ l) (s : State) :
    (l.foldl f s).chan d = s.chan d :=
  List.foldlRecOn (motive := fun t => t.chan d = s.chan d) l f rfl fun t ht e he =>
    (hother t e fun h => hd (h ▸ he)).trans ht

/-- Among distinct channels each is changed once, by its own step. -/
theorem chan_foldl_of_mem {g : Chan → Chan} (hother : ∀ t e, d ≠ e → (f t e).chan d = t.chan d)
    (hsame : ∀ t, (f t d).chan d = g (t.chan d)) (hl : l.Nodup) (hd : d ∈ l) (s : State) :
    (l.foldl f s).chan d = g (s.chan d) :=
  foldl_reaches (P := fun t => t.chan d = s.chan d) (Q := fun t => t.chan d = g (s.chan d)) hl hd
    (fun t e he ht => (hother t e he.symm).trans ht) (fun t ht => (hsame t).trans (congrArg g ht))
    (fun t e he ht => (hother t e he.symm).trans ht) rfl

end

theorem chan_foldl_modChan_of_mem {f : Chan → Chan} {l : List Chn} {d : Chn} (hl : l.Nodup) (hd : d ∈ l)
    (s : State) : (l.foldl (fun t e => t.modChan e f) s).chan d = f (s.chan d) :=
  chan_foldl_of_mem (fun t _ h => State.chan_modChan_other t _ d f h) (fun t => State.chan_modChan t d f) hl hd s

theorem chan_foldl_modChan_of_not_mem {f : Chan → Chan} {l : List Chn} {d : Chn} (hd : d ∉ l) (s : State) :
    (l.foldl (fun t e => t.modChan e f) s).chan d = s.chan d :=
  chan_foldl_of_not_mem (fun t _ h => State.chan_modChan_other t _ d f h) hd s

end Sys2Proof.Machine
end

section
/-! PROOFS. O21: the gate check, the release, and the end of a block (R211, R213, R214, R219, R220, R222, R258). -/
namespace Sys2Proof.Machine

theorem nodup_setOf (s : State) (b : BEntry) : (s.setOf b).Nodup := (nodup_channels s).filter _

/-! ### The gate check passes (R219, R220) -/

section
variable {s : State} {c : Chn} {b : BEntry}

theorem opening_of_mayPass {mask : BitVec 7} (h : s.mayPass c mask = true) :
    (s.chan c).gate.phase = .opening ∧ (s.chan c).gate.faulted = false := by
  simp only [State.mayPass, Bool.and_eq_true, decide_eq_true_eq, Bool.not_eq_true'] at h
  obtain ⟨⟨⟨⟨⟨⟨⟨-, hphase⟩, -⟩, -⟩, -⟩, -⟩, hfaulted⟩, -⟩ := h
  exact ⟨hphase, hfaulted⟩

/-- With no stop come, every channel of the leader's set gets the same release cycle. -/
theorem checkPass_of_mayPass (hfaults : s.newFaults = []) (hb : (s.chan c).gate.target = some b)
    (hlead : beLeader b = c.val) (hpeers : s.wrongPeer c b = none) (hreset : (s.chan c).gate.resetDue = false)
    (hpass : s.mayPass c (BitVec.allOnes 7) = true) (hstop : ∀ d ∈ s.setOf b, (s.chan d).gate.lateStop = 0) :
    s.checkPass c = (s.setOf b).foldl (fun t d => t.modGate d fun g =>
      { g with phase := .delay (s.cy + if (s.setOf b).length = 1 then 16 else 24) }) s := by
  obtain ⟨hphase, hfaulted⟩ := opening_of_mayPass hpass
  have hstops : ((s.setOf b).filter fun d => (s.chan d).gate.lateStop ≠ 0) = [] :=
    List.filter_eq_nil_iff.mpr (by simpa using hstop)
  simp only [State.checkPass, hstops, flushFaults_none hfaults, hphase, hfaulted, hreset, hb, hlead, hpeers, hpass]
  simp

end

/-! ### The release (R213, R214, R222, R258) -/

theorem Core.gateReturn_of_gate {k : Core} {n : Nat} {d : BitVec 5} (h : k.wait = .gate n d) (seq : W64) (cy : Nat) :
    (k.gateReturn seq cy).wait = .none ∧ (d ≠ 0 → (k.gateReturn seq cy).regs.getD d.toNat 0 = seq) := by
  have hret : k.gateReturn seq cy = { k.setReg d.toNat seq with wait := .none, readyAt := cy + 1 } := by
    rw [Core.gateReturn, h]
  rw [hret]
  refine ⟨rfl, fun hd => ?_⟩
  have hpos : 0 < d.toNat := Nat.pos_of_ne_zero fun h0 => hd (BitVec.eq_of_toNat_eq h0)
  have hread := Core.reg_setReg k d.toNat seq hpos d.isLt
  rwa [Core.reg, if_neg hpos.ne'] at hread

section
variable {ch : Chan} {c : Chn} {b : BEntry} {cy : Nat}

/-- The cells of one band start. -/
def startBand (b : BEntry) (cy : Nat) (m : Smap Cell) (band : Nat) : Smap Cell :=
  (List.range 320).foldl (fun m i =>
    Smap.upsert m (320 * band + i) { Smap.get Cell.reset m (320 * band + i) with seq := seqStart b cy }) m

theorem startCells_cells :
    (ch.startCells c b cy).cells = ((List.range 8).filter (beBand b c)).foldl (startBand b cy) ch.cells := rfl

/-- A started cell stays started when further cells start. -/
theorem seq_upsert_start (m : Smap Cell) (n k : Nat) (h : (Smap.get Cell.reset m k).seq = seqStart b cy) :
    (Smap.get Cell.reset (Smap.upsert m n { Smap.get Cell.reset m n with seq := seqStart b cy }) k).seq =
      seqStart b cy := by
  by_cases hk : k = n
  · subst hk
    rw [Smap.get_upsert_same]
  · rw [Smap.get_upsert_other _ _ _ _ _ hk, h]

/-- What one step of a fold brings about and every step keeps holds in the end. -/
theorem foldl_gets {α β : Type} {f : β → α → β} {P : β → Prop} {a : α} {l : List α} (hget : ∀ m, P (f m a))
    (hkeep : ∀ m x, P m → P (f m x)) (ha : a ∈ l) (m : β) : P (l.foldl f m) := by
  obtain ⟨l₁, l₂, rfl⟩ := List.append_of_mem ha
  rw [List.foldl_append, List.foldl_cons]
  exact List.foldlRecOn l₂ f (hget _) fun t ht x _ => hkeep t x ht

theorem startBand_keeps (m : Smap Cell) (band k : Nat) (h : (Smap.get Cell.reset m k).seq = seqStart b cy) :
    (Smap.get Cell.reset (startBand b cy m band) k).seq = seqStart b cy :=
  List.foldlRecOn (motive := fun m => (Smap.get Cell.reset m k).seq = seqStart b cy) _ _ h
    fun m hm i _ => seq_upsert_start m (320 * band + i) k hm

theorem startBand_starts (m : Smap Cell) (band : Nat) {i : Nat} (hi : i < 320) :
    (Smap.get Cell.reset (startBand b cy m band) (320 * band + i)).seq = seqStart b cy :=
  foldl_gets (P := fun m => (Smap.get Cell.reset m (320 * band + i)).seq = seqStart b cy)
    (fun m => by rw [Smap.get_upsert_same]) (fun m j hm => seq_upsert_start m _ _ hm) (List.mem_range.mpr hi) m

theorem startCells_seq {band i : Nat} (hband : band < 8) (hi : i < 320) (hb : beBand b c band = true) :
    ((ch.startCells c b cy).cell (320 * band + i)).seq = seqStart b cy := by
  rw [Chan.cell, startCells_cells]
  exact foldl_gets (P := fun m => (Smap.get Cell.reset m (320 * band + i)).seq = seqStart b cy)
    (fun m => startBand_starts m band hi) (fun m j hm => startBand_keeps m j _ hm)
    (List.mem_filter.mpr ⟨List.mem_range.mpr hband, hb⟩) ch.cells

end

section
variable {s : State} {c : Chn} {b : BEntry} {r : Nat}

theorem releaseBlock_of_early (hr : (s.chan c).gate.phase = .delay r) (hcy : s.cy < r) : s.releaseBlock c = s := by
  unfold State.releaseBlock
  rw [hr]
  split
  · next heq _ =>
    cases heq
    exact if_neg (by omega)
  · rfl

theorem releaseBlock_of_due (hfaults : s.newFaults = []) (hr : (s.chan c).gate.phase = .delay r)
    (hb : (s.chan c).gate.target = some b) (hset : s.setOf b = [c]) (hcy : r ≤ s.cy) :
    s.releaseBlock c = s.releaseChan c := by
  simp only [State.releaseBlock, hr, hb, flushFaults_none hfaults, hset, if_pos hcy, List.foldl_cons, List.foldl_nil]

/-- The channel in which a block starts. -/
def Chan.release (ch : Chan) (c : Chn) (b : BEntry) (t : BitVec 512) (cy : Nat) (log : W64) : Chan :=
  { ch.startCells c b cy with
    gate := ch.gate.released b ch.gate.targetIdx ch.ledger t ch.takeSnap cy log
    core := if ch.gate.restarted then ch.core else ch.core.gateReturn ch.gate.seq cy }

theorem chan_releaseChan (hb : (s.chan c).gate.target = some b) :
    (s.releaseChan c).chan c = (s.chan c).release c b (s.part.totals.getD (beLedger b) 0) s.cy s.flt.prod := by
  simp only [State.releaseChan, hb, State.chan_modChan]
  rfl

theorem chan_releaseChan_other {d : Chn} (hd : d ≠ c) : (s.releaseChan c).chan d = s.chan d := by
  unfold State.releaseChan
  dsimp only
  split
  · rfl
  · exact State.chan_modChan_other _ c d _ hd

end

/-! ### The end of the block (R214) -/

theorem endBlock_of_running {s : State} {c : Chn} {b : BEntry} (hb : (s.chan c).gate.block = some b)
    (hst : (s.chan c).gate.st = .running) :
    s.endBlock c = if (s.chan c).gate.releaseCy + beLen b ≤ s.cy then
      s.modGate c fun g => { g with st := .gate, phase := .closing } else s := by
  simp only [State.endBlock, hb, hst]
  simp

/-- Settles O21: the check sets one release cycle in the whole set, the release starts the band's cells one by one, and
block cycle L is where the end row begins to act. -/
theorem blockRuns : Obligations.BlockRuns := by
  refine fun c s b hc hfaults => ⟨fun hb hlead hpeers hmark hreset hpass hstop => ?_,
    fun r hr hb hset => ⟨fun hcy => ?_, fun hcy => ?_⟩, fun hb hst => ⟨fun hcy => ?_, fun hcy => ?_⟩⟩
  · have hrow : execGateCheckPass c s = .next (s.applyMarks.checkPass c) := onChan_present hc
    rw [applyMarks_of_noMark hmark, checkPass_of_mayPass hfaults hb hlead hpeers hreset hpass hstop] at hrow
    exact ⟨_, hrow, fun d hd => chan_foldl_modChan_of_mem (nodup_setOf s b) hd s,
      fun d hd => chan_foldl_modChan_of_not_mem hd s⟩
  · have hrow : execBlockRelease c s = .next (s.releaseBlock c) := onChan_present hc
    exact hrow.trans (congrArg _ (releaseBlock_of_early hr hcy))
  · have hrow : execBlockRelease c s = .next (s.releaseBlock c) := onChan_present hc
    rw [releaseBlock_of_due hfaults hr hb hset hcy] at hrow
    refine ⟨_, hrow, ?_⟩
    rw [chan_releaseChan hb]
    refine ⟨rfl, rfl, rfl, rfl, rfl, fun n d hwait hre => ?_,
      fun band hband i hi hbit => startCells_seq hband hi hbit, fun d hd => chan_releaseChan_other hd⟩
    simp only [Chan.release, hre]
    exact Core.gateReturn_of_gate hwait _ _
  · have hrow : execBlockEnd c s = .next (s.endBlock c) := onChan_present hc
    exact hrow.trans (congrArg _ ((endBlock_of_running hb hst).trans (if_neg (by omega))))
  · have hrow : execBlockEnd c s = .next (s.endBlock c) := onChan_present hc
    exact hrow.trans (congrArg _ ((endBlock_of_running hb hst).trans (if_pos hcy)))

end Sys2Proof.Machine
end

section
/-! PROOFS. What a port that closes, a take that is served and a channel that is loaded leave as it
was (R230, R516). -/
namespace Sys2Proof.Machine

/-- At most the channels, the ports and the sync counters have changed. -/
def sameButSync (s t : State) : Prop := { t with chans := s.chans, ports := s.ports, sync := s.sync } = s

/-- What no port that closes and no wait that ends changes in a channel. -/
def Chan.standing (ch : Chan) : Gate × Smap Cell × Bool × Vector W64 32 × Mem :=
  (ch.gate, ch.cells, ch.regs2.slackEntered, ch.core.regs, ch.core.dmem)

/-- At most the ports of `l`, the sync counters, the ledgers and the waits of the cores have changed. -/
structure SyncFrame (l : List Nat) (s t : State) : Prop where
  same : sameButSync s t
  chan : ∀ d, (t.chan d).standing = (s.chan d).standing
  port : ∀ j, j ∉ l → t.port j = s.port j

section
variable {s t u : State} {l : List Nat}

theorem sameButSync_trans (h : sameButSync s t) (h' : sameButSync t u) : sameButSync s u :=
  (congrArg (fun x : State => ({ x with chans := s.chans, ports := s.ports, sync := s.sync } : State)) h').trans h

theorem sameButSync.four (h : sameButSync s t) : t.four = s.four := (congrArg State.four h :)
theorem sameButSync.cy (h : sameButSync s t) : t.cy = s.cy := (congrArg State.cy h :)
theorem sameButSync.img (h : sameButSync s t) : t.img = s.img := (congrArg State.img h :)
theorem sameButSync.job (h : sameButSync s t) : t.job = s.job := (congrArg State.job h :)
theorem sameButSync.recov (h : sameButSync s t) : t.recov = s.recov := (congrArg State.recov h :)
theorem sameButSync.cmd (h : sameButSync s t) : t.cmd = s.cmd := (congrArg State.cmd h :)

theorem sameButSync_modChan (s : State) (c : Chn) (f : Chan → Chan) : sameButSync s (s.modChan c f) := rfl

theorem SyncFrame.refl (l : List Nat) (s : State) : SyncFrame l s s := ⟨rfl, fun _ => rfl, fun _ _ => rfl⟩

theorem SyncFrame.trans (h : SyncFrame l s t) (h' : SyncFrame l t u) : SyncFrame l s u :=
  ⟨sameButSync_trans h.same h'.same, fun d => (h'.chan d).trans (h.chan d),
    fun j hj => (h'.port j hj).trans (h.port j hj)⟩

theorem SyncFrame.foldl {α : Type} {f : State → α → State} (hf : ∀ t x, SyncFrame l t (f t x)) (m : List α)
    (s : State) : SyncFrame l s (m.foldl f s) :=
  List.foldlRecOn (motive := SyncFrame l s) m f (.refl l s) fun t ht x _ => ht.trans (hf t x)

theorem SyncFrame.modChan {f : Chan → Chan} (hf : ∀ ch, (f ch).standing = ch.standing) (s : State) (c : Chn) :
    SyncFrame l s (s.modChan c f) := ⟨rfl, fun d => State.modChan_keeps Chan.standing hf s c d, fun _ _ => rfl⟩

theorem SyncFrame.ledger (s : State) (c : Chn) (code n : Nat) : SyncFrame l s (s.ledger c code n) := by
  refine .modChan (fun ch => ?_) s c
  unfold Chan.standing
  simp

theorem SyncFrame.modPort (s : State) {i : Nat} (hi : i ∈ l) (f : MsgPort → MsgPort) : SyncFrame l s (s.modPort i f) :=
  ⟨rfl, fun _ => rfl, fun j hj =>
    (getD_set! s.ports i j _ _).trans (if_neg fun h : i = j ∧ _ => hj (h.1 ▸ hi))⟩

theorem SyncFrame.discHeld (s : State) {i : Nat} (hi : i ∈ l) (n : Nat) : SyncFrame l s (s.discHeld i n) := by
  unfold State.discHeld
  split
  · exact .ledger s _ _ _
  · exact .modPort s hi _

theorem SyncFrame.countDisc (s : State) {i : Nat} (hi : i ∈ l) (n : Nat) : SyncFrame l s (s.countDisc i n) := by
  unfold State.countDisc
  split
  · exact (SyncFrame.ledger s _ _ _).trans (.ledger _ _ _ _)
  · exact .modPort s hi _

theorem SyncFrame.closePort (s : State) {i : Nat} (hi : i ∈ l) : SyncFrame l s (s.closePort i) := by
  have hheld := SyncFrame.discHeld s hi (s.port i).inbox.length
  unfold State.closePort
  dsimp only
  split
  · exact hheld.trans ((SyncFrame.countDisc _ hi 1).trans (.modPort _ hi _))
  · exact hheld.trans (.modPort _ hi _)

theorem SyncFrame.endWait (s : State) (e n : Nat) : SyncFrame l s (s.endWait e n) := by
  unfold State.endWait
  split
  · unfold State.modCore
    refine .modChan ?_ s _
    exact fun _ => rfl
  · exact ⟨rfl, fun _ => rfl, fun _ _ => rfl⟩

theorem SyncFrame.serve (s : State) (w : SyncWait) : SyncFrame l s (s.serve w) := by
  have hcount : SyncFrame l s (s.setCount w.counter (BitVec.ofInt 32 ((s.count w.counter).toInt - w.n))) :=
    ⟨rfl, fun _ => rfl, fun _ _ => rfl⟩
  unfold State.serve
  dsimp only
  refine .trans ?_ (.endWait _ _ _)
  have hhome (t : State) : SyncFrame l t { t.ledger (homeOf w.counter) ldHomeTake w.n with
      sync := { (t.ledger (homeOf w.counter) ldHomeTake w.n).sync with
        waits := (t.ledger (homeOf w.counter) ldHomeTake w.n).sync.waits.filter fun x => decide (x ≠ w) } } :=
    (SyncFrame.ledger t _ _ _).trans ⟨rfl, fun _ => rfl, fun _ _ => rfl⟩
  split
  · exact hcount.trans ((SyncFrame.ledger _ _ _ _).trans (hhome _))
  · exact hcount.trans (hhome _)

theorem SyncFrame.serveWaits (s : State) (n : Nat) : SyncFrame l s (s.serveWaits n) := by
  refine .foldl (fun t w => ?_) _ s
  split
  · exact .serve t w
  · exact .refl l t

theorem SyncFrame.serveHome (s : State) (c : Chn) : SyncFrame l s (s.serveHome c) := by
  refine .foldl (fun t n => ?_) _ s
  split
  · exact .serveWaits t n
  · exact .refl l t

theorem SyncFrame.clearSync (s : State) (c : Chn) : SyncFrame l s (s.clearSync c) := ⟨rfl, fun _ => rfl, fun _ _ => rfl⟩

end

/-! ### A channel is loaded (R230) -/

section
variable (s : State) (c : Chn)

/-- The channel's sync counters and memories start anew; its port is still closed. -/
def State.emptied (s : State) (c : Chn) : State :=
  ((s.closePort c.val).clearSync c).modChan c fun ch => ch.loaded s.part c

theorem loadChan_eq : s.loadChan c = ((s.emptied c).serveHome c).openPort c.val := rfl

theorem loadChan_after_emptied : SyncFrame [c.val] (s.emptied c) (s.loadChan c) := by
  rw [loadChan_eq]
  exact (SyncFrame.serveHome _ c).trans (.modPort _ (List.mem_singleton_self c.val) _)

theorem sameButSync_emptied : sameButSync s (s.emptied c) := by
  have hclosed : SyncFrame [c.val] s ((s.closePort c.val).clearSync c) :=
    (SyncFrame.closePort s (List.mem_singleton_self c.val)).trans (.clearSync _ c)
  exact sameButSync_trans hclosed.same (sameButSync_modChan _ c _)

theorem sameButSync_loadChan : sameButSync s (s.loadChan c) :=
  sameButSync_trans (sameButSync_emptied s c) (loadChan_after_emptied s c).same

theorem loadChan_loads : ((s.loadChan c).chan c).gate.st = .loaded ∧ ((s.loadChan c).chan c).cells = [] := by
  have hstanding := (loadChan_after_emptied s c).chan c
  have hloaded : (s.emptied c).chan c = ((s.closePort c.val).chan c).loaded s.part c := State.chan_modChan _ c _
  rw [hloaded] at hstanding
  exact ⟨(congrArg (fun x => x.1.st) hstanding :), (congrArg (fun x => x.2.1) hstanding :)⟩

theorem standing_loadChan_other {d : Chn} (hd : d ≠ c) : ((s.loadChan c).chan d).standing = (s.chan d).standing := by
  rw [(loadChan_after_emptied s c).chan d]
  have hclosed := (SyncFrame.closePort s (List.mem_singleton_self c.val)).chan d
  rw [← hclosed]
  exact congrArg Chan.standing (State.chan_modChan_other _ c d _ hd)

theorem port_loadChan_other {j : Nat} (hj : j ≠ c.val) : (s.loadChan c).port j = s.port j := by
  have hj' : j ∉ [c.val] := fun h => hj (List.mem_singleton.mp h)
  rw [(loadChan_after_emptied s c).port j hj']
  exact (SyncFrame.closePort s (List.mem_singleton_self c.val)).port j hj'

end

end Sys2Proof.Machine
end

section
/-! PROOFS. O48: the rows of LOAD_IMAGE, VERIFY_IMAGE and BIND_CHANNELS, case by case (R394, R402, R516, R517). -/
namespace Sys2Proof.Machine

section
variable {b : State} {d : Cmd} {i : Image} {v : Viol} {m : BitVec 4}

/-- The digest of the bytes of HDM that the command names (R230). -/
def State.imageMeas (s : State) (c : Cmd) : BitVec 512 := sha512 (s.hdmBytes (c.arg 0) (s.imageLen c))

theorem channelsRest_iff : b.channelsRest = true ↔
    ∀ d ∈ b.channels, (b.chan d).gate.st ≠ .running ∧ (b.chan d).gate.st ≠ .gate := by
  simp [State.channelsRest, State.busyChan]

theorem noteLen_arg (n : Nat) : (b.noteLen d).arg n = d.arg n := by
  refine Cmd.arg_of_packet ?_ n
  unfold State.noteLen Cmd.clamped
  split <;> rfl

theorem loadImageRow_empty (h0 : b.imageLen d = 0) : loadImageRow i b d = b.done (b.noteLen d) resNone := if_pos h0

theorem loadImageRow_busy (h0 : b.imageLen d ≠ 0) (hr : b.channelsRest ≠ true) :
    loadImageRow i b d = b.abort (b.noteLen d) rsSTATE := by
  rw [loadImageRow, if_neg h0, if_pos (by simpa using hr)]

theorem loadImageRow_rejected (h0 : b.imageLen d ≠ 0) (hr : b.channelsRest = true)
    (hv : (b.summarize i).verify i (b.imageLen d) = some v) :
    loadImageRow i b d = (b.summarize i).finish (b.noteLen d) stREJECTED 0
      (verifyResult (some v) (b.imageMeas d)) := by
  simp only [loadImageRow, if_neg h0, hr, hv, noteLen_arg]
  rfl

theorem loadImageRow_passed (h0 : b.imageLen d ≠ 0) (hr : b.channelsRest = true)
    (hv : (b.summarize i).verify i (b.imageLen d) = none) :
    loadImageRow i b d = ((b.summarize i).loadImage i (d.arg 0) (b.imageLen d)
      (b.imageMeas d)).done (b.noteLen d)
        (verifyResult none (b.imageMeas d)) := by
  simp only [loadImageRow, if_neg h0, hr, hv, noteLen_arg]
  rfl

theorem verifyImageRow_empty (h0 : b.imageLen d = 0) : verifyImageRow i b d = b.done (b.noteLen d) resNone := if_pos h0

theorem verifyImageRow_rejected (h0 : b.imageLen d ≠ 0) (hv : (b.summarize i).verify i (b.imageLen d) = some v) :
    verifyImageRow i b d = (b.summarize i).finish (b.noteLen d) stREJECTED 0
      (verifyResult (some v) (b.imageMeas d)) := by
  simp only [verifyImageRow, if_neg h0, hv, noteLen_arg, State.imageMeas]

theorem verifyImageRow_passed (h0 : b.imageLen d ≠ 0) (hv : (b.summarize i).verify i (b.imageLen d) = none) :
    verifyImageRow i b d = (b.summarize i).done (b.noteLen d)
      (verifyResult none (b.imageMeas d)) := by
  simp only [verifyImageRow, if_neg h0, hv, noteLen_arg, State.imageMeas]

theorem bindRow_refused (h : b.channelsRest ≠ true ∨ b.variantSet (d.arg 0) = none) :
    bindRow b d = b.abort d rsSTATE := by
  unfold bindRow
  split
  · next hr hm =>
    rcases h with h | h
    · exact absurd hr h
    · exact nomatch hm.symm.trans h
  · rfl

theorem bindRow_retired (hr : b.channelsRest = true) (hm : b.variantSet (d.arg 0) = some m)
    (hgone : ∃ e ∈ chansOf m, (b.chan e).gate.st = .retired) : bindRow b d = b.abort d rsRETIRED := by
  unfold bindRow
  rw [hr, hm]
  exact if_pos (by simpa using hgone)

/-- The channels of the variant bound, no channel holds a reproduced fault, no job runs and no rollback. -/
def State.bindAnew (s : State) (v : Nat) : State :=
  let s := s.bindVariant v
  let s := s.channels.foldl (fun s d => s.modChan d fun ch => { ch with
    regs2 := { ch.regs2 with reproduced := false } }) s
  { s with
    job := { s.job with active := false }
    flt := { s.flt with recovering := false }
    recov := { s.recov with rolling := .none, own := none } }

theorem bindRow_binds (hr : b.channelsRest = true) (hm : b.variantSet (d.arg 0) = some m)
    (hgone : ∀ e ∈ chansOf m, (b.chan e).gate.st ≠ .retired) :
    bindRow b d = (b.bindAnew (d.arg 0)).done d (resOne 32 1 m.toNat) := by
  unfold bindRow
  rw [hr, hm]
  exact if_neg (by simpa using hgone)

end

end Sys2Proof.Machine
end

section
/-! PROOFS. O48: binding a variant and putting an image in force (R365, R402, R473, R516, R517, R541). -/
namespace Sys2Proof.Machine

/-! ### Binding -/

section
variable (s : State) (v : Nat)

/-- The variant is named, and the save points are gone, before its channels are loaded. -/
def State.rebased (s : State) (v : Nat) : State :=
  let t : State := { s.dropSaves with img := { s.dropSaves.img with variant := v } }
  { t with mem := { t.mem with tdt := t.part.tensorDescs.foldl (fun m e => Smap.put 0 m e.1 e.2) t.mem.tdt } }

/-- A channel of the image part is loaded, and another has no image; a retired one stays so. -/
def State.bindChan (part : ImagePart) (s : State) (c : Chn) : State :=
  if (s.chan c).gate.st = .retired then s
  else if bitAt part.chset c.val then s.loadChan c
  else ((s.loadChan c).modGate c fun g => { g with st := .noImage }).closePort c.val

theorem bindVariant_eq : s.bindVariant v =
    (s.rebased v).channels.foldl (State.bindChan (s.rebased v).part) (s.rebased v) := rfl

theorem dropSaves_same : { s.dropSaves with chans := s.chans } =
    { s with recov := { s.recov with slots := Vector.replicate 8 none } } := by
  unfold State.dropSaves
  refine foldl_keeps (fun t => ({ t with chans := s.chans } : State)) ?_ _ _
  exact fun t c => rfl

theorem dropSaves_img : s.dropSaves.img = s.img := (congrArg State.img (dropSaves_same s) :)
theorem dropSaves_job : s.dropSaves.job = s.job := (congrArg State.job (dropSaves_same s) :)
theorem dropSaves_cmd : s.dropSaves.cmd = s.cmd := (congrArg State.cmd (dropSaves_same s) :)
theorem dropSaves_four : s.dropSaves.four = s.four := (congrArg State.four (dropSaves_same s) :)
theorem dropSaves_slots : s.dropSaves.recov.slots = Vector.replicate 8 none :=
  (congrArg (fun t => t.recov.slots) (dropSaves_same s) :)

theorem dropSaves_standing (d : Chn) : (s.dropSaves.chan d).standing = (s.chan d).standing := 
  foldl_keeps (fun t => (t.chan d).standing)
    (fun t c => State.modChan_keeps Chan.standing (f := fun ch => { ch with
      regs2 := { ch.regs2 with aValid := false, bValid := false } }) (fun _ => rfl) t c d) _ _

end

theorem part_of_img {s t : State} (h : t.img = s.img) : t.part = s.part := by rw [State.part, h, State.part]

theorem st_of_standing {x y : Chan} (h : x.standing = y.standing) : x.gate.st = y.gate.st :=
  (congrArg (fun a => a.1.st) h :)

section
variable (part : ImagePart) (s : State) (c : Chn)

theorem sameButSync_bindChan : sameButSync s (s.bindChan part c) := by
  have hload := sameButSync_loadChan s c
  unfold State.bindChan
  split
  · rfl
  · split
    · exact hload
    · exact sameButSync_trans (sameButSync_trans hload (sameButSync_modChan _ c _))
        (SyncFrame.closePort _ (List.mem_singleton_self c.val)).same

theorem bindChan_st : ((s.bindChan part c).chan c).gate.st = if (s.chan c).gate.st = .retired then .retired
    else if bitAt part.chset c.val then .loaded else .noImage := by
  unfold State.bindChan
  split
  · assumption
  · split
    · exact (loadChan_loads s c).1
    · rw [st_of_standing ((SyncFrame.closePort _ (List.mem_singleton_self c.val)).chan c)]
      exact congrArg (fun ch => ch.gate.st) (State.chan_modChan _ c _)

theorem bindChan_st_other {d : Chn} (hd : d ≠ c) : ((s.bindChan part c).chan d).gate.st = (s.chan d).gate.st := by
  have hload := st_of_standing (standing_loadChan_other s c hd)
  unfold State.bindChan
  split
  · rfl
  · split
    · exact hload
    · rw [st_of_standing ((SyncFrame.closePort _ (List.mem_singleton_self c.val)).chan d), ← hload]
      exact congrArg (fun ch => ch.gate.st) (State.chan_modChan_other _ c d _ hd)

end

section
variable (s : State) (v : Nat)

theorem sameButSync_bindVariant : sameButSync (s.rebased v) (s.bindVariant v) := by
  rw [bindVariant_eq]
  exact List.foldlRecOn (motive := sameButSync (s.rebased v)) _ _ rfl
    fun t ht c _ => sameButSync_trans ht (sameButSync_bindChan _ t c)

theorem bindVariant_img : (s.bindVariant v).img = { s.img with variant := v } := by
  rw [(sameButSync_bindVariant s v).img, ← dropSaves_img s]
  rfl

theorem bindVariant_job : (s.bindVariant v).job = s.job := (sameButSync_bindVariant s v).job.trans (dropSaves_job s)

theorem bindVariant_cmd : (s.bindVariant v).cmd = s.cmd := (sameButSync_bindVariant s v).cmd.trans (dropSaves_cmd s)

theorem bindVariant_four : (s.bindVariant v).four = s.four :=
  (sameButSync_bindVariant s v).four.trans (dropSaves_four s)

theorem bindVariant_slots (n : Nat) : (s.bindVariant v).recov.slots.getD n none = none := by
  have hslots : (s.bindVariant v).recov.slots = Vector.replicate 8 none :=
    (congrArg Recov.slots (sameButSync_bindVariant s v).recov).trans (dropSaves_slots s)
  rw [hslots]
  by_cases hn : n < 8
  · simp [Vector.getD, hn]
  · simp [Vector.getD, hn]

/-- A retired channel stays so; the others of the part are loaded, and the rest has no image. -/
theorem bindVariant_st {d : Chn} (hd : d ∈ s.channels) : ((s.bindVariant v).chan d).gate.st =
    if (s.chan d).gate.st = .retired then .retired
    else if bitAt (s.bindVariant v).part.chset d.val then .loaded else .noImage := by
  have hchannels : (s.rebased v).channels = s.channels := by
    have hfour : (s.rebased v).four = s.four := dropSaves_four s
    rw [State.channels, hfour, State.channels]
  have hst : ((s.rebased v).chan d).gate.st = (s.chan d).gate.st := st_of_standing (dropSaves_standing s d)
  rw [part_of_img (sameButSync_bindVariant s v).img, bindVariant_eq, hchannels, ← hst]
  exact foldl_reaches (P := fun t => (t.chan d).gate.st = ((s.rebased v).chan d).gate.st)
    (Q := fun t => (t.chan d).gate.st = if ((s.rebased v).chan d).gate.st = .retired then .retired
      else if bitAt (s.rebased v).part.chset d.val then .loaded else .noImage) (nodup_channels s) hd
    (fun t e he ht => (bindChan_st_other _ t e he.symm).trans ht) (fun t ht => ht ▸ bindChan_st _ t d)
    (fun t e he ht => (bindChan_st_other _ t e he.symm).trans ht) rfl

end

/-! ### Loading -/

section
variable (s : State) (i : Image) (off len : Nat) (meas : BitVec 512)

/-- At most the power registers and the draws of free values have changed. -/
def sameButPower (s t : State) : Prop := { t with pwr := s.pwr, draw := s.draw } = s

theorem sameButPower_trans {s t u : State} (h : sameButPower s t) (h' : sameButPower t u) : sameButPower s u :=
  (congrArg (fun x : State => ({ x with pwr := s.pwr, draw := s.draw } : State)) h').trans h

theorem sameButPower_foldl {α : Type} {f : State → α → State} (hf : ∀ t x, sameButPower t (f t x)) (l : List α)
    (s : State) : sameButPower s (l.foldl f s) :=
  List.foldlRecOn (motive := sameButPower s) l f rfl fun t ht x _ => sameButPower_trans ht (hf t x)

theorem sameButPower_domainsOn (ds : List Nat) : sameButPower s (s.domainsOn ds) := rfl

theorem sameButPower_powerChan (c : Chn) : sameButPower s (s.powerChan c) := by
  unfold State.powerChan
  split
  · rfl
  · extract_lets s1 _ s2 s3
    have h2 : sameButPower s s2 := rfl
    have h3 : sameButPower s s3 := by
      unfold s3
      split
      · exact sameButPower_trans h2 (sameButPower_domainsOn s2 _)
      · exact h2
    refine sameButPower_trans h3 (sameButPower_foldl ?_ _ s3)
    exact fun _ _ => rfl

/-- The state in which an image is put in force: the old one is gone, and the channels of the new one have power. -/
def State.cleared (s : State) (i : Image) (off len : Nat) : State :=
  (chansOf i.main.chset).foldl State.powerChan (s.copyImage off len).dropImage

theorem dropImage_img : s.dropImage.img = { s.img with retiredSet := 0 } := by
  unfold State.dropImage
  extract_lets _ _ _ _ s1 s2
  have h2 : s2.img = s1.img := by
    refine foldl_keeps State.img ?_ _ s1
    exact fun _ _ => rfl
  exact (dropSaves_img s2).trans h2

theorem dropImage_cmd : s.dropImage.cmd = s.cmd := by
  unfold State.dropImage
  extract_lets _ _ _ _ s1 s2
  have h2 : s2.cmd = s1.cmd := by
    refine foldl_keeps State.cmd ?_ _ s1
    exact fun _ _ => rfl
  exact (dropSaves_cmd s2).trans h2

theorem dropImage_four : s.dropImage.four = s.four := by
  unfold State.dropImage
  extract_lets _ _ _ _ s1 s2
  have h2 : s2.four = s1.four := by
    refine foldl_keeps State.four ?_ _ s1
    exact fun _ _ => rfl
  exact (dropSaves_four s2).trans h2

theorem dropImage_st {d : Chn} (hd : d ∈ s.channels) : (s.dropImage.chan d).gate.st = .noImage := by
  unfold State.dropImage
  extract_lets _ _ _ _ s1 s2
  have h2 : (s2.chan d).gate.st = .noImage :=
    congrArg (fun ch => ch.gate.st) (chan_foldl_modChan_of_mem (nodup_channels s1) hd s1)
  exact (st_of_standing (dropSaves_standing s2 d)).trans h2

end

section
variable {s : State} {i : Image} {off len : Nat} {meas : BitVec 512}

theorem cleared_power : sameButPower (s.copyImage off len).dropImage (s.cleared i off len) :=
  sameButPower_foldl sameButPower_powerChan _ _

theorem cleared_four : (s.cleared i off len).four = s.four :=
  (congrArg State.four (cleared_power (s := s)) :).trans
    ((dropImage_four _).trans (sameButJournal_partWrite s _ _).four)

theorem cleared_retiredSet : (s.cleared i off len).img.retiredSet = 0 :=
  (congrArg (fun t => t.img.retiredSet) (cleared_power (s := s)) :).trans
    (congrArg Bound.retiredSet (dropImage_img _))

theorem cleared_accepted : (s.cleared i off len).cmd.accepted = s.cmd.accepted :=
  (congrArg (fun t => t.cmd.accepted) (cleared_power (s := s)) :).trans
    ((congrArg CmdRegs.accepted (dropImage_cmd _)).trans (sameButJournal_partWrite s _ _).accepted)

theorem cleared_st {d : Chn} (hd : d ∈ s.channels) : ((s.cleared i off len).chan d).gate.st = .noImage := by
  have hpower : ((s.cleared i off len).chan d).gate.st = (((s.copyImage off len).dropImage).chan d).gate.st :=
    (congrArg (fun t => (t.chan d).gate.st) (cleared_power (s := s)) :)
  have hfour : (s.copyImage off len).four = s.four := (sameButJournal_partWrite s _ _).four
  rw [hpower]
  exact dropImage_st _ (by rwa [State.channels, hfour])

/-- The image in force and its measurement, before the channels of its main set are loaded. -/
def State.imaged (s : State) (i : Image) (off len : Nat) (meas : BitVec 512) : State :=
  let t := s.cleared i off len
  { t with
    img := { t.img with image := some (t.loadedImage i) }
    job := { t.job with meas := meas, imageChanged := true } }

theorem loadImage_eq : s.loadImage i off len meas = (s.imaged i off len meas).bindVariant 0 := rfl

theorem loadImage_img : (s.loadImage i off len meas).img =
    { (s.cleared i off len).img with image := some ((s.cleared i off len).loadedImage i), variant := 0 } :=
  bindVariant_img _ 0

theorem loadImage_meas : (s.loadImage i off len meas).job.meas = meas :=
  congrArg Job.meas (bindVariant_job (s.imaged i off len meas) 0)

theorem loadImage_accepted : (s.loadImage i off len meas).cmd.accepted = s.cmd.accepted :=
  (congrArg CmdRegs.accepted (bindVariant_cmd (s.imaged i off len meas) 0)).trans cleared_accepted

theorem loadImage_st {d : Chn} (hd : d ∈ s.channels) : ((s.loadImage i off len meas).chan d).gate.st =
    if bitAt (s.loadImage i off len meas).part.chset d.val then .loaded else .noImage := by
  have hfour : (s.imaged i off len meas).four = s.four := cleared_four
  have hst : ((s.imaged i off len meas).chan d).gate.st = .noImage := cleared_st hd
  rw [loadImage_eq, bindVariant_st _ 0 (by rwa [State.channels, hfour]), if_neg (by rw [hst]; decide)]

end

end Sys2Proof.Machine
end

section
/-! PROOFS. O48: what an image command has done when its row has acted in its turn. -/
namespace Sys2Proof.Machine

section
variable {s : State} {seq : W64} {c d : Cmd} {img : Image} {v : Viol} {m : BitVec 4}

theorem begunCmd_imageMeas : (s.begunCmd c.seq).imageMeas c.started = s.imageMeas c :=
  congrArg sha512 (rfl : (s.begunCmd c.seq).hdmBytes (c.arg 0) (s.imageLen c) = s.hdmBytes (c.arg 0) (s.imageLen c))

/-- A command that a field of HDM bytes names ends with the length clamped or not. -/
theorem noteLen_endedOk {op : Nat} (h : s.turnOf op seq c) {t : State}
    (ht : t.cmd.accepted = (s.begunCmd c.seq).cmd.accepted) (result : BitVec 192) :
    (t.done ((s.begunCmd c.seq).noteLen c.started) result).endedOk c (decide (s.imageLen c < c.arg 1)) result :=
  clamped_endedOk h ht (by decide) _ result

theorem noteLen_same (b : State) : (b.noteLen c.started).same c := Cmd.clamped_same c.started_same _ _

theorem rejected_ended {op : Nat} (h : s.turnOf op seq c) (result : BitVec 192) :
    (((s.begunCmd c.seq).summarize img).finish ((s.begunCmd c.seq).noteLen c.started) stREJECTED 0 result).ended c
      stREJECTED 0 result := ended_finish (turnOf_lists h) (noteLen_same _) _ _ _

theorem summarized_finish (d : Cmd) (status reason : Nat) (result : BitVec 192) :
    { ((s.begunCmd c.seq).summarize img).finish d status reason result with cmd := s.cmd } = s.summarize img := by
  unfold State.summarize
  generalize imageSummary img = x
  rfl

/-! ### LOAD_IMAGE and VERIFY_IMAGE, done -/

theorem loadImage_empty (h : s.turnOf opLOAD seq c) (h0 : s.imageLen c = 0) :
    (s.runsRow (loadImageRow img) c).endedOk c (decide (s.imageLen c < c.arg 1)) resNone ∧
      { s.runsRow (loadImageRow img) c with cmd := s.cmd } = s := by
  rw [State.runsRow, loadImageRow_empty (b := s.begunCmd c.seq) (d := c.started) h0]
  exact ⟨noteLen_endedOk h rfl _, rfl⟩

theorem verifyImage_empty (h : s.turnOf opVERIFY seq c) (h0 : s.imageLen c = 0) :
    (s.runsRow (verifyImageRow img) c).endedOk c (decide (s.imageLen c < c.arg 1)) resNone ∧
      { s.runsRow (verifyImageRow img) c with cmd := s.cmd } = s := by
  rw [State.runsRow, verifyImageRow_empty (b := s.begunCmd c.seq) (d := c.started) h0]
  exact ⟨noteLen_endedOk h rfl _, rfl⟩

theorem loadImage_rejected (h : s.turnOf opLOAD seq c) (h0 : s.imageLen c ≠ 0) (hr : s.channelsRest = true)
    (hv : ((s.begunCmd c.seq).summarize img).verify img (s.imageLen c) = some v) :
    (s.runsRow (loadImageRow img) c).ended c stREJECTED 0
        (verifyResult (some v) (s.imageMeas c)) ∧
      { s.runsRow (loadImageRow img) c with cmd := s.cmd } = s.summarize img := by
  rw [State.runsRow, loadImageRow_rejected (b := s.begunCmd c.seq) (d := c.started) h0 hr hv, begunCmd_imageMeas]
  exact ⟨rejected_ended h _, summarized_finish ..⟩

theorem verifyImage_rejected (h : s.turnOf opVERIFY seq c) (h0 : s.imageLen c ≠ 0)
    (hv : ((s.begunCmd c.seq).summarize img).verify img (s.imageLen c) = some v) :
    (s.runsRow (verifyImageRow img) c).ended c stREJECTED 0
        (verifyResult (some v) (s.imageMeas c)) ∧
      { s.runsRow (verifyImageRow img) c with cmd := s.cmd } = s.summarize img := by
  rw [State.runsRow, verifyImageRow_rejected (b := s.begunCmd c.seq) (d := c.started) h0 hv, begunCmd_imageMeas]
  exact ⟨rejected_ended h _, summarized_finish ..⟩

theorem verifyImage_passed (h : s.turnOf opVERIFY seq c) (h0 : s.imageLen c ≠ 0)
    (hv : ((s.begunCmd c.seq).summarize img).verify img (s.imageLen c) = none) :
    (s.runsRow (verifyImageRow img) c).endedOk c (decide (s.imageLen c < c.arg 1))
        (verifyResult none (s.imageMeas c)) ∧
      { s.runsRow (verifyImageRow img) c with cmd := s.cmd } = s.summarize img := by
  rw [State.runsRow, verifyImageRow_passed (b := s.begunCmd c.seq) (d := c.started) h0 hv, begunCmd_imageMeas]
  exact ⟨noteLen_endedOk (t := (s.begunCmd c.seq).summarize img) h rfl _, summarized_finish ..⟩

/-- The image in force after LOAD_IMAGE, and the channels that it leaves. -/
structure State.loadedFrom (b : State) (i : Image) (off len : Nat) (meas : BitVec 512) (t : State) : Prop where
  image : t.img.image = some ((b.cleared i off len).loadedImage i)
  variant : t.img.variant = 0
  retiredSet : t.img.retiredSet = 0
  meas : t.job.meas = meas
  slots : ∀ n, t.recov.slots.getD n none = none
  st : ∀ d ∈ b.channels, (t.chan d).gate.st = if bitAt t.part.chset d.val then .loaded else .noImage

theorem State.loadedFrom.done {b t : State} {i : Image} {off len : Nat} {meas : BitVec 512}
    (h : b.loadedFrom i off len meas t) (d : Cmd) (result : BitVec 192) :
    b.loadedFrom i off len meas (t.done d result) :=
  ⟨h.image, h.variant, h.retiredSet, h.meas, h.slots, h.st⟩

theorem loadImage_loadedFrom (b : State) (i : Image) (off len : Nat) (meas : BitVec 512) :
    b.loadedFrom i off len meas (b.loadImage i off len meas) where
  image := congrArg Bound.image loadImage_img
  variant := congrArg Bound.variant loadImage_img
  retiredSet := (congrArg Bound.retiredSet loadImage_img).trans cleared_retiredSet
  meas := loadImage_meas
  slots := bindVariant_slots _ 0
  st := fun _ => loadImage_st

theorem loadImage_passed (h : s.turnOf opLOAD seq c) (h0 : s.imageLen c ≠ 0) (hr : s.channelsRest = true)
    (hv : ((s.begunCmd c.seq).summarize img).verify img (s.imageLen c) = none) :
    (s.runsRow (loadImageRow img) c).endedOk c (decide (s.imageLen c < c.arg 1))
        (verifyResult none (s.imageMeas c)) ∧
      ((s.begunCmd c.seq).summarize img).loadedFrom img (c.arg 0) (s.imageLen c)
        (s.imageMeas c) (s.runsRow (loadImageRow img) c) := by
  have hrow : s.runsRow (loadImageRow img) c = (((s.begunCmd c.seq).summarize img).loadImage img (c.arg 0)
      (s.imageLen c) (s.imageMeas c)).done ((s.begunCmd c.seq).noteLen c.started)
      (verifyResult none (s.imageMeas c)) := by
    rw [← begunCmd_imageMeas]
    exact loadImageRow_passed (b := s.begunCmd c.seq) (d := c.started) h0 hr hv
  have hload := loadImage_loadedFrom ((s.begunCmd c.seq).summarize img) img (c.arg 0) (s.imageLen c) (s.imageMeas c)
  have haccepted : (((s.begunCmd c.seq).summarize img).loadImage img (c.arg 0) (s.imageLen c)
      (s.imageMeas c)).cmd.accepted = (s.begunCmd c.seq).cmd.accepted :=
    loadImage_accepted (s := (s.begunCmd c.seq).summarize img)
  rw [hrow]
  generalize ((s.begunCmd c.seq).summarize img).loadImage img _ _ _ = t at hload haccepted ⊢
  exact ⟨noteLen_endedOk h haccepted _, hload.done _ _⟩

/-! ### BIND_CHANNELS, done -/

theorem variantSet_chset {t : State} {n : Nat} (h : s.variantSet n = some m)
    (ht : t.img = { s.img with variant := n }) : t.part.chset = m := by
  obtain ⟨i, hi, hm⟩ := Option.bind_eq_some_iff.mp h
  have himage : t.img.image = some i := (congrArg Bound.image ht).trans hi
  have hvariant : t.img.variant = n := congrArg Bound.variant ht
  rw [State.part, himage]
  split at hm
  · rw [← Option.some.inj hm, ← hvariant]
  · exact nomatch hm

theorem bindAnew_same (s : State) (n : Nat) : { s.bindAnew n with
    chans := s.chans, job := s.job, flt := s.flt, recov := s.recov } =
    { s.bindVariant n with chans := s.chans, job := s.job, flt := s.flt, recov := s.recov } := by
  refine foldl_keeps (fun t =>
    ({ t with chans := s.chans, job := s.job, flt := s.flt, recov := s.recov } : State)) ?_ _ _
  exact fun _ _ => rfl

theorem bindAnew_slots (s : State) (n : Nat) (k : Nat) : (s.bindAnew n).recov.slots.getD k none = none := by
  have hslots : (s.bindAnew n).recov.slots = (s.bindVariant n).recov.slots := by
    refine foldl_keeps (fun t => t.recov.slots) ?_ _ _
    exact fun _ _ => rfl
  rw [hslots, bindVariant_slots]

theorem bindAnew_st (s : State) (n : Nat) (d : Chn) :
    ((s.bindAnew n).chan d).gate.st = ((s.bindVariant n).chan d).gate.st := by
  refine foldl_keeps (fun t => (t.chan d).gate.st) ?_ _ _
  exact fun t e => State.modChan_keeps (fun ch => ch.gate.st) (by intro; rfl) t e d

theorem bindChannels_binds (h : s.turnOf opBIND seq c) (hr : s.channelsRest = true)
    (hm : s.variantSet (c.arg 0) = some m) (hgone : ∀ d ∈ chansOf m, (s.chan d).gate.st ≠ .retired) :
    (s.runsRow bindRow c).endedOk c false (resOne 32 1 m.toNat) ∧
      (s.runsRow bindRow c).img.variant = c.arg 0 ∧ (s.runsRow bindRow c).img.image = s.img.image ∧
      (s.runsRow bindRow c).job.active = false ∧ (∀ n, (s.runsRow bindRow c).recov.slots.getD n none = none) ∧
      ∀ d ∈ s.channels, ((s.runsRow bindRow c).chan d).gate.st = (if (s.chan d).gate.st = .retired then .retired
        else if bitAt m d.val then .loaded else .noImage) := by
  rw [State.runsRow, bindRow_binds (b := s.begunCmd c.seq) (d := c.started) hr hm hgone]
  have hsame := bindAnew_same (s.begunCmd c.seq) (c.arg 0)
  have himg : ((s.begunCmd c.seq).bindAnew (c.arg 0)).img = { s.img with variant := c.arg 0 } :=
    (congrArg State.img hsame :).trans (bindVariant_img _ _)
  have hcmd : ((s.begunCmd c.seq).bindAnew (c.arg 0)).cmd = (s.begunCmd c.seq).cmd :=
    (congrArg State.cmd hsame :).trans (bindVariant_cmd _ _)
  refine ⟨started_endedOk h (congrArg CmdRegs.accepted hcmd) _, (congrArg Bound.variant himg :),
    (congrArg Bound.image himg :),    rfl, bindAnew_slots _ _, fun d hd => ?_⟩
  have hst := bindVariant_st (s.begunCmd c.seq) (c.arg 0) hd
  rw [variantSet_chset (s := s.begunCmd c.seq) hm (bindVariant_img _ _)] at hst
  exact (bindAnew_st _ _ d).trans hst

/-- Settles O48: each row has one equation per case, and binding is a fold over the channels, each loaded once. -/
theorem imageCommands : Obligations.ImageCommands := by
  intro s seq c img b len more meas rest
  have hrest : s.channelsRest = true ↔ rest := channelsRest_iff
  refine ⟨fun i op hi h => ⟨fun h0 => ?_, fun h0 hr v hv => ?_⟩, fun h h0 hv => ?_, fun h h0 hr => ?_,
    fun h h0 hr hv => ?_, fun h => ⟨fun hr => ?_, fun m hr hm => ⟨fun hgone => ?_, fun hgone => ?_⟩⟩⟩
  · simp only [List.mem_cons, Prod.mk.injEq, List.not_mem_nil, or_false] at hi
    rcases hi with ⟨rfl, rfl⟩ | ⟨rfl, rfl⟩
    · exact ⟨_, exec_row rfl h, loadImage_empty h h0⟩
    · exact ⟨_, exec_row rfl h, verifyImage_empty h h0⟩
  · simp only [List.mem_cons, Prod.mk.injEq, List.not_mem_nil, or_false] at hi
    have hseq := h.2.1
    subst hseq
    rcases hi with ⟨rfl, rfl⟩ | ⟨rfl, rfl⟩
    · exact ⟨_, exec_row rfl h, loadImage_rejected h h0 (hrest.mpr (hr rfl)) hv⟩
    · exact ⟨_, exec_row rfl h, verifyImage_rejected h h0 hv⟩
  · have hseq := h.2.1
    subst hseq
    exact ⟨_, exec_row rfl h, verifyImage_passed h h0 hv⟩
  · exact ⟨_, exec_row rfl h, runsRow_aborts h (loadImageRow_busy (b := s.begunCmd c.seq) (d := c.started) h0
      fun hr' => hr (hrest.mp hr')) (noteLen_same _)⟩
  · have hseq := h.2.1
    subst hseq
    intro clear
    obtain ⟨hended, hloaded⟩ := loadImage_passed h h0 (hrest.mpr hr) hv
    exact ⟨_, exec_row rfl h, hended, hloaded.image, hloaded.variant, hloaded.retiredSet, hloaded.meas, hloaded.slots,
      hloaded.st⟩
  · exact ⟨_, exec_row rfl h, runsRow_aborts h (bindRow_refused (b := s.begunCmd c.seq) (d := c.started)
      (hr.imp_left fun hbusy hr' => hbusy (hrest.mp hr'))) c.started_same⟩
  · exact ⟨_, exec_row rfl h, runsRow_aborts h (bindRow_retired (b := s.begunCmd c.seq) (d := c.started)
      (hrest.mpr hr) hm hgone) c.started_same⟩
  · exact ⟨_, exec_row rfl h, bindChannels_binds h (hrest.mpr hr) hm hgone⟩

end

end Sys2Proof.Machine
end

section
/-! PROOFS. O49: what a change of one channel leaves as it was, and the row of START (R397, R403). -/
namespace Sys2Proof.Machine

/-- At most channel `c` has changed. -/
def sameButChan (c : Chn) (s t : State) : Prop :=
  { t with chans := s.chans } = s ∧ ∀ d, d ≠ c → t.chan d = s.chan d

theorem sameButChan_trans {s t u : State} {c : Chn} (h : sameButChan c s t) (h' : sameButChan c t u) :
    sameButChan c s u :=
  ⟨(congrArg (fun x : State => ({ x with chans := s.chans } : State)) h'.1).trans h.1,
    fun d hd => (h'.2 d hd).trans (h.2 d hd)⟩

section
variable (s : State) (c : Chn)

theorem sameButChan_modChan (f : Chan → Chan) : sameButChan c s (s.modChan c f) :=
  ⟨rfl, fun d h => State.chan_modChan_other s c d f h⟩

theorem sameButChan_loadNext : sameButChan c s (s.loadNext c) := by
  obtain h | ⟨cs, bands, page, res, h⟩ := loadNext_cases s c
  · rw [h]
    exact ⟨rfl, fun _ _ => rfl⟩
  · rw [h]
    exact sameButChan_modChan s c _

theorem sameButChan_enterOpening : sameButChan c s (s.enterOpening c) :=
  sameButChan_trans (sameButChan_modChan s c _) (sameButChan_loadNext _ c)

theorem core_enterOpening : ((s.enterOpening c).chan c).core = (s.chan c).core := by
  unfold State.enterOpening
  dsimp only
  rw [loadNext_keeps Chan.core (fun _ _ _ => rfl), State.modGate, State.chan_modChan]

end

/-! ### The row of START -/

section
variable {b : State} {d : Cmd}

theorem anySt_iff {l : List Chn} {x : ChState} : b.anySt l x = true ↔ ∃ e ∈ l, (b.chan e).gate.st = x := by
  simp [State.anySt]

/-- The channels of a START are loaded or stopped, and not by a reproduced fault. -/
def State.startable (s : State) (l : List Chn) : Prop :=
  ∀ e ∈ l, ((s.chan e).gate.st = .loaded ∨ (s.chan e).gate.st = .stopped) ∧ (s.chan e).regs2.reproduced = false

/-- A START with a key names other channels than those bound, or one of them runs. -/
def State.badJob (s : State) (c : Cmd) : Prop :=
  c.arg 1 ≠ 0 ∧ (s.maskOf c ≠ s.bound ∨ ∃ e ∈ s.bound, (s.chan e).gate.st = .running)

theorem arg_key_start (h : d.opcode = opSTART) : d.arg 1 < 2 ^ 256 := by
  have hf : (d.fields.getD [])[1]? = some (pAny 8 32) := by simp [Cmd.fields, h]; rfl
  have hle := Cmd.arg_le hf (by simp [h, opSTART, opADOPT]) (Nat.zero_le _)
  have hhi : (pAny 8 32).hi = 2 ^ 256 - 1 := rfl
  omega

theorem key_eq_zero (h : d.opcode = opSTART) : BitVec.ofNat 256 (d.arg 1) = 0 ↔ d.arg 1 = 0 := by
  rw [← BitVec.toNat_inj, BitVec.toNat_ofNat, Nat.mod_eq_of_lt (arg_key_start h)]
  rfl

theorem startable_iff {l : List Chn} :
    l.all (fun e => ((b.chan e).gate.st = .loaded || (b.chan e).gate.st = .stopped) &&
      !(b.chan e).regs2.reproduced) = true ↔ b.startable l := by
  simp [State.startable]

theorem badJob_iff (h : d.opcode = opSTART) : (decide (BitVec.ofNat 256 (d.arg 1) ≠ 0) &&
    (decide (b.maskOf d ≠ b.bound) || b.anySt b.bound .running)) = true ↔ b.badJob d := by
  rw [Bool.and_eq_true, Bool.or_eq_true, decide_eq_true_eq, decide_eq_true_eq, anySt_iff, Ne, key_eq_zero h]
  rfl

theorem startRow_none (hl : b.maskOf d = []) : startRow b d = b.done d resNone := by
  rw [startRow, hl]
  rfl

theorem startRow_retired (h : ∃ e ∈ b.maskOf d, (b.chan e).gate.st = .retired) :
    startRow b d = b.abort d rsRETIRED := by
  have hl : ¬(b.maskOf d).isEmpty = true := fun hnil => by
    obtain ⟨e, he, -⟩ := h
    exact List.ne_nil_of_mem he (List.isEmpty_iff.mp hnil)
  rw [startRow, if_neg hl, if_pos (anySt_iff.mpr h)]

theorem startRow_refused (hop : d.opcode = opSTART) (hl : b.maskOf d ≠ [])
    (hgone : ∀ e ∈ b.maskOf d, (b.chan e).gate.st ≠ .retired) (h : ¬ b.startable (b.maskOf d) ∨ b.badJob d) :
    startRow b d = b.abort d rsSTATE := by
  have hgone' : ¬b.anySt (b.maskOf d) .retired = true := fun hany => by
    obtain ⟨e, he, hst⟩ := anySt_iff.mp hany
    exact hgone e he hst
  rw [startRow, if_neg (fun hnil => hl (List.isEmpty_iff.mp hnil)), if_neg hgone']
  split
  · rfl
  · next hready =>
    have hready : b.startable (b.maskOf d) :=
      startable_iff.mp (by simpa only [Bool.not_eq_true', Bool.not_eq_false] using hready)
    exact if_pos ((badJob_iff hop).mpr (h.resolve_left (not_not_intro hready)))

/-- The state in which the channels start: a nonzero key begins a job. -/
def State.startBase (b : State) (d : Cmd) : State :=
  if BitVec.ofNat 256 (d.arg 1) = 0 then b else b.beginJob (BitVec.ofNat 256 (d.arg 1)) d.accept

/-- The mark at which the command is to act, if it names one. -/
def Cmd.markIf (c : Cmd) : Option W64 := if c.hasMark then some c.mark else none

theorem startRow_starts (hop : d.opcode = opSTART) (hl : b.maskOf d ≠ []) (hready : b.startable (b.maskOf d))
    (hbad : ¬ b.badJob d) :
    startRow b d =
      ((b.maskOf d).foldl (State.startChan · d.markIf) (b.startBase d)).keepCmd (d.waiting (b.maskOf d)) := by
  have hgone : ¬b.anySt (b.maskOf d) .retired = true := fun hany => by
    obtain ⟨e, he, hst⟩ := anySt_iff.mp hany
    rcases (hready e he).1 with h | h <;> exact nomatch h.symm.trans hst
  rw [startRow, if_neg (fun hnil => hl (List.isEmpty_iff.mp hnil)), if_neg hgone,
    if_neg (by rw [startable_iff.mpr hready]; decide), if_neg (fun h => hbad ((badJob_iff hop).mp h))]
  rfl

end

section
variable (s : State) (mark : Option W64) (c : Chn)

/-- A channel that starts, before its gate opens. -/
def Chan.startedAt (ch : Chan) (mark : Option W64) (cy : Nat) : Chan := { ch with
  core := if ch.gate.st = .loaded then { ch.core with started := true, readyAt := cy + 1 } else ch.core
  gate := { ch.gate with stopNow := false, halted := false, stopCause := 0 }
  regs := match mark with
    | some m => { ch.regs with gateMark := m }
    | none => ch.regs }

theorem startChan_def : s.startChan mark c =
    if ((s.modChan c fun ch => ch.startedAt mark s.cy).chan c).regs2.slackEntered then
      (s.modChan c fun ch => ch.startedAt mark s.cy).modGate c fun g => { g with st := .gate, phase := .slack }
    else (s.modChan c fun ch => ch.startedAt mark s.cy).enterOpening c := by
  cases mark <;> rfl

theorem startChan_opens (h : (s.chan c).regs2.slackEntered = false) :
    s.startChan mark c = (s.modChan c fun ch => ch.startedAt mark s.cy).enterOpening c := by
  have hslack : ((s.modChan c fun ch => ch.startedAt mark s.cy).chan c).regs2.slackEntered = false := by
    rw [State.chan_modChan]
    exact h
  rw [startChan_def, if_neg (by rw [hslack]; decide)]

theorem sameButChan_startChan : sameButChan c s (s.startChan mark c) := by
  have hmod := sameButChan_modChan s c fun ch => ch.startedAt mark s.cy
  rw [startChan_def]
  split
  · exact sameButChan_trans hmod (sameButChan_modChan _ c _)
  · exact sameButChan_trans hmod (sameButChan_enterOpening _ c)

/-- What START has done to a channel (R403). -/
structure Chan.starts (ch : Chan) (mark : Option W64) (ch' : Chan) : Prop where
  st : ch'.gate.st = .gate
  stopNow : ch'.gate.stopNow = false
  gateMark : ∀ m, mark = some m → ch'.regs.gateMark = m
  started : ch.gate.st = .loaded → ch'.core.started = true

theorem startChan_starts (h : (s.chan c).regs2.slackEntered = false) :
    (s.chan c).starts mark ((s.startChan mark c).chan c) := by
  have hmod := State.chan_modChan s c fun ch => ch.startedAt mark s.cy
  rw [startChan_opens s mark c h]
  refine ⟨?_, ?_, fun m hm => ?_, fun hloaded => ?_⟩
  · rw [gate_enterOpening]
  · rw [gate_enterOpening, hmod]
    rfl
  · rw [regs_enterOpening, hmod, hm]
    rfl
  · rw [core_enterOpening, hmod]
    exact congrArg Core.started (if_pos hloaded)

end

section
variable {s : State} {mark : Option W64} {l : List Chn}

theorem startAll_same : { l.foldl (State.startChan · mark) s with chans := s.chans } = s :=
  foldl_keeps (fun t => ({ t with chans := s.chans } : State)) (f := (State.startChan · mark))
    (fun t c => (congrArg (fun x : State => ({ x with chans := s.chans } : State))
      (sameButChan_startChan t mark c).1 :)) l s

theorem startAll_other {d : Chn} (hd : d ∉ l) : (l.foldl (State.startChan · mark) s).chan d = s.chan d :=
  chan_foldl_of_not_mem (fun t e h => (sameButChan_startChan t mark e).2 d h) hd s

theorem startAll_starts {d : Chn} (hl : l.Nodup) (hd : d ∈ l) (h : (s.chan d).regs2.slackEntered = false) :
    (s.chan d).starts mark ((l.foldl (State.startChan · mark) s).chan d) :=
  foldl_reaches (P := fun t => t.chan d = s.chan d) (Q := fun t => (s.chan d).starts mark (t.chan d)) hl hd
    (fun t e he ht => ((sameButChan_startChan t mark e).2 d he.symm).trans ht)
    (fun t ht => ht ▸ startChan_starts t mark d (ht ▸ h))
    (fun t e he ht => ((sameButChan_startChan t mark e).2 d he.symm) ▸ ht) rfl

end

section
variable (s : State) (key : BitVec 256) (start : W64)

theorem beginJob_job : (s.beginJob key start).job.active = true ∧ (s.beginJob key start).job.key = key ∧
    (s.beginJob key start).job.start = start ∧ (s.beginJob key start).job.accum = [] := by
  unfold State.beginJob
  extract_lets k _ s1
  have hjob : ∀ l : List Chn, (l.foldl (fun t d => t.modChan d fun ch => { ch with
      chain := { ch.chain.newSegment with ring := ch.chain.ring, ringPos := 0 }
      regs2 := { ch.regs2 with tallyChk := 0, tallyUnchk := 0, replays := 0, replayFails := 0, digRecs := 0 } })
      s1).job = s1.job := fun l => foldl_keeps State.job (by intro t d; rfl) l s1
  rw [hjob]
  exact ⟨rfl, rfl, rfl, rfl⟩

theorem beginJob_cmd : (s.beginJob key start).cmd = s.cmd := by
  unfold State.beginJob
  refine foldl_keeps State.cmd ?_ _ _
  exact fun _ _ => rfl

/-- What a job that begins leaves in every channel. -/
theorem beginJob_chan (d : Chn) : ((s.beginJob key start).chan d).gate = (s.chan d).gate ∧
    ((s.beginJob key start).chan d).regs2.slackEntered = (s.chan d).regs2.slackEntered := by
  unfold State.beginJob
  refine ⟨foldl_keeps (fun t => (t.chan d).gate) ?gate _ _,
    foldl_keeps (fun t => (t.chan d).regs2.slackEntered) ?slack _ _⟩
  case gate => exact fun t e => State.modChan_keeps Chan.gate (by intro; rfl) t e d
  case slack => exact fun t e => State.modChan_keeps (·.regs2.slackEntered) (by intro; rfl) t e d

end

section
variable {s : State} {seq : W64} {c : Cmd}

theorem startBase_cmd (b : State) (d : Cmd) : (b.startBase d).cmd = b.cmd := by
  unfold State.startBase
  split
  · rfl
  · exact beginJob_cmd b _ _

theorem startBase_chan (b : State) (d : Cmd) (e : Chn) : ((b.startBase d).chan e).gate = (b.chan e).gate ∧
    ((b.startBase d).chan e).regs2.slackEntered = (b.chan e).regs2.slackEntered := by
  unfold State.startBase
  split
  · exact ⟨rfl, rfl⟩
  · exact beginJob_chan b _ _ e

/-- A command that has begun waits, whatever it notes of itself. -/
theorem kept_waitsOn {op : Nat} (h : s.turnOf op seq c) {t : State}
    (ht : t.cmd.accepted = (s.begunCmd c.seq).cmd.accepted) {d : Cmd} (hd : d.same c) (hb : d.begun = true)
    (hf : d.finished = c.finished) : (t.keepCmd d).waitsOn c := by
  refine waitsOn_keepCmd ?_ hd hb (hf.trans (turnOf_finished h))
  rw [State.lists, ht]
  exact turnOf_lists h

theorem Cmd.same.waiting {c d : Cmd} (h : d.same c) (l : List Chn) : (d.waiting l).same c := ⟨h.seq, h.packet⟩

theorem start_starts (h : s.turnOf opSTART seq c) (hready : s.startable (s.maskOf c)) (hbad : ¬ s.badJob c)
    (hl : s.maskOf c ≠ []) (hslack : ∀ d ∈ s.maskOf c, (s.chan d).regs2.slackEntered = false) :
    (s.runsRow startRow c).waitsOn c ∧
      (∀ d ∈ s.maskOf c, (s.chan d).starts c.markIf ((s.runsRow startRow c).chan d)) ∧
      (c.arg 1 = 0 → (s.runsRow startRow c).job = s.job ∧
        ∀ d, d ∉ s.maskOf c → (s.runsRow startRow c).chan d = s.chan d) ∧
      (c.arg 1 ≠ 0 → (s.runsRow startRow c).job.active = true ∧
        (s.runsRow startRow c).job.key = BitVec.ofNat 256 (c.arg 1) ∧
        (s.runsRow startRow c).job.start = c.accept ∧ (s.runsRow startRow c).job.accum = []) := by
  have hrow : s.runsRow startRow c = ((s.maskOf c).foldl (State.startChan · c.markIf)
      ((s.begunCmd c.seq).startBase c.started)).keepCmd (c.started.waiting (s.maskOf c)) :=
    startRow_starts (b := s.begunCmd c.seq) (d := c.started) h.2.2 hl hready hbad
  have hchan := startBase_chan (s.begunCmd c.seq) c.started
  have hcmd := startBase_cmd (s.begunCmd c.seq) c.started
  have hnone (h0 : c.arg 1 = 0) : (s.begunCmd c.seq).startBase c.started = s.begunCmd c.seq :=
    if_pos ((key_eq_zero h.2.2).mpr h0)
  have hkey (h0 : c.arg 1 ≠ 0) : (s.begunCmd c.seq).startBase c.started =
      (s.begunCmd c.seq).beginJob (BitVec.ofNat 256 (c.arg 1)) c.accept :=
    if_neg fun hzero => h0 ((key_eq_zero h.2.2).mp hzero)
  rw [hrow]
  generalize (s.begunCmd c.seq).startBase c.started = base at hchan hcmd hnone hkey ⊢
  have hsame := startAll_same (s := base) (mark := c.markIf) (l := s.maskOf c)
  have hjob : ((s.maskOf c).foldl (State.startChan · c.markIf) base).job = base.job := (congrArg State.job hsame :)
  refine ⟨kept_waitsOn h (congrArg CmdRegs.accepted ((congrArg State.cmd hsame :).trans hcmd))
      (c.started_same.waiting _) rfl rfl,
    fun d hd => ?_, fun h0 => ⟨?_, fun d hd => ?_⟩, fun h0 => ?_⟩
  · obtain ⟨hgate, hentered⟩ := hchan d
    have hstarts := startAll_starts (mark := c.markIf) ((nodup_channels s).filter _) hd
      (hentered.trans (hslack d hd))
    exact ⟨hstarts.st, hstarts.stopNow, hstarts.gateMark,
      fun hloaded => hstarts.started ((congrArg Gate.st hgate).trans hloaded)⟩
  · rw [hnone h0] at hjob ⊢
    exact hjob
  · rw [hnone h0]
    exact startAll_other hd
  · rw [hkey h0] at hjob ⊢
    obtain ⟨hactive, hk, hstart, haccum⟩ := beginJob_job (s.begunCmd c.seq) (BitVec.ofNat 256 (c.arg 1)) c.accept
    exact ⟨(congrArg Job.active hjob).trans hactive, (congrArg Job.key hjob).trans hk,
      (congrArg Job.start hjob).trans hstart, (congrArg Job.accum hjob).trans haccum⟩

end

end Sys2Proof.Machine
end

section
/-! PROOFS. O49: the row of STOP (R225, R404). -/
namespace Sys2Proof.Machine

section
variable {b t : State} {d : Cmd}

theorem stopRow_notManager (hline : d.lineStop = true) (hr : b.tide.role ≠ rlMANAGER) :
    stopRow b d = b.abort d rsNOTMANAGER := by
  rw [stopRow, if_pos hline, if_pos hr]

theorem stopRow_lineFull (hline : d.lineStop = true) (hr : b.tide.role = rlMANAGER) (hf : b.freeLine = 0) :
    stopRow b d = b.abort d rsNOSLOT := by
  simp only [stopRow, hline, hr, placeOrder_eq_none hf]
  rfl

theorem stopRow_placed (hline : d.lineStop = true) (hr : b.tide.role = rlMANAGER) {moved : Bool}
    (ht : b.placeOrder otHALT (BitVec.ofNat 8 (d.arg 2)) d.mark 0 = some (t, moved)) :
    stopRow b d = t.done (d.clamped 30 moved) resNone := by
  simp only [stopRow, hline, hr, ht]
  rfl

theorem stopRow_held (hline : d.lineStop = false) (h : ∃ e ∈ b.maskOf d, (b.chan e).gate.st = .held) :
    stopRow b d = b.finish d stFAULTED rsHELD resNone := by
  rw [stopRow, if_neg (by rw [hline]; decide), if_pos (anySt_iff.mpr h)]

theorem stopRow_none (hline : d.lineStop = false) (hl : b.maskOf d = []) :
    stopRow b d = b.done d (resOne 32 1 0) := by
  rw [stopRow, if_neg (by rw [hline]; decide), hl]
  rfl

/-- A STOP that no held channel spoils, of channels named. -/
structure Cmd.stops (d : Cmd) (b : State) : Prop where
  line : d.lineStop = false
  named : b.maskOf d ≠ []
  held : ∀ e ∈ b.maskOf d, (b.chan e).gate.st ≠ .held

theorem stopRow_stops (h : d.stops b) : stopRow b d = if d.hasMark then
      (b.storeOrder otHALT (b.localMark d.mark) (w64 (bits4 (b.maskOf d)).toNat)).elim (b.abort d rsNOSLOT)
        (State.keepCmd · d)
    else ((b.maskOf d).foldl State.askStop b).keepCmd d := by
  have hheld : ¬b.anySt (b.maskOf d) .held = true := fun hany => by
    obtain ⟨e, he, hst⟩ := anySt_iff.mp hany
    exact h.held e he hst
  rw [stopRow, if_neg (by rw [h.line]; decide), if_neg hheld,
    if_neg fun hnil => h.named (List.isEmpty_iff.mp hnil)]
  cases b.storeOrder otHALT (b.localMark d.mark) (w64 (bits4 (b.maskOf d)).toNat)
  · rfl
  · rfl

theorem stopRow_asks (h : d.stops b) (hm : d.hasMark = false) :
    stopRow b d = ((b.maskOf d).foldl State.askStop b).keepCmd d := by
  rw [stopRow_stops h, if_neg (by rw [hm]; decide)]

theorem stopRow_stored (h : d.stops b) (hm : d.hasMark = true)
    (ht : b.storeOrder otHALT (b.localMark d.mark) (w64 (bits4 (b.maskOf d)).toNat) = some t) :
    stopRow b d = t.keepCmd d := by
  rw [stopRow_stops h, if_pos hm, ht, Option.elim_some]

theorem stopRow_full (h : d.stops b) (hm : d.hasMark = true) (hf : b.freeOrder = none) :
    stopRow b d = b.abort d rsNOSLOT := by
  rw [stopRow_stops h, if_pos hm, storeOrder_eq_none hf, Option.elim_none]

/-- A channel is asked to stop when it runs or is in its gate. -/
theorem askStop_eq (s : State) (e : Chn) : s.askStop e = s.modChan e fun ch =>
    if s.busyChan e then { ch with gate := { ch.gate with stopNow := true } } else ch := by
  unfold State.askStop
  split
  · rfl
  · exact (State.modChan_of_fixed rfl).symm

theorem askAll_same (s : State) (l : List Chn) : { l.foldl State.askStop s with chans := s.chans } = s :=
  foldl_keeps (fun t => ({ t with chans := s.chans } : State)) (fun t e => by rw [askStop_eq]; rfl) l s

theorem askAll_chan (s : State) {l : List Chn} (hl : l.Nodup) (e : Chn) : (l.foldl State.askStop s).chan e =
    if e ∈ l ∧ s.busyChan e = true then { s.chan e with gate := { (s.chan e).gate with stopNow := true } }
    else s.chan e := by
  have hother (t : State) (f : Chn) (hf : e ≠ f) : (t.askStop f).chan e = t.chan e := by
    rw [askStop_eq, State.chan_modChan_other _ _ _ _ hf]
  by_cases he : e ∈ l
  · have hall := chan_foldl_of_mem (f := State.askStop) (g := fun ch =>
      if ch.gate.st = .running || ch.gate.st = .gate then { ch with gate := { ch.gate with stopNow := true } } else ch)
      hother (fun t => by rw [askStop_eq, State.chan_modChan]; rfl) hl he s
    rw [hall]
    exact if_congr (by simp [he, State.busyChan]) rfl rfl
  · rw [chan_foldl_of_not_mem hother he, if_neg fun h => he h.1]

theorem arg_target_stop (h : d.opcode = opSTOP) : d.arg 2 < 256 := by
  have hf : (d.fields.getD [])[2]? = some (pAny 2 1) := by simp [Cmd.fields, h]; rfl
  exact Nat.lt_succ_of_le (Cmd.arg_le hf (by simp [h, opSTOP, opADOPT]) (by decide))

end

section
variable {s : State} {seq : W64} {c : Cmd}

theorem stop_asks (h : s.turnOf opSTOP seq c) (hs : c.stops s) (hm : c.hasMark = false) :
    (s.runsRow stopRow c).waitsOn c ∧ ∀ d, (s.runsRow stopRow c).chan d =
      if d ∈ s.maskOf c ∧ s.busyChan d = true then
        { s.chan d with gate := { (s.chan d).gate with stopNow := true } } else s.chan d := by
  have hrow : s.runsRow stopRow c = ((s.maskOf c).foldl State.askStop (s.begunCmd c.seq)).keepCmd c.started :=
    stopRow_asks (b := s.begunCmd c.seq) (d := c.started) ⟨hs.line, hs.named, hs.held⟩ hm
  have hcmd := (congrArg State.cmd (askAll_same (s.begunCmd c.seq) (s.maskOf c)) :)
  rw [hrow]
  exact ⟨kept_waitsOn h (congrArg CmdRegs.accepted hcmd) c.started_same rfl rfl,
    askAll_chan (s.begunCmd c.seq) ((nodup_channels s).filter _)⟩

theorem fld_bits4 (m : BitVec 4) : fld (w64 m.toNat) 0 4 = m := by
  refine BitVec.eq_of_toNat_eq ?_
  have hm := m.isLt
  simp only [fld, w64, BitVec.extractLsb'_toNat, BitVec.toNat_ofNat, Nat.shiftRight_zero]
  omega

theorem stop_stored (h : s.turnOf opSTOP seq c) (hs : c.stops s) (hm : c.hasMark = true) {n : Nat}
    (hn : s.freeOrder = some n) : (s.runsRow stopRow c).waitsOn c ∧ ∃ o : Order,
      (s.runsRow stopRow c).orderAt n = some o ∧ o.typ = otHALT ∧ o.target = s.tide.addr ∧
      o.mark = s.localMark c.mark ∧ fld o.arg 0 4 = bits4 (s.maskOf c) ∧
      ∀ d, (s.runsRow stopRow c).chan d = s.chan d := by
  have hstore := storeOrder_eq_some (s := s.begunCmd c.seq) hn otHALT (s.localMark c.mark)
    (w64 (bits4 (s.maskOf c)).toNat)
  rw [State.runsRow, stopRow_stored (b := s.begunCmd c.seq) (d := c.started) ⟨hs.line, hs.named, hs.held⟩ hm hstore]
  exact ⟨kept_waitsOn h rfl c.started_same rfl rfl, _,
    (orderAt_setOrder _ n n _).trans (if_pos ⟨rfl, (freeOrder_some hn).1⟩), rfl, rfl, rfl, fld_bits4 _, fun _ => rfl⟩

theorem stop_placed (h : s.turnOf opSTOP seq c) (hline : c.lineStop = true) (hr : s.tide.role = rlMANAGER)
    (hf : 0 < s.freeLine) : (s.runsRow stopRow c).chans = s.chans ∧
      (s.runsRow stopRow c).endedOk c (decide (c.mark.toNat < s.earliestMark.toNat)) resNone ∧
      ∃ (k : Nat) (o : Order), s.line.sending.getD k none = none ∧
        (s.runsRow stopRow c).line.sending.getD k none = some o ∧ o.typ = otHALT ∧ o.target.toNat = c.arg 2 ∧
        o.mark = if c.mark.toNat < s.earliestMark.toNat then s.earliestMark else c.mark := by
  obtain ⟨k, o, placed, hk, htyp, htarget, -, homark, hplace⟩ := placeOrder_of_free (s := s.begunCmd c.seq) hf
    otHALT (BitVec.ofNat 8 (c.arg 2)) c.mark 0
  obtain ⟨hlt, hfree⟩ := Slots.firstFree_some hk
  rw [State.runsRow, stopRow_placed (b := s.begunCmd c.seq) (d := c.started) hline hr hplace]
  refine ⟨rfl, clamped_endedOk h rfl (by decide) _ _, k, o, hfree, (getD_set! _ k k _ _).trans (if_pos ⟨rfl, hlt⟩),
    htyp, ?_, homark⟩
  rw [htarget]
  exact Nat.mod_eq_of_lt (arg_target_stop h.2.2)

end

end Sys2Proof.Machine
end

section
/-! PROOFS. O49: the rows of SAVE and of RETIRE_CHANNEL (R365, R372). -/
namespace Sys2Proof.Machine

/-! ### SAVE -/

section
variable {b : State} {d : Cmd}

theorem saveRow_none (hb : b.bound = []) : saveRow b d = b.abort d rsSTATE := by
  rw [saveRow, hb]
  rfl

theorem saveRow_saves (hb : b.bound ≠ []) : saveRow b d = { b.keepCmd d with recov := { b.recov with
    saveDue := true, saveStop := b.recov.saveStop || decide (d.arg 0 = 1) } } :=
  if_neg fun hnil => hb (List.isEmpty_iff.mp hnil)

end

theorem save_saves {s : State} {seq : W64} {c : Cmd} (h : s.turnOf opSAVE seq c) (hb : s.bound ≠ []) :
    (s.runsRow saveRow c).chans = s.chans ∧ (s.runsRow saveRow c).waitsOn c ∧ (s.runsRow saveRow c).recov =
      { s.recov with saveDue := true, saveStop := s.recov.saveStop || decide (c.arg 0 = 1) } := by
  rw [State.runsRow, saveRow_saves (b := s.begunCmd c.seq) hb]
  exact ⟨rfl, waitsOn_congr (t := (s.begunCmd c.seq).keepCmd c.started) rfl
    (kept_waitsOn h rfl c.started_same rfl rfl), rfl⟩

/-! ### RETIRE_CHANNEL -/

/-- Which channels are bound follows from the image, the grade and the states of the channels. -/
theorem bound_congr {s t : State} (himg : t.img = s.img) (hfour : t.four = s.four)
    (hst : ∀ d, (t.chan d).gate.st = (s.chan d).gate.st) : t.bound = s.bound := by
  have hchannels : t.channels = s.channels := by rw [State.channels, hfour, State.channels]
  rw [State.bound, hchannels, part_of_img himg]
  simp only [hst, State.bound]

section
variable {b : State} {d : Cmd}

theorem mem_bound_st {s : State} {e : Chn} (h : e ∈ s.bound) : (s.chan e).gate.st ≠ .retired := by
  simp only [State.bound, List.mem_filter, Bool.and_eq_true, decide_eq_true_eq] at h
  exact h.2.2

theorem retireRow_retired (h : (b.chan (chnOf (d.arg 0))).gate.st = .retired) :
    retireRow b d = b.abort d rsRETIRED := if_pos h

theorem retireRow_unbound (h : (b.chan (chnOf (d.arg 0))).gate.st ≠ .retired) (hb : chnOf (d.arg 0) ∉ b.bound) :
    retireRow b d = b.abort d rsSTATE := by
  rw [retireRow, if_neg h, if_pos (by simpa using hb)]

theorem retireRow_noSave (hb : chnOf (d.arg 0) ∈ b.bound) (hn : b.canRestore false = none) :
    retireRow b d = b.abort d rsNOSAVE := by
  simp only [retireRow, if_neg (mem_bound_st hb), hn]
  exact if_neg (by simpa using hb)

/-- No bound channel counts as stopped by a reproduced fault. -/
def State.forgiven (s : State) : State := s.bound.foldl (fun t e => t.modChan e fun ch => { ch with
  regs2 := { ch.regs2 with reproduced := false } }) s

theorem retireRow_begins (hb : chnOf (d.arg 0) ∈ b.bound) {n : W64} (hn : b.canRestore false = some n) :
    retireRow b d = (b.keepCmd d).forgiven.beginRollback false (some (chnOf (d.arg 0)).val) n [] := by
  simp only [retireRow, if_neg (mem_bound_st hb), hn]
  exact if_neg (by simpa using hb)

theorem forgiven_same (s : State) : { s.forgiven with chans := s.chans } = s := by
  unfold State.forgiven
  refine foldl_keeps (fun t => ({ t with chans := s.chans } : State)) ?_ _ s
  exact fun _ _ => rfl

theorem forgiven_gate (s : State) (c : Chn) : (s.forgiven.chan c).gate = (s.chan c).gate := by
  unfold State.forgiven
  refine foldl_keeps (fun t => (t.chan c).gate) ?_ _ s
  exact fun t e => State.modChan_keeps Chan.gate (by intro; rfl) t e c

end

section
variable (s : State) (older : Bool) (retire : Option Nat) (n : W64) (faults : List (Nat × Nat × Nat × W64))

/-- A channel that runs or is in its gate is asked to stop before a rollback, as by STOP. -/
theorem beginRollback_eq : ∃ d0 d1, s.beginRollback older retire n faults =
    ({ s.bound.foldl State.askStop s with
      flt := { (s.bound.foldl State.askStop s).flt with recovering := true }
      recov := { (s.bound.foldl State.askStop s).recov with
        rolling := .rollback older retire, lastFaults := faults } } : State).internal 0x8002 d0 d1 := ⟨_, _, rfl⟩

theorem beginRollback_begins : (s.beginRollback older retire n faults).flt.recovering = true ∧
    (s.beginRollback older retire n faults).recov.rolling = .rollback older retire ∧
    (s.beginRollback older retire n faults).cmd.accepted = s.cmd.accepted ∧
    ∀ e ∈ s.bound, (s.chan e).gate.st = .running ∨ (s.chan e).gate.st = .gate →
      ((s.beginRollback older retire n faults).chan e).gate.stopNow = true := by
  obtain ⟨d0, d1, heq⟩ := beginRollback_eq s older retire n faults
  have hasked := askAll_same s s.bound
  have hchan := askAll_chan s (l := s.bound) ((nodup_channels s).filter _)
  rw [heq]
  generalize s.bound.foldl State.askStop s = t at hasked hchan ⊢
  have hint := sameButJournal_internal ({ t with
    flt := { t.flt with recovering := true }
    recov := { t.recov with rolling := .rollback older retire, lastFaults := faults } } : State) 0x8002 d0 d1
  refine ⟨(congrArg FltRegs.recovering hint.flt :), (congrArg Recov.rolling hint.recov :),
    hint.accepted.trans (congrArg (fun x : State => x.cmd.accepted) hasked :), fun e he hst => ?_⟩
  have hbusy : s.busyChan e = true := by simpa [State.busyChan] using hst
  rw [chan_of_chans hint.chans e]
  refine (congrArg (fun ch : Chan => ch.gate.stopNow) ((hchan e).trans (if_pos ⟨he, hbusy⟩)) :)

end

section
variable {s : State} {seq : W64} {c : Cmd}

theorem retire_begins (h : s.turnOf opRETIRE seq c) (hb : chnOf (c.arg 0) ∈ s.bound)
    (hn : s.canRestore false ≠ none) : (s.runsRow retireRow c).waitsOn c ∧
      (s.runsRow retireRow c).flt.recovering = true ∧
      (s.runsRow retireRow c).recov.rolling = .rollback false (some (chnOf (c.arg 0)).val) ∧
      ∀ e ∈ s.bound, (s.chan e).gate.st = .running ∨ (s.chan e).gate.st = .gate →
        ((s.runsRow retireRow c).chan e).gate.stopNow = true := by
  obtain ⟨n, hn⟩ := Option.ne_none_iff_exists'.mp hn
  have hrow : s.runsRow retireRow c = ((s.begunCmd c.seq).keepCmd c.started).forgiven.beginRollback false
      (some (chnOf (c.arg 0)).val) n [] := retireRow_begins (b := s.begunCmd c.seq) (d := c.started) hb hn
  have hsame := forgiven_same ((s.begunCmd c.seq).keepCmd c.started)
  have hgate := forgiven_gate ((s.begunCmd c.seq).keepCmd c.started)
  rw [hrow]
  generalize ((s.begunCmd c.seq).keepCmd c.started).forgiven = t at hsame hgate ⊢
  have hst (e : Chn) : (t.chan e).gate.st = (s.chan e).gate.st := (congrArg Gate.st (hgate e) :)
  have htb : t.bound = s.bound := bound_congr (congrArg State.img hsame :) (congrArg State.four hsame :) hst
  obtain ⟨hrec, hroll, hacc, hstop⟩ := beginRollback_begins t false (some (chnOf (c.arg 0)).val) n []
  refine ⟨waitsOn_congr (hacc.trans (congrArg (fun x : State => x.cmd.accepted) hsame :))
      (kept_waitsOn h rfl c.started_same rfl rfl), hrec, hroll, fun e he hst' => hstop e (htb ▸ he) ?_⟩
  rwa [hst e]

end

end Sys2Proof.Machine
end

section
/-! PROOFS. O49: the rows of RESUME_STREAM and of PAIR_MODE (R335, R409). -/
namespace Sys2Proof.Machine

/-! ### RESUME_STREAM -/

section
variable (s : State) (c : Chn) (q : Nat) (drain : Bool)

/-- A queue is halted. -/
def State.halted (s : State) (c : Chn) (q : Nat) (drain : Bool) : Bool :=
  if drain then (s.dqOf c q).halted else (s.sqOf c q).halted

theorem resumeStream_running (h : s.halted c q drain = false) : s.resumeStream c q drain = s := by
  unfold State.halted at h
  unfold State.resumeStream
  simp only [h]

theorem cmd_of_still {t : State} (h : t.still = s.still) : t.cmd = s.cmd := congrArg (fun x => x.1.cmd) h

theorem resumeStream_cmd : (s.resumeStream c q drain).cmd = s.cmd := by
  unfold State.resumeStream
  dsimp only
  split
  · next st _ _ =>
    have hmod : (if drain then s.modDq c q fun x => { x with halted := false, cause := 0, haltVA := 0 }
        else s.modSq c q fun x => { x with halted := false, cause := 0, haltVA := 0 }).cmd = s.cmd := by
      split <;> rfl
    generalize (if drain then s.modDq c q fun x => { x with halted := false, cause := 0, haltVA := 0 }
      else s.modSq c q fun x => { x with halted := false, cause := 0, haltVA := 0 }) = t at hmod ⊢
    have hplace {die eng beat : Nat} {td : TDesc} {r : State × List (Loc × Nat) × Option Placed}
        (hp : t.placeBeat die eng td drain beat = r) : r.1.cmd = s.cmd :=
      hp ▸ (cmd_of_still t (still_placeBeat ..)).trans hmod
    split
    · next hp =>
      split
      · exact hplace hp
      · exact hplace hp
    · next hp => exact hplace hp
  · rfl

end

section
variable {s : State} {c : Cmd}

theorem stream_ends {d : Chn} {drain : Bool} (hd : d = chnOf (c.arg 0))
    (hdrain : drain = decide (c.arg 2 = 1)) : ∃ t : State,
    s.runsRow resumeStreamRow c = t.done c.started (resOne 32 1 (boolBit (t.halted d (c.arg 1) drain))) ∧
      t.cmd = (s.begunCmd c.seq).cmd ∧ (s.halted d (c.arg 1) drain = false → t = s.begunCmd c.seq) := by
  subst hd hdrain
  exact ⟨(s.begunCmd c.seq).resumeStream (chnOf (c.arg 0)) (c.arg 1) (decide (c.arg 2 = 1)), rfl,
    resumeStream_cmd .., fun hrun => resumeStream_running (s.begunCmd c.seq) _ _ _ hrun⟩

end

/-! ### PAIR_MODE -/

section
variable {b : State} {d : Cmd}

theorem pairModeRow_starts (hmode : d.arg 0 = 2) (hr : b.tide.role = rlMANAGER) :
    pairModeRow b d = (b.startPair d).done d resNone := by
  rw [pairModeRow, if_pos hmode, if_pos (by simpa using hr)]

theorem pairModeRow_notManager (hmode : d.arg 0 = 2) (hr : b.tide.role ≠ rlMANAGER) :
    pairModeRow b d = b.abort d rsNOTMANAGER := by
  rw [pairModeRow, if_pos hmode, if_neg (by simpa using hr)]

theorem pairModeRow_ends (hmode : d.arg 0 = 0) (hr : b.tide.role = rlMANAGER) :
    pairModeRow b d = (b.setPair (d.arg 1) { b.pairSlot (d.arg 1) with state := 0 }).done d resNone := by
  rw [pairModeRow, if_neg (by omega), if_pos (by simp [hmode, hr])]

/-- PAIR_MODE is for the membership of this part: mode 1, and mode 0 where the part does not manage. -/
def Cmd.forMember (d : Cmd) (b : State) : Prop := d.arg 0 = 1 ∨ d.arg 0 = 0 ∧ b.tide.role ≠ rlMANAGER

theorem pairModeRow_member (h : d.forMember b) : pairModeRow b d = if b.memberRest then
    (b.setMember (decide (d.arg 0 = 1)) (w64 (d.arg 4))).done d resNone else b.abort d rsSTATE := by
  have hmode : d.arg 0 ≠ 2 := by rcases h with h | ⟨h, -⟩ <;> omega
  have hmanager : ¬(decide (d.arg 0 = 0) && decide (b.tide.role = rlMANAGER)) = true := by
    rcases h with h | ⟨-, h⟩
    · simp [h]
    · simp [h]
  rw [pairModeRow, if_neg hmode, if_neg hmanager]

theorem memberRest_iff : b.memberRest = true ↔ b.img.image = none ∨ ∀ e ∈ b.bound, (b.chan e).gate.st = .stopped := by
  simp [State.memberRest]

theorem arg_le_pair (h : d.opcode = opPAIR) :
    d.arg 1 < 8 ∧ d.arg 2 < 256 ∧ d.arg 3 < 256 ∧ d.arg 4 < 2 ^ 64 ∧ d.arg 5 < 2 ^ 64 := by
  have hop : d.opcode ≠ opADOPT := by simp [h, opPAIR, opADOPT]
  have hfields : d.fields.getD [] = [pMax 0 1 2, pMax 1 1 7, pMax 2 1 0xFE, pMax 3 1 0xFE, pAny 8 8, pAny 16 8] := by
    simp [Cmd.fields, h]
    rfl
  have hslot : d.arg 1 ≤ (pMax 1 1 7).hi := Cmd.arg_le (by rw [hfields]; rfl) hop (Nat.zero_le _)
  have haddrA : d.arg 2 ≤ (pMax 2 1 0xFE).hi := Cmd.arg_le (by rw [hfields]; rfl) hop (Nat.zero_le _)
  have haddrB : d.arg 3 ≤ (pMax 3 1 0xFE).hi := Cmd.arg_le (by rw [hfields]; rfl) hop (Nat.zero_le _)
  have hringA : d.arg 4 ≤ (pAny 8 8).hi := Cmd.arg_le (by rw [hfields]; rfl) hop (Nat.zero_le _)
  have hringB : d.arg 5 ≤ (pAny 16 8).hi := Cmd.arg_le (by rw [hfields]; rfl) hop (Nat.zero_le _)
  have hbyte : (pMax 1 1 7).hi = 7 ∧ (pMax 2 1 0xFE).hi = 0xFE ∧ (pMax 3 1 0xFE).hi = 0xFE ∧
    (pAny 8 8).hi = 2 ^ 64 - 1 ∧ (pAny 16 8).hi = 2 ^ 64 - 1 := ⟨rfl, rfl, rfl, rfl, rfl⟩
  omega

theorem pairSlot_setPair (s : State) (n m : Nat) (p : PairSlot) :
    (s.setPair n p).pairSlot m = if n = m ∧ m < 8 then p else s.pairSlot m := getD_set! _ _ _ _ _

/-- A channel whose membership has been set. -/
def Chan.member (ch : Chan) (on : Bool) (ring : W64) : Chan := { ch with regs2 := { ch.regs2 with
  pairMember := on, pairRing := ring, pairProduced := 0, pairConsumed := 0, ringFull := false } }

/-- The job's results are paired no more. -/
def State.unpaired (s : State) : State := { s with job := { s.job with pair := false } }

theorem setMember_def (s : State) (on : Bool) (ring : W64) : s.setMember on ring =
    if on then s.channels.foldl (fun t e => t.modChan e fun ch => ch.member on ring) s
    else (s.channels.foldl (fun t e => t.modChan e fun ch => ch.member on ring) s).unpaired := rfl

theorem setMember_cmd (s : State) (on : Bool) (ring : W64) : (s.setMember on ring).cmd = s.cmd := by
  have hcmd : (s.channels.foldl (fun t e => t.modChan e fun ch => ch.member on ring) s).cmd = s.cmd := by
    refine foldl_keeps State.cmd ?_ _ s
    exact fun _ _ => rfl
  rw [setMember_def]
  split <;> exact hcmd

theorem setMember_chan (s : State) (on : Bool) (ring : W64) {e : Chn} (he : e ∈ s.channels) :
    (s.setMember on ring).chan e = (s.chan e).member on ring := by
  have hchan := chan_foldl_modChan_of_mem (f := fun ch => ch.member on ring) (nodup_channels s) he s
  rw [setMember_def]
  split <;> exact hchan

end

section
variable {s : State} {seq : W64} {c : Cmd}

theorem pair_starts (h : s.turnOf opPAIR seq c) (hmode : c.arg 0 = 2) (hr : s.tide.role = rlMANAGER) :
    (s.runsRow pairModeRow c).endedOk c false resNone ∧
      ((s.runsRow pairModeRow c).pairSlot (c.arg 1)).state = 1 ∧
      ((s.runsRow pairModeRow c).pairSlot (c.arg 1)).addrA.toNat = c.arg 2 ∧
      ((s.runsRow pairModeRow c).pairSlot (c.arg 1)).addrB.toNat = c.arg 3 ∧
      ((s.runsRow pairModeRow c).pairSlot (c.arg 1)).ringA.toNat = c.arg 4 ∧
      ((s.runsRow pairModeRow c).pairSlot (c.arg 1)).ringB.toNat = c.arg 5 ∧
      ((s.runsRow pairModeRow c).pairSlot (c.arg 1)).compared = 0 ∧
      ((s.runsRow pairModeRow c).pairSlot (c.arg 1)).skipped = 0 ∧
      ∀ n < 8, n ≠ c.arg 1 → (s.runsRow pairModeRow c).pairSlot n = s.pairSlot n := by
  have hrow : s.runsRow pairModeRow c = ((s.begunCmd c.seq).startPair c.started).done c.started resNone :=
    pairModeRow_starts (b := s.begunCmd c.seq) (d := c.started) hmode hr
  obtain ⟨hslot, haddrA, haddrB, hringA, hringB⟩ := arg_le_pair h.2.2
  have hset (m : Nat) := pairSlot_setPair (s.begunCmd c.seq) (c.arg 1) m { PairSlot.reset with
    state := 1, addrA := BitVec.ofNat 8 (c.arg 2), addrB := BitVec.ofNat 8 (c.arg 3)
    timeout := (s.pairSlot (c.arg 1)).timeout, ringA := w64 (c.arg 4), ringB := w64 (c.arg 5) }
  have hthis := (hset (c.arg 1)).trans (if_pos ⟨rfl, hslot⟩)
  have hpair (m : Nat) : (s.runsRow pairModeRow c).pairSlot m =
      ((s.begunCmd c.seq).startPair c.started).pairSlot m := by
    rw [hrow]
    rfl
  have hp := (hpair (c.arg 1)).trans hthis
  rw [hp]
  refine ⟨hrow ▸ started_endedOk h rfl resNone, rfl, Nat.mod_eq_of_lt haddrA, Nat.mod_eq_of_lt haddrB,
    Nat.mod_eq_of_lt hringA, Nat.mod_eq_of_lt hringB, rfl, rfl, fun n _ hne => ?_⟩
  exact ((hpair n).trans (hset n)).trans (if_neg fun heq => hne heq.1.symm)

theorem pair_ends (h : s.turnOf opPAIR seq c) (hmode : c.arg 0 = 0) (hr : s.tide.role = rlMANAGER) :
    (s.runsRow pairModeRow c).endedOk c false resNone ∧ ((s.runsRow pairModeRow c).pairSlot (c.arg 1)).state = 0 := by
  have hrow : s.runsRow pairModeRow c = ((s.begunCmd c.seq).setPair (c.arg 1)
      { s.pairSlot (c.arg 1) with state := 0 }).done c.started resNone :=
    pairModeRow_ends (b := s.begunCmd c.seq) (d := c.started) hmode hr
  rw [hrow]
  refine ⟨started_endedOk h rfl resNone, ?_⟩
  exact congrArg PairSlot.state ((pairSlot_setPair (s.begunCmd c.seq) (c.arg 1) (c.arg 1) _).trans
    (if_pos ⟨rfl, (arg_le_pair h.2.2).1⟩))

theorem pair_member (h : s.turnOf opPAIR seq c) (hfor : c.forMember s)
    (hrest : s.img.image = none ∨ ∀ d ∈ s.bound, (s.chan d).gate.st = .stopped) :
    (s.runsRow pairModeRow c).endedOk c false resNone ∧ ∀ d ∈ s.channels,
      ((s.runsRow pairModeRow c).chan d).regs2.pairMember = decide (c.arg 0 = 1) ∧
      ((s.runsRow pairModeRow c).chan d).regs2.pairRing.toNat = c.arg 4 ∧
      ((s.runsRow pairModeRow c).chan d).regs2.ringFull = false := by
  have hrow : s.runsRow pairModeRow c = ((s.begunCmd c.seq).setMember (decide (c.arg 0 = 1))
      (w64 (c.arg 4))).done c.started resNone :=
    (pairModeRow_member (b := s.begunCmd c.seq) (d := c.started) hfor).trans (if_pos (memberRest_iff.mpr hrest))
  have hcmd := setMember_cmd (s.begunCmd c.seq) (decide (c.arg 0 = 1)) (w64 (c.arg 4))
  have hchan (d : Chn) (hd : d ∈ s.channels) := setMember_chan (s.begunCmd c.seq) (decide (c.arg 0 = 1))
    (w64 (c.arg 4)) hd
  obtain ⟨-, -, -, hring, -⟩ := arg_le_pair h.2.2
  rw [hrow]
  generalize (s.begunCmd c.seq).setMember (decide (c.arg 0 = 1)) (w64 (c.arg 4)) = t at hcmd hchan ⊢
  refine ⟨started_endedOk h (congrArg CmdRegs.accepted hcmd) resNone, fun d hd => ?_⟩
  exact ⟨(congrArg (·.regs2.pairMember) (hchan d hd) :),
    (congrArg (·.regs2.pairRing.toNat) (hchan d hd) :).trans (Nat.mod_eq_of_lt hring),
    (congrArg (·.regs2.ringFull) (hchan d hd) :)⟩

end

end Sys2Proof.Machine
end

section
/-! PROOFS. O49: the row of RESET_CHANNEL (R515, R516). -/
namespace Sys2Proof.Machine

/-- The sequence numbers of the accepted commands. -/
def State.seqs (s : State) : List W64 := s.cmd.accepted.map Cmd.seq

theorem lists_of_seqs {s t : State} (h : t.seqs = s.seqs) {seq : W64} (hl : s.lists seq) : t.lists seq := by
  obtain ⟨x, hx, hseq⟩ := hl
  have hmem : x.seq ∈ t.seqs := h ▸ List.mem_map_of_mem hx
  obtain ⟨y, hy, hyseq⟩ := List.mem_map.mp hmem
  exact ⟨y, hy, hyseq.trans hseq⟩

theorem seqs_of_cmd {s t : State} (h : t.cmd = s.cmd) : t.seqs = s.seqs := congrArg (fun x => x.accepted.map Cmd.seq) h

theorem seqs_mapCmds (s : State) {f : Cmd → Cmd} (hf : ∀ x, (f x).seq = x.seq) : (s.mapCmds f).seqs = s.seqs := by
  unfold State.seqs State.mapCmds
  rw [List.map_map]
  exact List.map_congr_left fun x _ => hf x

theorem seqs_noteGone (s : State) (c : Chn) (retired : Bool) : (s.noteGone c retired).seqs = s.seqs := by
  refine seqs_mapCmds s fun x => ?_
  split <;> rfl

/-- What a reset of channel `c` leaves of the others and of the rest. -/
structure ResetFrame (c : Chn) (s t : State) : Prop where
  seqs : t.seqs = s.seqs
  cy : t.cy = s.cy
  chan : ∀ d, d ≠ c → (t.chan d).standing = (s.chan d).standing
  port : ∀ j, j ≠ c.val → t.port j = s.port j
  job : s.job.active = false → t.job.active = false

section
variable (s : State) (c : Chn)

/-- A reset of a channel, before its registers are set. -/
def State.resetBase (s : State) (c : Chn) : State := (((s.loadChan c).dropSaves).noteGone c false).closePort c.val

/-- A channel held in reset until cycle `until_`. -/
def Chan.heldAt (ch : Chan) (st : ChState) (until_ : Nat) : Chan := { ch with
  gate := { ch.gate with st := st, inReset := some until_ }
  regs2 := { ch.regs2 with reproduced := false } }

/-- The job is active no more. -/
def State.jobEnded (s : State) : State := { s with job := { s.job with active := false } }

theorem resetChan_eq : s.resetChan c =
    ((s.resetBase c).modChan c fun ch => ch.heldAt (s.chan c).gate.st (s.cy + resetCycles)).jobEnded := rfl

theorem resetBase_frame : (s.resetBase c).seqs = s.seqs ∧ (s.resetBase c).cy = s.cy ∧
    (∀ d, ((s.resetBase c).chan d).standing = ((s.loadChan c).chan d).standing) ∧
    ∀ j, j ≠ c.val → (s.resetBase c).port j = s.port j := by
  have hclose := SyncFrame.closePort (((s.loadChan c).dropSaves).noteGone c false) (List.mem_singleton_self c.val)
  have hload := sameButSync_loadChan s c
  have hdrop := dropSaves_same (s.loadChan c)
  refine ⟨?_, ?_, fun d => ?_, fun j hj => ?_⟩
  · rw [State.resetBase, seqs_of_cmd hclose.same.cmd, seqs_noteGone, seqs_of_cmd (dropSaves_cmd _),
      seqs_of_cmd hload.cmd]
  · exact hclose.same.cy.trans ((congrArg State.cy hdrop :).trans hload.cy)
  · exact (hclose.chan d).trans (dropSaves_standing _ d)
  · have hports : (s.loadChan c).dropSaves.port j = (s.loadChan c).port j :=
      (congrArg (fun t : State => t.port j) hdrop :)
    exact (hclose.port j fun h => hj (List.mem_singleton.mp h)).trans (hports.trans (port_loadChan_other s c hj))

theorem resetChan_frame : ResetFrame c s (s.resetChan c) := by
  obtain ⟨hseqs, hcy, hchan, hport⟩ := resetBase_frame s c
  rw [resetChan_eq]
  generalize s.resetBase c = t at hseqs hcy hchan hport
  refine ⟨hseqs, hcy, fun d hd => ?_, hport, fun _ => rfl⟩
  have hother := State.chan_modChan_other t c d (fun ch => ch.heldAt (s.chan c).gate.st (s.cy + resetCycles)) hd
  exact (congrArg Chan.standing hother).trans ((hchan d).trans (standing_loadChan_other s c hd))

theorem askReset_frame : ResetFrame c s (s.askReset c) := by
  unfold State.askReset
  split
  · exact ⟨rfl, rfl, fun d hd => congrArg Chan.standing (State.chan_modChan_other s c d _ hd), fun _ _ => rfl, id⟩
  · exact resetChan_frame s c

/-- A channel at rest has been cleared and is held in reset until cycle `until_`. -/
structure State.heldInReset (t : State) (d : Chn) (until_ : Nat) : Prop where
  inReset : (t.chan d).gate.inReset = some until_
  cells : (t.chan d).cells = []
  port : (t.port d.val).isOpen = false
  job : t.job.active = false

theorem resetChan_holds : (s.resetChan c).heldInReset c (s.cy + 1024) := by
  have hcells := (congrArg (fun x => x.2.1) ((resetBase_frame s c).2.2.1 c) :).trans (loadChan_loads s c).2
  rw [resetChan_eq]
  have hclosed : ((s.resetBase c).port c.val).isOpen = false := isOpen_closePort _ _ (c.isLt.trans (by decide))
  generalize s.resetBase c = t at hcells hclosed
  have hchan := State.chan_modChan t c fun ch => ch.heldAt (s.chan c).gate.st (s.cy + resetCycles)
  exact ⟨(congrArg (·.gate.inReset) hchan :), (congrArg (·.cells) hchan :).trans hcells, hclosed, rfl⟩

variable {s}

theorem ResetFrame.held {t u : State} {d : Chn} (h : ResetFrame c t u) (hd : d ≠ c) {n : Nat} (ht : t.heldInReset d n) :
    u.heldInReset d n :=
  ⟨(congrArg (fun x => x.1.inReset) (h.chan d hd) :).trans ht.inReset,
    (congrArg (fun x => x.2.1) (h.chan d hd) :).trans ht.cells,
    (congrArg MsgPort.isOpen (h.port d.val fun heq => hd (Fin.ext heq))).trans ht.port, h.job ht.job⟩

end

theorem busyChan_of_gate {s t : State} {d : Chn} (h : (t.chan d).gate = (s.chan d).gate) :
    t.busyChan d = s.busyChan d := by
  rw [State.busyChan, h, State.busyChan]

section
variable {s : State} {l : List Chn}

theorem resetAll_seqs : (l.foldl State.askReset s).seqs = s.seqs :=
  foldl_keeps State.seqs (fun t c => (askReset_frame t c).seqs) l s

theorem resetAll_rest {d : Chn} (hl : l.Nodup) (hd : d ∈ l) (hbusy : s.busyChan d = false)
    (hslack : (s.chan d).regs2.slackEntered = false) : (l.foldl State.askReset s).heldInReset d (s.cy + 1024) := by
  refine foldl_reaches (P := fun t => (t.chan d).standing = (s.chan d).standing ∧ t.cy = s.cy)
    (Q := fun t => t.heldInReset d (s.cy + 1024)) hl hd (fun t e he ht => ?_) (fun t ht => ?_) (fun t e he ht => ?_)
    ⟨rfl, rfl⟩
  · have hframe := askReset_frame t e
    exact ⟨(hframe.chan d he.symm).trans ht.1, hframe.cy.trans ht.2⟩
  · obtain ⟨hstanding, hcy⟩ := ht
    have hentered : (t.chan d).regs2.slackEntered = false := (congrArg (fun x => x.2.2.1) hstanding :).trans hslack
    have hidle : t.busyChan d = false := (busyChan_of_gate (congrArg Prod.fst hstanding :)).trans hbusy
    rw [State.askReset, hidle, hentered, ← hcy]
    exact resetChan_holds t d
  · exact (askReset_frame t e).held e he.symm ht

theorem resetAll_busy {d : Chn} (hl : l.Nodup) (hd : d ∈ l) (hbusy : s.busyChan d = true) :
    ((l.foldl State.askReset s).chan d).gate = { (s.chan d).gate with resetDue := true, stopNow := true } := by
  refine foldl_reaches (P := fun t => (t.chan d).gate = (s.chan d).gate)
    (Q := fun t => (t.chan d).gate = { (s.chan d).gate with resetDue := true, stopNow := true }) hl hd
    (fun t e he ht => ?_) (fun t ht => ?_) (fun t e he ht => ?_) rfl
  · exact (congrArg Prod.fst ((askReset_frame t e).chan d he.symm) :).trans ht
  · rw [State.askReset, (busyChan_of_gate ht).trans hbusy, Bool.true_or, if_pos rfl, State.modGate,
      State.chan_modChan, ht]
  · exact (congrArg Prod.fst ((askReset_frame t e).chan d he.symm) :).trans ht

end

section
variable {b : State} {d : Cmd}

theorem resetRow_retired (h : ∃ e ∈ b.maskOf d, (b.chan e).gate.st = .retired) : resetRow b d = b.abort d rsRETIRED :=
  if_pos (anySt_iff.mpr h)

theorem resetRow_noImage (hgone : ∀ e ∈ b.maskOf d, (b.chan e).gate.st ≠ .retired)
    (h : ∃ e ∈ b.maskOf d, (b.chan e).gate.st = .noImage) : resetRow b d = b.abort d rsSTATE := by
  have hretired : ¬b.anySt (b.maskOf d) .retired = true := fun hany => by
    obtain ⟨e, he, hst⟩ := anySt_iff.mp hany
    exact hgone e he hst
  rw [resetRow, if_neg hretired, if_pos (anySt_iff.mpr h)]

theorem resetRow_resets (h : ∀ e ∈ b.maskOf d, (b.chan e).gate.st ≠ .retired ∧ (b.chan e).gate.st ≠ .noImage)
    (hl : b.maskOf d ≠ []) : resetRow b d = ((b.maskOf d).foldl State.askReset b).keepCmd d := by
  have hretired : ¬b.anySt (b.maskOf d) .retired = true := fun hany => by
    obtain ⟨e, he, hst⟩ := anySt_iff.mp hany
    exact (h e he).1 hst
  have hnone : ¬b.anySt (b.maskOf d) .noImage = true := fun hany => by
    obtain ⟨e, he, hst⟩ := anySt_iff.mp hany
    exact (h e he).2 hst
  rw [resetRow, if_neg hretired, if_neg hnone, if_neg fun hnil => hl (List.isEmpty_iff.mp hnil)]

end

theorem reset_resets {s : State} {seq : W64} {c : Cmd} (h : s.turnOf opRESET seq c)
    (hst : ∀ e ∈ s.maskOf c, (s.chan e).gate.st ≠ .retired ∧ (s.chan e).gate.st ≠ .noImage) (hl : s.maskOf c ≠ []) :
    (s.runsRow resetRow c).waitsOn c ∧ ∀ d ∈ s.maskOf c,
      (s.busyChan d = false → (s.chan d).regs2.slackEntered = false →
        (s.runsRow resetRow c).heldInReset d (s.cy + 1024)) ∧
      (s.busyChan d = true → ((s.runsRow resetRow c).chan d).gate =
        { (s.chan d).gate with resetDue := true, stopNow := true }) := by
  have hrow : s.runsRow resetRow c = ((s.maskOf c).foldl State.askReset (s.begunCmd c.seq)).keepCmd c.started :=
    resetRow_resets (b := s.begunCmd c.seq) (d := c.started) hst hl
  have hnodup : (s.maskOf c).Nodup := (nodup_channels s).filter _
  rw [hrow]
  have hunfinished : c.started.finished = false := (turnOf_finished h :)
  refine ⟨waitsOn_keepCmd (lists_of_seqs resetAll_seqs (turnOf_lists h)) c.started_same rfl hunfinished,
    fun d hd => ⟨fun hbusy hslack => ?_, fun hbusy => ?_⟩⟩
  · obtain ⟨hreset, hcells, hport, hjob⟩ := resetAll_rest (s := s.begunCmd c.seq) hnodup hd hbusy hslack
    exact ⟨hreset, hcells, hport, hjob⟩
  · exact resetAll_busy (s := s.begunCmd c.seq) hnodup hd hbusy

end Sys2Proof.Machine
end

section
/-! PROOFS. O49: what windows that move, and blocks that open or come to rest, leave of a restored channel
(R367, R505). -/
namespace Sys2Proof.Machine

/-! ### What a restore keeps beside the channels -/

/-- The image, the grade and the numbers of the accepted commands are what they were. -/
structure Listed (s t : State) : Prop where
  img : t.img = s.img
  four : t.four = s.four
  seqs : t.seqs = s.seqs

/-- And so is `p` of every channel for which no reset is due. -/
structure Rolls {β : Type} (p : Chan → β) (s t : State) : Prop extends Listed s t where
  chan : ∀ d, (s.chan d).gate.resetDue = false →
    (t.chan d).gate.resetDue = false ∧ p (t.chan d) = p (s.chan d)

section
variable {s t u : State}

theorem Listed.refl (s : State) : Listed s s := ⟨rfl, rfl, rfl⟩

theorem Listed.trans (h : Listed s t) (h' : Listed t u) : Listed s u :=
  ⟨h'.img.trans h.img, h'.four.trans h.four, h'.seqs.trans h.seqs⟩

theorem Listed.foldl {α : Type} {f : State → α → State} (hf : ∀ s x, Listed s (f s x)) (l : List α) (s : State) :
    Listed s (l.foldl f s) :=
  List.foldlRecOn (motive := Listed s) l f (.refl s) fun t ht x _ => ht.trans (hf t x)

theorem Listed.modChan (s : State) (c : Chn) (f : Chan → Chan) : Listed s (s.modChan c f) := ⟨rfl, rfl, rfl⟩

theorem Listed.mapCmds (s : State) {f : Cmd → Cmd} (hf : ∀ x, (f x).seq = x.seq) : Listed s (s.mapCmds f) :=
  ⟨rfl, rfl, seqs_mapCmds s hf⟩

theorem Listed.of_same (h : { t with chans := s.chans } = s) : Listed s t :=
  ⟨(congrArg State.img h :), (congrArg State.four h :), seqs_of_cmd (congrArg State.cmd h :)⟩

theorem Listed.of_sync (h : sameButSync s t) : Listed s t := ⟨h.img, h.four, seqs_of_cmd h.cmd⟩

theorem Listed.of_journal (h : sameButJournal s t) : Listed s t :=
  ⟨(congrArg State.img h.same :), h.four, congrArg (List.map Cmd.seq) h.accepted⟩

variable {β : Type} {p : Chan → β}

theorem Rolls.refl (p : Chan → β) (s : State) : Rolls p s s := ⟨.refl s, fun _ h => ⟨h, rfl⟩⟩

theorem Rolls.trans (h : Rolls p s t) (h' : Rolls p t u) : Rolls p s u :=
  ⟨h.toListed.trans h'.toListed, fun d hd => by
    obtain ⟨hreset, hp⟩ := h.chan d hd
    obtain ⟨hreset', hp'⟩ := h'.chan d hreset
    exact ⟨hreset', hp'.trans hp⟩⟩

theorem Rolls.foldl {α : Type} {f : State → α → State} (hf : ∀ s x, Rolls p s (f s x)) (l : List α) (s : State) :
    Rolls p s (l.foldl f s) :=
  List.foldlRecOn (motive := Rolls p s) l f (.refl p s) fun t ht x _ => ht.trans (hf t x)

theorem Rolls.of_chans (h : Listed s t) (hc : t.chans = s.chans) : Rolls p s t :=
  ⟨h, fun d hd => by rw [chan_of_chans hc d]; exact ⟨hd, rfl⟩⟩

theorem Rolls.modChan {f : Chan → Chan} (hr : ∀ ch, (f ch).gate.resetDue = ch.gate.resetDue)
    (hp : ∀ ch, p (f ch) = p ch) (s : State) (c : Chn) : Rolls p s (s.modChan c f) :=
  ⟨.modChan s c f, fun d hd => ⟨(State.modChan_keeps (·.gate.resetDue) hr s c d).trans hd,
    State.modChan_keeps p hp s c d⟩⟩

theorem Rolls.of_sync (hp : ∀ x y : Chan, x.standing = y.standing → p x = p y) {l : List Nat} (h : SyncFrame l s t) :
    Rolls p s t :=
  ⟨.of_sync h.same, fun d hd => ⟨(congrArg (fun x => x.1.resetDue) (h.chan d) :).trans hd, hp _ _ (h.chan d)⟩⟩

end

/-! ### A channel leaves its window, and its block opens -/

/-- What a restored channel goes on with. -/
def Chan.resumed (ch : Chan) : W64 × Vector W64 32 × Mem := (ch.gate.seq, ch.core.regs, ch.core.dmem)

theorem resumed_of_standing (x y : Chan) (h : x.standing = y.standing) : x.resumed = y.resumed :=
  (congrArg (fun a => (a.1.seq, a.2.2.2)) h :)

section
variable (s : State) (c : Chn)

theorem listed_noteStop : Listed s (s.noteStop c) := by
  have hsave (t : State) (ht : Listed s t) {P : Cmd → Bool} : Listed s (t.mapCmds fun m =>
      if P m then m.fail stABORTED rsWITHDRAWN else m) :=
    ht.trans (.mapCmds t fun x => by split <;> rfl)
  unfold State.noteStop
  dsimp only
  split
  · refine hsave _ ?_
    exact ⟨rfl, rfl, rfl⟩
  · exact hsave s (.refl s)

theorem noteStop_chans : (s.noteStop c).chans = s.chans := by
  unfold State.noteStop
  dsimp only
  split <;> rfl

theorem rolls_stopChan (cause : BitVec 3) : Rolls Chan.resumed s (s.stopChan c cause) := by
  have hnote (t : State) : Rolls Chan.resumed t (t.noteStop c) := .of_chans (listed_noteStop t c) (noteStop_chans t c)
  have hraise (t : State) : Rolls Chan.resumed t (t.raise (evChan c 7)) := .of_chans ⟨rfl, rfl, rfl⟩ rfl
  refine Rolls.trans (Rolls.trans (.modChan ?_ ?_ s c) (hnote _)) (hraise _)
  · exact fun _ => rfl
  · exact fun _ => rfl

theorem rolls_holdChan : Rolls Chan.resumed s (s.holdChan c) := by
  have hnote (t : State) : Rolls Chan.resumed t (t.noteHold c) := by
    refine .of_chans (.mapCmds t fun x => ?_) rfl
    split <;> rfl
  have hraise (t : State) : Rolls Chan.resumed t (t.raise (evChan c 0)) := .of_chans ⟨rfl, rfl, rfl⟩ rfl
  refine Rolls.trans (Rolls.trans (.modChan ?_ ?_ s c) (hnote _)) (hraise _)
  · exact fun _ => rfl
  · exact fun _ => rfl

theorem rolls_enterOpening : Rolls Chan.resumed s (s.enterOpening c) := by
  obtain ⟨hsame, hother⟩ := sameButChan_enterOpening s c
  refine ⟨.of_same hsame, fun d hd => ?_⟩
  by_cases hdc : d = c
  · subst hdc
    rw [Chan.resumed, gate_enterOpening, core_enterOpening]
    exact ⟨hd, rfl⟩
  · rw [hother d hdc]
    exact ⟨hd, rfl⟩

theorem listed_resetChan : Listed s (s.resetChan c) := by
  have hclose := SyncFrame.closePort (((s.loadChan c).dropSaves).noteGone c false) (List.mem_singleton_self c.val)
  have hdrop : Listed (s.loadChan c) (s.loadChan c).dropSaves :=
    ⟨dropSaves_img _, dropSaves_four _, seqs_of_cmd (dropSaves_cmd _)⟩
  have hgone (t : State) : Listed t (t.noteGone c false) := ⟨rfl, rfl, seqs_noteGone t c false⟩
  have hbase : Listed s (s.resetBase c) :=
    (((Listed.of_sync (sameButSync_loadChan s c)).trans hdrop).trans (hgone _)).trans (.of_sync hclose.same)
  rw [resetChan_eq]
  generalize s.resetBase c = t at hbase
  exact ⟨hbase.img, hbase.four, hbase.seqs⟩

/-- A reset that was due reaches only its own channel. -/
theorem rolls_resetChan (h : (s.chan c).gate.resetDue = true) : Rolls Chan.resumed s (s.resetChan c) := by
  refine ⟨listed_resetChan s c, fun d hd => ?_⟩
  have hdc : d ≠ c := fun heq => Bool.false_ne_true (hd.symm.trans (heq ▸ h))
  have hstanding := (resetChan_frame s c).chan d hdc
  exact ⟨(congrArg (fun x => x.1.resetDue) hstanding :).trans hd, resumed_of_standing _ _ hstanding⟩

theorem rolls_afterSlack : Rolls Chan.resumed s (s.afterSlack c) := by
  unfold State.afterSlack
  dsimp only
  split
  · exact rolls_holdChan s c
  · split
    · next hreset =>
      have hstopped : ((s.stopChan c 3).chan c).gate.resetDue = true := by
        rw [chan_stopChan]
        exact hreset
      exact (rolls_stopChan s c 3).trans (rolls_resetChan _ c hstopped)
    · split
      · exact rolls_stopChan s c _
      · exact rolls_enterOpening s c

theorem rolls_beginTask (k : SlackTask) : Rolls Chan.resumed s (s.beginTask k) := by
  cases k with
  | calibrate r => exact .of_chans ⟨rfl, rfl, rfl⟩ rfl
  | substitute d p => exact .refl _ s
  | retrain n => exact .of_chans ⟨rfl, rfl, rfl⟩ rfl
  | firmware =>
    have hsw : Rolls Chan.resumed s { s with svc := { s.svc with mgmtSwitch := true } } := .of_chans ⟨rfl, rfl, rfl⟩ rfl
    exact hsw.trans (.foldl (fun t i => .of_sync resumed_of_standing
      (SyncFrame.closePort t (List.mem_singleton_self i))) _ _)

theorem rolls_startTasks : Rolls Chan.resumed s s.startTasks := by
  refine .foldl (fun t k => ?_) _ s
  split
  · refine (rolls_beginTask t k.task).trans (.of_chans ?_ ?_)
    · exact ⟨rfl, rfl, rfl⟩
    · rfl
  · exact .refl _ t

theorem rolls_leaveIfFree : Rolls Chan.resumed s (s.leaveIfFree c) := by
  have hleft : Rolls Chan.resumed s (s.modChan c fun ch => { ch with
      regs2 := { ch.regs2 with slackEntered := false, slackWaiting := false } }) := by
    refine .modChan ?_ ?_ s c
    · exact fun _ => rfl
    · exact fun _ => rfl
  have hreset : ((s.modChan c fun ch => { ch with
      regs2 := { ch.regs2 with slackEntered := false, slackWaiting := false } }).chan c).gate.resetDue =
      (s.chan c).gate.resetDue := by
    rw [State.chan_modChan]
  unfold State.leaveIfFree
  dsimp only
  generalize (s.modChan c fun ch => { ch with
    regs2 := { ch.regs2 with slackEntered := false, slackWaiting := false } }) = t at hleft hreset ⊢
  split
  · exact .refl _ s
  · split
    · split
      · exact hleft.trans (rolls_afterSlack t c)
      · split
        · next hdue => exact hleft.trans (rolls_resetChan t c (hreset.trans hdue))
        · exact hleft
    · refine .modChan ?_ ?_ s c
      · exact fun _ => rfl
      · exact fun _ => rfl

theorem rolls_enterSlack : Rolls Chan.resumed s (s.enterSlack c) := by
  refine Rolls.trans (.modChan ?_ ?_ s c) ((rolls_startTasks _).trans (.foldl rolls_leaveIfFree _ _))
  · exact fun _ => rfl
  · exact fun _ => rfl

theorem rolls_rollOn : Rolls Chan.resumed s (s.rollOn c) := by
  unfold State.rollOn
  split
  · refine Rolls.trans (.modChan ?_ ?_ s c) (rolls_enterSlack _ c)
    · exact fun _ => rfl
    · exact fun _ => rfl
  · split
    · exact rolls_stopChan s c 1
    · exact rolls_enterOpening s c

end

end Sys2Proof.Machine
end

section
/-! PROOFS. O49: the row of RESUME, and the restore that it shares with ADOPT_FALLBACK (R367, R403). -/
namespace Sys2Proof.Machine

/-! ### A channel is restored from its slot -/

section
variable (s : State) (c : Chn)

theorem listed_reopen (sq dq : List (List Strm)) : Listed s (s.reopen c sq dq) := by
  unfold State.reopen
  refine Listed.trans (Listed.foldl ?_ _ s) (Listed.foldl ?_ _ _)
  · exact fun t e => .modChan t c _
  · exact fun t e => .modChan t c _

theorem chan_reopen_other (sq dq : List (List Strm)) {d : Chn} (hd : d ≠ c) :
    (s.reopen c sq dq).chan d = s.chan d := by
  unfold State.reopen
  refine (foldl_keeps (fun t : State => t.chan d) ?_ _ _).trans (foldl_keeps (fun t : State => t.chan d) ?_ _ s)
  · exact fun t e => State.chan_modChan_other t c d _ hd
  · exact fun t e => State.chan_modChan_other t c d _ hd

/-- The gate and the core of a channel. -/
def Chan.heart (ch : Chan) : Gate × Core := (ch.gate, ch.core)

theorem heart_reopen (sq dq : List (List Strm)) : ((s.reopen c sq dq).chan c).heart = (s.chan c).heart := by
  unfold State.reopen
  refine (foldl_keeps (fun t : State => (t.chan c).heart) ?_ _ _).trans
    (foldl_keeps (fun t : State => (t.chan c).heart) ?_ _ s)
  · exact fun t e => State.modChan_keeps Chan.heart (f := fun ch => ch.modDq e.2 _) (fun _ => rfl) t c c
  · exact fun t e => State.modChan_keeps Chan.heart (f := fun ch => ch.modSq e.2 _) (fun _ => rfl) t c c

theorem chan_modPort (i : Nat) (f : MsgPort → MsgPort) (d : Chn) : (s.modPort i f).chan d = s.chan d := rfl

variable (older : Bool) (v : Slot)

/-- A restored channel, before its queues open. -/
theorem restoreChan_eq : ∃ t : State, s.restoreChan older c v = t.reopen c v.sq v.dq ∧ Listed s t ∧
    (∀ d, d ≠ c → t.chan d = s.chan d) ∧
    (t.chan c).heart = ((s.chan c).gate.restored older v s.part.blocks, (s.chan c).core.restored v s.cy) := by
  refine ⟨_, rfl, ⟨rfl, rfl, rfl⟩, fun d hd => ?_, ?_⟩
  · rw [chan_modPort, State.chan_modChan_other _ _ _ _ hd]
    rfl
  · rw [chan_modPort, State.chan_modChan]
    rfl

theorem listed_restoreChan : Listed s (s.restoreChan older c v) := by
  obtain ⟨t, heq, hlisted, -, -⟩ := restoreChan_eq s c older v
  rw [heq]
  exact hlisted.trans (listed_reopen t c _ _)

theorem chan_restoreChan_other {d : Chn} (hd : d ≠ c) : (s.restoreChan older c v).chan d = s.chan d := by
  obtain ⟨t, heq, -, hother, -⟩ := restoreChan_eq s c older v
  rw [heq, chan_reopen_other t c _ _ hd, hother d hd]

theorem restoreChan_restores : ((s.restoreChan older c v).chan c).gate.resetDue = (s.chan c).gate.resetDue ∧
    ((s.restoreChan older c v).chan c).resumed = (v.seq, v.regs, v.dmem) := by
  obtain ⟨t, heq, -, -, hheart⟩ := restoreChan_eq s c older v
  have hown := (heart_reopen t c v.sq v.dq).trans hheart
  rw [heq]
  exact ⟨(congrArg (fun x => x.1.resetDue) hown :), (congrArg (fun x => (x.1.seq, x.2.regs, x.2.dmem)) hown :)⟩

end

theorem listed_putSaveSet (s : State) (ws : List ByteWrite) : Listed s (s.putSaveSet ws) :=
  .of_journal (sameButJournal_partWrite s 7 _)

theorem putSaveSet_chans (s : State) (ws : List ByteWrite) : (s.putSaveSet ws).chans = s.chans :=
  (sameButJournal_partWrite s 7 _).chans

/-! ### The bound channels are restored -/

section
variable (slots : Chn → Option Slot) (older : Bool)

/-- A channel is restored from its slot, if it has one. -/
def State.restoreFrom (slots : Chn → Option Slot) (older : Bool) (s : State) (c : Chn) : State :=
  match slots c with
  | some v => s.restoreChan older c v
  | none => s

theorem listed_restoreFrom (s : State) (c : Chn) : Listed s (s.restoreFrom slots older c) := by
  unfold State.restoreFrom
  split
  · exact listed_restoreChan s c older _
  · exact .refl s

theorem chan_restoreFrom_other (s : State) {c d : Chn} (hd : d ≠ c) :
    (s.restoreFrom slots older c).chan d = s.chan d := by
  unfold State.restoreFrom
  split
  · exact chan_restoreChan_other s c older _ hd
  · rfl

/-- The bound channels have been restored, and the save set written. -/
def State.restoredAll (slots : Chn → Option Slot) (older : Bool) (s : State) : State :=
  match s.keeper.bind slots with
  | some v => { s.bound.foldl (State.restoreFrom slots older) s with
      job := { (s.bound.foldl (State.restoreFrom slots older) s).job with accum := v.accum } }.putSaveSet v.saveSet
  | none => s.bound.foldl (State.restoreFrom slots older) s

theorem restoreAll_eq (s : State) : s.restoreAll older slots =
    (s.restoredAll slots older).bound.foldl State.rollOn (s.restoredAll slots older) := rfl

theorem restoredAll_frame (s : State) : Listed s (s.restoredAll slots older) ∧
    (s.restoredAll slots older).chans = (s.bound.foldl (State.restoreFrom slots older) s).chans := by
  have hfold : Listed s (s.bound.foldl (State.restoreFrom slots older) s) :=
    .foldl (listed_restoreFrom slots older) s.bound s
  unfold State.restoredAll
  generalize s.bound.foldl (State.restoreFrom slots older) s = t at hfold ⊢
  split
  · next v _ =>
    have haccum : Listed s { t with job := { t.job with accum := v.accum } } := hfold.trans ⟨rfl, rfl, rfl⟩
    exact ⟨haccum.trans (listed_putSaveSet _ _), putSaveSet_chans _ _⟩
  · exact ⟨hfold, rfl⟩

theorem listed_restoreAll (s : State) : Listed s (s.restoreAll older slots) := by
  rw [restoreAll_eq]
  exact (restoredAll_frame slots older s).1.trans (Rolls.foldl rolls_rollOn _ _).toListed

theorem restoreAll_restores {s : State} {d : Chn} (hd : d ∈ s.bound) (hreset : (s.chan d).gate.resetDue = false)
    {v : Slot} (hv : slots d = some v) : ((s.restoreAll older slots).chan d).resumed = (v.seq, v.regs, v.dmem) := by
  have hfold : ((s.bound.foldl (State.restoreFrom slots older) s).chan d).gate.resetDue = false ∧
      ((s.bound.foldl (State.restoreFrom slots older) s).chan d).resumed = (v.seq, v.regs, v.dmem) := by
    refine foldl_reaches (P := fun t => t.chan d = s.chan d)
      (Q := fun t => (t.chan d).gate.resetDue = false ∧ (t.chan d).resumed = (v.seq, v.regs, v.dmem))
      ((nodup_channels s).filter _) hd (fun t e he ht => ?_) (fun t ht => ?_) (fun t e he ht => ?_) rfl
    · exact (chan_restoreFrom_other slots older t he.symm).trans ht
    · obtain ⟨hdue, hresumed⟩ := restoreChan_restores t d older v
      simp only [State.restoreFrom, hv]
      exact ⟨hdue.trans (ht ▸ hreset), hresumed⟩
    · rw [chan_restoreFrom_other slots older t he.symm]
      exact ht
  rw [← chan_of_chans (restoredAll_frame slots older s).2 d] at hfold
  rw [restoreAll_eq]
  exact ((Rolls.foldl rolls_rollOn _ _).chan d hfold.1).2.trans hfold.2

end

/-! ### What a rollback drops before the restore -/

/-- The state of a channel. -/
def Chan.state (ch : Chan) : ChState := ch.gate.st

theorem state_of_standing (x y : Chan) (h : x.standing = y.standing) : x.state = y.state := st_of_standing h

section
variable (s : State) (c : Chn)

/-- A change of one channel that leaves its gate as it is. -/
theorem rolls_state_modChan {f : Chan → Chan} (h : ∀ ch, (f ch).gate = ch.gate) : Rolls Chan.state s (s.modChan c f) :=
  .modChan (fun ch => congrArg Gate.resetDue (h ch)) (fun ch => congrArg Gate.st (h ch)) s c

theorem rolls_cancelAll : Rolls Chan.state s (s.cancelAll c) := by
  have hsq (t : State) (q : Nat) : Rolls Chan.state t (t.cancelSq c q) := by
    unfold State.cancelSq State.modSq State.ledger
    refine Rolls.trans (rolls_state_modChan t c ?_) (rolls_state_modChan _ c ?_)
    · exact fun _ => rfl
    · exact fun _ => rfl
  unfold State.cancelAll
  refine Rolls.trans (.foldl hsq _ s) (rolls_state_modChan _ c ?_)
  exact fun _ => rfl

theorem rolls_absorbFlight : Rolls Chan.state s s.absorbFlight := by
  unfold State.absorbFlight
  refine Rolls.trans (.of_chans ?_ ?_) (.foldl ?_ _ _)
  · exact ⟨rfl, rfl, rfl⟩
  · rfl
  · refine fun t e => rolls_state_modChan t e ?_
    exact fun _ => rfl

theorem rolls_forgetStop : Rolls Chan.state s (s.forgetStop c) := by
  refine .modChan ?_ ?_ s c
  · exact fun _ => rfl
  · exact fun _ => rfl

/-- The streams of the bound channels, the messages in flight and the causes of stops are dropped. -/
def State.dropped (s : State) : State :=
  let t := s.bound.foldl State.cancelAll s
  t.bound.foldl (fun t d => t.closePort d.val) (t.bound.foldl State.forgetStop t.absorbFlight)

theorem resumeAll_eq (slots : Chn → Option Slot) : s.resumeAll slots = s.dropped.restoreAll false slots := rfl

theorem rolls_dropped : Rolls Chan.state s s.dropped :=
  ((Rolls.foldl rolls_cancelAll _ s).trans (rolls_absorbFlight _)).trans
    ((Rolls.foldl rolls_forgetStop _ _).trans (.foldl (fun t (d : Chn) => .of_sync state_of_standing
      (SyncFrame.closePort t (List.mem_singleton_self d.val))) _ _))

theorem listed_resumeAll (slots : Chn → Option Slot) : Listed s (s.resumeAll slots) :=
  (rolls_dropped s).toListed.trans (listed_restoreAll slots false _)

end

theorem resumeAll_restores {s : State} {slots : Chn → Option Slot} (hreset : ∀ e, (s.chan e).gate.resetDue = false)
    {d : Chn} (hd : d ∈ s.bound) {v : Slot} (hv : slots d = some v) :
    ((s.resumeAll slots).chan d).resumed = (v.seq, v.regs, v.dmem) := by
  have hdrop := rolls_dropped s
  have hbound : s.dropped.bound = s.bound :=
    bound_congr hdrop.img hdrop.four fun e => (hdrop.chan e (hreset e)).2
  exact restoreAll_restores slots false (hbound ▸ hd) (hdrop.chan d (hreset d)).1 hv

/-! ### RESUME -/

section
variable {b : State} {d : Cmd}

theorem resumeRow_busy (h : b.boundRest = false) : resumeRow b d = b.abort d rsSTATE := by
  rw [resumeRow, h]
  rfl

theorem resumeRow_noSave (h : b.boundRest = true) (hn : b.canRestore false = none) :
    resumeRow b d = b.abort d rsNOSAVE := by
  rw [resumeRow, h, hn]
  rfl

theorem resumeRow_resumes (h : b.boundRest = true) {n : W64} (hn : b.canRestore false = some n) :
    resumeRow b d = (b.keepCmd { d.waiting b.bound with result := resOne 32 8 n.toNat }).resumeAll
      (b.restoreSlot false) := by
  rw [resumeRow, h, hn]
  rfl

end

theorem resume_resumes {s : State} {c : Cmd} (hreset : ∀ e, (s.chan e).gate.resetDue = false)
    (h : s.boundRest = true) {n : W64} (hn : s.canRestore false = some n) {d : Chn} (hd : d ∈ s.bound) {v : Slot}
    (hv : s.restoreSlot false d = some v) : ((s.runsRow resumeRow c).chan d).resumed = (v.seq, v.regs, v.dmem) := by
  rw [State.runsRow, resumeRow_resumes (b := s.begunCmd c.seq) h hn]
  exact resumeAll_restores (s := (s.begunCmd c.seq).keepCmd _) hreset hd hv

end Sys2Proof.Machine
end

section
/-! PROOFS. O49: the row of ADOPT_FALLBACK (R373, R403). -/
namespace Sys2Proof.Machine

section
variable (slots : Chn → Option Slot)

theorem listed_restoreEntry (s : State) (e : W128) : Listed s (s.restoreEntry slots e) := by
  unfold State.restoreEntry
  dsimp only
  split
  · exact .refl s
  · split
    · exact .modChan s _ _
    · exact .modChan s _ _
    · exact ⟨rfl, rfl, rfl⟩
    · refine .foldl ?_ _ s
      exact fun t i => .modChan t _ _
    · exact .refl s

theorem listed_resumeVariant (s : State) (c : Chn) : Listed s (s.resumeVariant slots c) := by
  unfold State.resumeVariant
  dsimp only
  refine Listed.trans (.modChan s c _) (Listed.of_same (sameButChan_enterOpening _ c).1)

theorem listed_ownDone (s : State) (status reason : Nat) : Listed s (s.ownDone status reason) := by
  have hown (t : State) : Listed t { t with recov := { t.recov with own := none } } := ⟨rfl, rfl, rfl⟩
  unfold State.ownDone
  split
  · exact (Listed.of_journal (sameButJournal_ownCmd s _ _ _ _ _ _)).trans (hown _)
  · exact .refl s

/-- After the variant is bound, what it takes over from the slots touches neither image nor commands. -/
theorem listed_applyVariant (s : State) (v : Nat) : Listed (s.bindVariant v) (s.applyVariant v slots) := by
  have hentries (t : State) : Listed t (t.part.restoreMap.foldl (State.restoreEntry · slots) t) :=
    .foldl (listed_restoreEntry slots) _ t
  have hjob (t : State) (a : Smap W128) : Listed t { t with job := { t.job with accum := a } } := ⟨rfl, rfl, rfl⟩
  have hvariant (t : State) : Listed t (t.bound.foldl (State.resumeVariant · slots) t) :=
    .foldl (listed_resumeVariant slots) _ t
  have hcmds (t : State) : Listed t (t.mapCmds fun m => if m.open_ && m.opcode = opRETIRE then { m with
      memo := w64 (16 * (bits4 t.bound).toNat)
      result := resSet (resOne 32 1 v) 33 1 (bits4 t.bound).toNat } else m) :=
    .mapCmds t fun x => by split <;> rfl
  have hend (t : State) : Listed t { t with
      flt := { t.flt with recovering := false }, recov := { t.recov with rolling := .none } } := ⟨rfl, rfl, rfl⟩
  unfold State.applyVariant
  exact (hentries _).trans ((hjob _ _).trans ((hvariant _).trans ((hcmds _).trans
    ((listed_ownDone _ stOK 0).trans (hend _)))))

end

/-- The gate of a channel at rest. -/
def Gate.atRest (g : Gate) : Gate := { g with
  st := .stopped, phase := .none, ready := false, stopCause := 3, stopNow := false, halted := false }

section
variable (s : State)

theorem restHere_eq : s.restHere =
    s.bound.foldl (fun t d => t.modChan d fun ch => { ch with gate := ch.gate.atRest }) s := rfl

theorem restHere_same : { s.restHere with chans := s.chans } = s := by
  unfold State.restHere
  refine foldl_keeps (fun t => ({ t with chans := s.chans } : State)) ?_ _ s
  exact fun _ _ => rfl

theorem restHere_chan_other {d : Chn} (hd : d ∉ s.bound) : s.restHere.chan d = s.chan d :=
  chan_foldl_modChan_of_not_mem hd s

theorem restHere_chan_bound {d : Chn} (hd : d ∈ s.bound) : (s.restHere.chan d).gate.st = .stopped := by
  have hchan := chan_foldl_modChan_of_mem (f := fun ch => { ch with gate := ch.gate.atRest })
    ((nodup_channels s).filter _ : s.bound.Nodup) hd s
  exact (congrArg (fun ch : Chan => ch.gate.st) hchan :)

theorem mem_bound_iff {s : State} {d : Chn} : d ∈ s.bound ↔
    d ∈ s.channels ∧ bitAt s.part.chset d.val = true ∧ (s.chan d).gate.st ≠ .noImage ∧
      (s.chan d).gate.st ≠ .retired := by
  simp [State.bound, and_assoc]

theorem restHere_stopped {d : Chn} (hd : d ∈ s.restHere.bound) : (s.restHere.chan d).gate.st = .stopped := by
  by_cases hbound : d ∈ s.bound
  · exact restHere_chan_bound s hbound
  · have hlisted : Listed s s.restHere := .of_same (restHere_same s)
    refine absurd (mem_bound_iff.mpr ?_) hbound
    obtain ⟨hmem, hset, hst⟩ := mem_bound_iff.mp hd
    rw [restHere_chan_other s hbound] at hst
    rw [part_of_img hlisted.img] at hset
    rw [State.channels, hlisted.four] at hmem
    exact ⟨hmem, hset, hst⟩

/-- A state with the bound channels at rest under variant `v`, from which `adopt` ends. -/
theorem adopt_eq (v : Nat) : ∃ t : State, s.adopt v = t.restHere ∧ Listed (s.bindVariant v) t := by
  unfold State.adopt
  dsimp only
  split
  · next hv =>
    subst hv
    exact ⟨_, rfl, listed_resumeAll _ _⟩
  · exact ⟨_, rfl, (listed_applyVariant _ s v).trans (listed_putSaveSet _ _)⟩

theorem adopt_adopts (v : Nat) : (s.adopt v).img.variant = v ∧ (s.adopt v).seqs = s.seqs ∧
    ∀ d ∈ (s.adopt v).bound, ((s.adopt v).chan d).gate.st = .stopped := by
  obtain ⟨t, heq, hlisted⟩ := adopt_eq s v
  have hrest : Listed t t.restHere := .of_same (restHere_same t)
  rw [heq]
  refine ⟨?_, ?_, fun d hd => restHere_stopped t hd⟩
  · rw [hrest.img, hlisted.img, bindVariant_img]
  · rw [hrest.seqs, hlisted.seqs, seqs_of_cmd (bindVariant_cmd s v)]

end

section
variable {b : State} {d : Cmd}

theorem adoptRow_busy (h : b.boundRest = false) : adoptRow b d = b.abort d rsSTATE := by
  rw [adoptRow, h]
  rfl

theorem adoptRow_adopts (h : b.boundRest = true) {v : Nat} {m : BitVec 4} (hv : b.adoptee (d.arg 0) = some v)
    (hm : b.variantSet v = some m) (hgone : ∀ e ∈ chansOf m, (b.chan e).gate.st ≠ .retired)
    (hn : b.canRestore false ≠ none) :
    adoptRow b d = (b.adopt v).done d (resSet (resOne 32 1 v) 33 1 m.toNat) := by
  have hlive : ((chansOf m).any fun e => (b.chan e).gate.st = .retired) = false := by simpa using hgone
  have hsave : (b.canRestore false).isNone = false := by simpa [Option.isSome_iff_ne_none] using hn
  simp only [adoptRow, h, hv, hm, Option.getD_some, hlive, hsave]
  rfl

end

theorem adopt_ends {s : State} {seq : W64} {c : Cmd} (h : s.turnOf opADOPT seq c) (hrest : s.boundRest = true)
    {v : Nat} {m : BitVec 4} (hv : s.adoptee (c.arg 0) = some v) (hm : s.variantSet v = some m)
    (hgone : ∀ e ∈ chansOf m, (s.chan e).gate.st ≠ .retired) (hn : s.canRestore false ≠ none) :
    (s.runsRow adoptRow c).endedOk c false (resSet (resOne 32 1 v) 33 1 m.toNat) ∧
      (s.runsRow adoptRow c).img.variant = v ∧
      ∀ d ∈ (s.runsRow adoptRow c).bound, ((s.runsRow adoptRow c).chan d).gate.st = .stopped := by
  have hrow : s.runsRow adoptRow c = ((s.begunCmd c.seq).adopt v).done c.started
      (resSet (resOne 32 1 v) 33 1 m.toNat) :=
    adoptRow_adopts (b := s.begunCmd c.seq) (d := c.started) hrest hv hm hgone hn
  obtain ⟨himg, hseqs, hstop⟩ := adopt_adopts (s.begunCmd c.seq) v
  rw [hrow]
  exact ⟨endedOk_done (lists_of_seqs hseqs (turnOf_lists h)) c.started_same (by simp [Cmd.started]) _, himg, hstop⟩

end Sys2Proof.Machine
end

section
/-! PROOFS. O49: what each run-control command has done when its row has acted in its turn. -/
namespace Sys2Proof.Machine

section
variable {s : State} {seq : W64} {c : Cmd}

/-- START and RESUME act after the marks that are due (R397); here none is. -/
theorem exec_marked_row {i : Instr} {op : Nat} {row : State → Cmd → State}
    (hrow : exec i s = .next (s.applyMarks.onCmd op seq row)) (hm : s.noMark) (h : s.turnOf op seq c) :
    exec i s = .next (s.runsRow row c) := by
  rw [applyMarks_of_noMark hm] at hrow
  exact exec_row hrow h

/-- A row that does nothing is answered OK. -/
theorem runsRow_done {op : Nat} {row : State → Cmd → State} {result : BitVec 192} (h : s.turnOf op seq c)
    (hrow : row (s.begunCmd c.seq) c.started = (s.begunCmd c.seq).done c.started result) :
    (s.runsRow row c).endedOk c false result ∧ { s.runsRow row c with cmd := s.cmd } = s := by
  rw [State.runsRow, hrow]
  exact ⟨started_endedOk h rfl result, rfl⟩

end

/-- Settles O49: each row has one equation per case; a restore runs through what a rollback drops, the slot of
each bound channel, and windows and blocks that open, none of which changes a restored register. -/
theorem runCommands : Obligations.RunCommands := by
  intro s seq c l
  refine ⟨fun h hm => ?start, fun h hline => ?stop, fun h hline hr => ?stopElsewhere,
    fun h hline hr => ?stopLine, fun h => ?save, fun h hm _ hreset => ?resume, fun h => ?retire, fun h => ?adopt,
    fun h => ?reset, fun h => ?stream, fun h => ?pair⟩
  case start =>
    intro ready bad
    refine ⟨_, exec_marked_row rfl hm h, fun hgone => ?_, fun hnil => ?_, fun hnil hgone hno => ?_,
      fun hready hbad hnil hslack => ?_⟩
    · exact runsRow_aborts h (startRow_retired hgone) c.started_same
    · exact runsRow_done h (startRow_none hnil)
    · exact runsRow_aborts h (startRow_refused (b := s.begunCmd c.seq) (d := c.started) h.2.2 hnil hgone hno)
        c.started_same
    · obtain ⟨hwaits, hstarts, hplain, hjob⟩ := start_starts h hready hbad hnil hslack
      refine ⟨hwaits, fun d hd => ?_, hplain, hjob⟩
      obtain ⟨hst, hstop, hmark, hstarted⟩ := hstarts d hd
      exact ⟨hst, hstop, fun hhas => hmark _ (if_pos hhas), hstarted⟩
  case stop =>
    refine ⟨_, exec_row rfl h, fun hheld => ?_, fun hnil => ?_, fun hheld hnil =>
      ⟨fun hmark => ?_, fun hmark n hn => ?_, fun hmark hfull => ?_⟩⟩
    · rw [State.runsRow, stopRow_held (b := s.begunCmd c.seq) (d := c.started) hline hheld]
      exact ⟨ended_finish (turnOf_lists h) c.started_same _ _ _, rfl⟩
    · exact runsRow_done h (stopRow_none hline hnil)
    · exact stop_asks h ⟨hline, hnil, hheld⟩ hmark
    · exact stop_stored h ⟨hline, hnil, hheld⟩ hmark hn
    · exact (runsRow_aborts h (stopRow_full (b := s.begunCmd c.seq) (d := c.started) ⟨hline, hnil, hheld⟩ hmark hfull)
        c.started_same).1
  case stopElsewhere => exact ⟨_, exec_row rfl h, runsRow_aborts h (stopRow_notManager hline hr) c.started_same⟩
  case stopLine =>
    by_cases hf : s.freeLine = 0
    · obtain ⟨hended, hsame⟩ := runsRow_aborts h
        (stopRow_lineFull (b := s.begunCmd c.seq) (d := c.started) hline hr hf) c.started_same
      exact ⟨_, exec_row rfl h, (congrArg State.chans hsame :), fun _ => ⟨hended, (congrArg State.line hsame :)⟩,
        fun hpos => absurd hf hpos.ne'⟩
    · obtain ⟨hchans, hplaced⟩ := stop_placed h hline hr (Nat.pos_of_ne_zero hf)
      exact ⟨_, exec_row rfl h, hchans, fun hfull => absurd hfull hf, fun _ => hplaced⟩
  case save =>
    by_cases hb : s.bound = []
    · obtain ⟨hended, hsame⟩ := runsRow_aborts h (saveRow_none (b := s.begunCmd c.seq) (d := c.started) hb)
        c.started_same
      exact ⟨_, exec_row rfl h, (congrArg State.chans hsame :), fun _ => hended, fun hne => absurd hb hne⟩
    · obtain ⟨hchans, hsaves⟩ := save_saves h hb
      exact ⟨_, exec_row rfl h, hchans, fun hnil => absurd hnil hb, fun _ => hsaves⟩
  case resume =>
    refine ⟨_, exec_marked_row rfl hm h, fun hrest => ?_, fun hrest hn => ?_, fun hrest n hn d hd v hv => ?_⟩
    · exact runsRow_aborts h (resumeRow_busy hrest) c.started_same
    · exact (runsRow_aborts h (resumeRow_noSave (b := s.begunCmd c.seq) (d := c.started) hrest hn) c.started_same).1
    · have hresumed := resume_resumes (c := c) hreset hrest hn hd hv
      exact ⟨(congrArg (fun x => x.2.1) hresumed :), (congrArg (fun x => x.2.2) hresumed :),
        (congrArg Prod.fst hresumed :)⟩
  case retire =>
    refine ⟨_, exec_row rfl h, fun hgone => ?_, fun hst hb => ?_, fun hb hn => ?_, fun hb hn => retire_begins h hb hn⟩
    · exact (runsRow_aborts h (retireRow_retired hgone) c.started_same).1
    · exact (runsRow_aborts h (retireRow_unbound (b := s.begunCmd c.seq) (d := c.started) hst hb) c.started_same).1
    · exact (runsRow_aborts h (retireRow_noSave (b := s.begunCmd c.seq) (d := c.started) hb hn) c.started_same).1
  case adopt =>
    refine ⟨fun hrest => ?_, fun hrest v m hv hvm hgone hn => ⟨_, exec_row rfl h, adopt_ends h hrest hv hvm hgone hn⟩⟩
    exact ⟨_, exec_row rfl h, runsRow_aborts h (adoptRow_busy hrest) c.started_same⟩
  case reset =>
    refine ⟨_, exec_row rfl h, fun hgone => ?_, fun hgone hnone => ?_, fun hst hnil => ?_⟩
    · exact runsRow_aborts h (resetRow_retired hgone) c.started_same
    · exact runsRow_aborts h (resetRow_noImage (b := s.begunCmd c.seq) (d := c.started) hgone hnone) c.started_same
    · obtain ⟨hwaits, hreset⟩ := reset_resets h hst hnil
      refine ⟨hwaits, fun d hd => ⟨fun hidle hslack => ?_, fun hbusy => ?_⟩⟩
      · obtain ⟨hin, hcells, hport, hjob⟩ := (hreset d hd).1 hidle hslack
        exact ⟨hin, hcells, hport, hjob⟩
      · rw [(hreset d hd).2 hbusy]
        exact ⟨rfl, rfl, rfl⟩
  case stream =>
    intro d drain
    obtain ⟨t, hrow, hcmd, hrun⟩ := stream_ends (s := s) (c := c) (d := d) (drain := drain) rfl rfl
    refine ⟨_, t.halted d (c.arg 1) drain, exec_row rfl h, ?_, ?_, fun hhalt => ?_⟩
    · rw [hrow]
      exact started_endedOk h (congrArg CmdRegs.accepted hcmd) _
    · rw [hrow]
      rfl
    · rw [hrow, hrun hhalt]
      exact ⟨hhalt, rfl, rfl⟩
  case pair =>
    intro manager rest
    refine ⟨_, exec_row rfl h, fun hmode hr => pair_starts h hmode hr, fun hmode hr => ?_,
      fun hmode hr => pair_ends h hmode hr, fun hfor => ⟨fun hrest => ?_, fun hrest => pair_member h hfor hrest⟩⟩
    · obtain ⟨hended, hsame⟩ := runsRow_aborts h
        (pairModeRow_notManager (b := s.begunCmd c.seq) (d := c.started) hmode hr) c.started_same
      exact ⟨hended, (congrArg State.job hsame :)⟩
    · obtain ⟨hended, hsame⟩ := runsRow_aborts h
        ((pairModeRow_member (b := s.begunCmd c.seq) (d := c.started) hfor).trans
          (if_neg fun hm => hrest (memberRest_iff.mp hm))) c.started_same
      exact ⟨hended, (congrArg State.chans hsame :)⟩

end Sys2Proof.Machine
end
